-- ==== Sys2Proof/Word.lean ====
section
/-!
DEFINITION. The words of the part: bytes, 32-bit control words, 64-bit core registers, and sparse tables keyed by number.
-/

namespace Sys2Proof

/-- One byte of a packet, a buffer or a memory. -/
abbrev Byte := BitVec 8

/-- One 32-bit word: a direct register, a mailbox word or a packet header word (R7, R9). -/
abbrev Word := BitVec 32

/-- One 64-bit word: a scalar register of a combine core. -/
abbrev Dword := BitVec 64

/-- A sparse table: the entries that differ from what an absent key reads as, keys strictly rising. -/
abbrev Tbl (α : Type) := List (Nat × α)

/-- The bits `[hi:lo]` of a number, bit 0 the least significant (R7). -/
def bits (w hi lo : Nat) : Nat := (w >>> lo) % 2 ^ (hi + 1 - lo)

/-- Bit `n` of a number. -/
def bit (w n : Nat) : Bool := w.testBit n

/-- The number a single bit stands for. -/
def b2n (b : Bool) : Nat := if b then 1 else 0

end Sys2Proof
end

