-- ==== Sys2Proof/Syntax.lean ====
section
/-!
DEFINITION. The commands the block takes: one constructor for each row of the table of operations and events, with its operands, and the
data those operands carry (packets, link blocks, measurements).
-/

namespace Sys2Proof

/-- A packet (R92): a header of 16 words (Table 4.1), a payload of bytes and the CRC-32 trailer. -/
structure Pkt where
  hdr     : List Word
  payload : List Byte
  trailer : Word
  deriving DecidableEq, Repr, Inhabited

/-- A link block (Table 4.7): the three header words, up to 64 units of 64 bytes (a unit not listed is zero) and the block CRC. -/
structure LinkBlock where
  h0    : Word
  h1    : Word
  h2    : Word
  units : List (List Byte)
  crc   : Word
  deriving DecidableEq, Repr, Inhabited

/-- What the part measures at a slot start (R74, R513): the generators' counter difference, edge difference in TBCLK cycles, parity
errors and distances from the source's phase, and the power of each of the twenty dies in deciwatts and their temperatures in degrees Celsius. -/
structure SlotMeas where
  countersDiffer : Bool
  edgeDiff       : Nat
  parity0        : Bool
  parity1        : Bool
  phase0         : Nat
  phase1         : Nat
  diePower       : List Nat
  dieTemp        : List Int
  deriving DecidableEq, Repr, Inhabited


/-- The commands of the block, one constructor for each row of spec/opcode_table.json, in the table's order.
Each constructor's line names its row's rule. -/
inductive Instr where
  /-- DOORBELL_RING (R44). -/
  | doorbellRing (ch : Nat) (v : Word)
  /-- REQUEST_BUFFER_WRITE (R44). -/
  | requestBufferWrite (ch off : Nat) (v : Word)
  /-- REGISTER_WRITE (R43). -/
  | registerWrite (off size : Nat) (v : Word)
  /-- TICK_COUNT_READ (R73). -/
  | tickCountRead
  /-- EVENT_RING_ARM (R46). -/
  | eventRingArm (v : Word)
  /-- EVENT_RING_DISARM (R46). -/
  | eventRingDisarm (v : Word)
  /-- EVENT_RING_CONSUMER_WRITE (R46). -/
  | eventRingConsumerWrite (v : Word)
  /-- EVENT_ENTRY_WRITE (R46). -/
  | eventEntryWrite
  /-- RESET_ARM_WARM (R47). -/
  | resetArmWarm
  /-- RESET_ARM_MP_SWITCH (R47). -/
  | resetArmMpSwitch
  /-- BULK_WINDOW_WRITE (R52). -/
  | bulkWindowWrite (off : Nat) (data : List Byte)
  /-- PERST_N_ASSERT (R42). -/
  | perstNAssert
  /-- PERST_N_RELEASE (R42). -/
  | perstNRelease
  /-- MCTP_MESSAGE_RECEIVE (R49). -/
  | mctpMessageReceive (binding eid : Nat) (body : List Byte)
  /-- SET_ENDPOINT_ID (R48). -/
  | setEndpointId (binding eid operation newEid : Nat)
  /-- GET_ENDPOINT_ID (R48). -/
  | getEndpointId (binding eid : Nat)
  /-- GET_MCTP_VERSION_SUPPORT (R48). -/
  | getMctpVersionSupport (binding eid messageType : Nat)
  /-- GET_MESSAGE_TYPE_SUPPORT (R48). -/
  | getMessageTypeSupport (binding eid : Nat)
  /-- GET_VENDOR_DEFINED_MESSAGE_SUPPORT (R48). -/
  | getVendorDefinedMessageSupport (binding eid selector : Nat)
  /-- I3C_ENTDAA (R48). -/
  | i3cEntdaa (addr : Nat)
  /-- GET_VERSION (R61). -/
  | getVersion (ch : Nat)
  /-- COMMIT (R57). -/
  | commit (ch : Nat)
  /-- DISCARD_STAGED (R57). -/
  | discardStaged (ch : Nat)
  /-- EVENT_SUBSCRIBE (R61). -/
  | eventSubscribe (ch : Nat)
  /-- FW_FLASH_WRITE (R62). -/
  | fwFlashWrite (ch : Nat)
  /-- FW_BOOT_SLOT_SET (R62). -/
  | fwBootSlotSet (ch : Nat)
  /-- FW_HITLESS_ACTIVATE (R64). -/
  | fwHitlessActivate (ch : Nat)
  /-- FW_STATUS_GET (R62). -/
  | fwStatusGet (ch : Nat)
  /-- LC_NONCE_GET (R68). -/
  | lcNonceGet (ch : Nat)
  /-- LC_TRANSITION (R70). -/
  | lcTransition (ch : Nat)
  /-- ANTI_ROLLBACK_ADVANCE (R69). -/
  | antiRollbackAdvance (ch : Nat)
  /-- TICK_CONFIG_SET (R89). -/
  | tickConfigSet (ch : Nat)
  /-- TICK_STATUS_GET (R73). -/
  | tickStatusGet (ch : Nat)
  /-- TICK_SOURCE_SELECT (R90). -/
  | tickSourceSelect (ch : Nat)
  /-- LEDGER_READ (R87). -/
  | ledgerRead (ch : Nat)
  /-- PORT_CONFIG_SET (R21). -/
  | portConfigSet (ch : Nat)
  /-- FWD_TABLE_LOAD (R150). -/
  | fwdTableLoad (ch : Nat)
  /-- NEXTHOP_SET_LOAD (R122). -/
  | nexthopSetLoad (ch : Nat)
  /-- QUEUE_CONFIG_SET (R136). -/
  | queueConfigSet (ch : Nat)
  /-- BUFFER_LIMITS_SET (R133). -/
  | bufferLimitsSet (ch : Nat)
  /-- SLICE_PARTITION_SET (R148). -/
  | slicePartitionSet (ch : Nat)
  /-- SHEAF_LOAD (R141). -/
  | sheafLoad (ch : Nat)
  /-- PORT_COUNTERS_READ (R151). -/
  | portCountersRead (ch : Nat)
  /-- CULLET_LIST_READ (R130). -/
  | culletListRead (ch : Nat)
  /-- MESH_ROUTE_LOAD (R160). -/
  | meshRouteLoad (ch : Nat)
  /-- EPOCH_FLIP (R173). -/
  | epochFlip (ch : Nat)
  /-- EPOCH_STATUS_GET (R171). -/
  | epochStatusGet (ch : Nat)
  /-- ROUTER_FENCE (R179). -/
  | routerFence (ch : Nat)
  /-- MESH_COUNTERS_READ (R186). -/
  | meshCountersRead (ch : Nat)
  /-- SCHEDULER_SET (R198). -/
  | schedulerSet (ch : Nat)
  /-- SHAPER_SET (R191). -/
  | shaperSet (ch : Nat)
  /-- METER_SET (R202). -/
  | meterSet (ch : Nat)
  /-- JOB_SHARE_SET (R205). -/
  | jobShareSet (ch : Nat)
  /-- SHAPING_COUNTERS_READ (R207). -/
  | shapingCountersRead (ch : Nat)
  /-- GROUP_CREATE (R287). -/
  | groupCreate (ch : Nat)
  /-- GROUP_MEMBERSHIP_SET (R275). -/
  | groupMembershipSet (ch : Nat)
  /-- GROUP_ARM (R255). -/
  | groupArm (ch : Nat)
  /-- GROUP_SUSPEND (R282). -/
  | groupSuspend (ch : Nat)
  /-- GROUP_RESUME (R282). -/
  | groupResume (ch : Nat)
  /-- GROUP_TEARDOWN (R283). -/
  | groupTeardown (ch : Nat)
  /-- GROUP_STATUS_GET (R286). -/
  | groupStatusGet (ch : Nat)
  /-- GENERATION_RECORD_READ (R274). -/
  | generationRecordRead (ch : Nat)
  /-- RING_PLAN_SET (R315). -/
  | ringPlanSet (ch : Nat)
  /-- RING_STATUS_GET (R315). -/
  | ringStatusGet (ch : Nat)
  /-- PROGRAM_LOAD (R335). -/
  | programLoad (ch : Nat)
  /-- PROGRAM_ATTACH (R336). -/
  | programAttach (ch : Nat)
  /-- PROGRAM_DETACH (R337). -/
  | programDetach (ch : Nat)
  /-- PROGRAM_UNLOAD (R344). -/
  | programUnload (ch : Nat)
  /-- THREAD_TRAP_READ (R344). -/
  | threadTrapRead (ch : Nat)
  /-- MEMORY_PARTITION_SET (R382). -/
  | memoryPartitionSet (ch : Nat)
  /-- ECHO_REGION_SET (R384). -/
  | echoRegionSet (ch : Nat)
  /-- SNAPSHOT_OPEN (R389). -/
  | snapshotOpen (ch : Nat)
  /-- SNAPSHOT_CLOSE (R394). -/
  | snapshotClose (ch : Nat)
  /-- SNAPSHOT_RECORD_READ (R397). -/
  | snapshotRecordRead (ch : Nat)
  /-- SNAPSHOT_BUDDY_SET (R392). -/
  | snapshotBuddySet (ch : Nat)
  /-- LANE_CONFIG_SET (R430). -/
  | laneConfigSet (ch : Nat)
  /-- LINK_TRAIN (R416). -/
  | linkTrain (ch : Nat)
  /-- LOOPBACK_SET (R428). -/
  | loopbackSet (ch : Nat)
  /-- LASER_CONTROL (R420). -/
  | laserControl (ch : Nat)
  /-- LANE_STATUS_GET (R429). -/
  | laneStatusGet (ch : Nat)
  /-- COORDINATES_SET (R433). -/
  | coordinatesSet (ch : Nat)
  /-- NEIGHBOUR_PLAN_LOAD (R435). -/
  | neighbourPlanLoad (ch : Nat)
  /-- GLEAN_STATUS_GET (R450). -/
  | gleanStatusGet (ch : Nat)
  /-- RANK_TABLE_LOAD (R446). -/
  | rankTableLoad (ch : Nat)
  /-- JOB_ADMIT (R448). -/
  | jobAdmit (ch : Nat)
  /-- FAULT_CONFIG_SET (R479). -/
  | faultConfigSet (ch : Nat)
  /-- FAULT_FORCE (R477). -/
  | faultForce (ch : Nat)
  /-- FAULT_LOG_READ (R479). -/
  | faultLogRead (ch : Nat)
  /-- UNIT_READMIT (R476). -/
  | unitReadmit (ch : Nat)
  /-- SPARE_BUDGET_GET (R474). -/
  | spareBudgetGet (ch : Nat)
  /-- RECOVERY_POLICY_SET (R486). -/
  | recoveryPolicySet (ch : Nat)
  /-- ROLLBACK_START (R490). -/
  | rollbackStart (ch : Nat)
  /-- RECOVERY_STATUS_GET (R499). -/
  | recoveryStatusGet (ch : Nat)
  /-- LEHR_ENTER (R517). -/
  | lehrEnter (ch : Nat)
  /-- LEHR_EXIT (R519). -/
  | lehrExit (ch : Nat)
  /-- RESET_WARM (R507). -/
  | resetWarm (ch : Nat)
  /-- RESET_PARTIAL (R508). -/
  | resetPartial (ch : Nat)
  /-- POWER_LIMIT_SET (R513). -/
  | powerLimitSet (ch : Nat)
  /-- POWER_TELEMETRY_READ (R521). -/
  | powerTelemetryRead (ch : Nat)
  /-- CLOCK_LEVEL_SET (R512). -/
  | clockLevelSet (ch : Nat)
  /-- SYS_RST_N_RELEASE (R503). -/
  | sysRstNRelease (straps : Nat)
  /-- SYS_RST_N_FALL (R504). -/
  | sysRstNFall
  /-- BOOT_COMPLETE (R63). -/
  | bootComplete
  /-- STANDBY_READY_SET (R63). -/
  | standbyReadySet
  /-- FW_HANDOVER (R64). -/
  | fwHandover
  /-- FW_ACTIVATE_TIMEOUT (R65). -/
  | fwActivateTimeout
  /-- LC_TRANSITION_DONE (R70). -/
  | lcTransitionDone
  /-- SUPPLY_OUT_OF_RANGE (R504). -/
  | supplyOutOfRange (rail : Nat)
  /-- SUPPLY_OUT_TIMEOUT (R504). -/
  | supplyOutTimeout
  /-- REFCLK_LOSS (R537). -/
  | refclkLoss
  /-- THERMAL_TRIP (R515). -/
  | thermalTrip (die : Nat)
  /-- THERMAL_THROTTLE (R515). -/
  | thermalThrottle (die : Nat)
  /-- HBM_THERMAL_LIMIT (R515). -/
  | hbmThermalLimit (stack : Nat)
  /-- TICK_EDGE (R81). -/
  | tickEdge (m : SlotMeas)
  /-- SLOT_START (R81). -/
  | slotStart (m : SlotMeas)
  /-- TICK_IN_EDGE (R538). -/
  | tickInEdge (phase : Int)
  /-- TICK_MARKER_RECEIVE (R107). -/
  | tickMarkerReceive (port : Nat) (unit : List Word) (rxCycles : Nat)
  /-- TICK_SOURCE_LOST (R75). -/
  | tickSourceLost
  /-- TICK_ALIGN_LOST (R78). -/
  | tickAlignLost
  /-- MARKER_TIMEOUT (R88). -/
  | markerTimeout (port : Nat)
  /-- FRAME_OVERRUN_PERSISTENT (R86). -/
  | frameOverrunPersistent (cx : Nat)
  /-- LINK_BLOCK_RECEIVE (R109). -/
  | linkBlockReceive (port : Nat) (blk : LinkBlock)
  /-- LINK_BLOCK_TRANSMIT (R104). -/
  | linkBlockTransmit (port : Nat)
  /-- LINK_REPLAY (R110). -/
  | linkReplay (port : Nat)
  /-- REPLAY_TIMEOUT (R110). -/
  | replayTimeout (port : Nat)
  /-- LINK_PARAMS_RECEIVE (R113). -/
  | linkParamsReceive (port : Nat) (pkt : Pkt)
  /-- LINK_NOTICE_RECEIVE (R108). -/
  | linkNoticeReceive (port : Nat) (unit : List Word)
  /-- PACKET_RECEIVE (R117). -/
  | packetReceive (port : Nat) (pkt : Pkt)
  /-- MESH_INJECT (R143). -/
  | meshInject (cx : Nat)
  /-- MESH_FLIT_RECEIVE (R156). -/
  | meshFlitReceive (router dir : Nat) (parityOk : Bool)
  /-- MESH_PACKET_ROUTE (R161). -/
  | meshPacketRoute (router input vc : Nat)
  /-- RELAY_SWEEP (R167). -/
  | relaySweep (cx : Nat)
  /-- RELAY_CREDIT_RECEIVE (R168). -/
  | relayCreditReceive (cx : Nat)
  /-- LOCAL_HANDOFF (R127). -/
  | localHandoff (cx : Nat)
  /-- EGRESS_STORE (R135). -/
  | egressStore (cx : Nat)
  /-- RESEQ_GAP_RELEASE (R139). -/
  | reseqGapRelease (port : Nat)
  /-- RESEQ_ENTRY_EXPIRE (R140). -/
  | reseqEntryExpire (port : Nat)
  /-- PACKET_SELECT (R196). -/
  | packetSelect (port : Nat)
  /-- PORT_MOVE_HANDOVER (R145). -/
  | portMoveHandover (port : Nat)
  /-- TILLER_SUBSTITUTE (R178). -/
  | tillerSubstitute (cx : Nat)
  /-- SLOT_MOVE_DONE (R279). -/
  | slotMoveDone (cx : Nat)
  /-- EPOCH_DRAINED (R173). -/
  | epochDrained
  /-- EPOCH_DRAIN_SLOW (R173). -/
  | epochDrainSlow
  /-- CONTRIB_AT_HOME (R265). -/
  | contribAtHome (cx : Nat)
  /-- PATIENCE_EXPIRY (R268). -/
  | patienceExpiry (grp gen chunk : Nat)
  /-- IDLE_GENERATION_OPEN (R268). -/
  | idleGenerationOpen (grp : Nat)
  /-- ADMISSION_WAITING (R259). -/
  | admissionWaiting (grp : Nat)
  /-- GROUP_CLOSE (R283). -/
  | groupClose (grp : Nat)
  /-- STORAGE_WIPE_DONE (R284). -/
  | storageWipeDone (grp : Nat)
  /-- RING_PARTIAL_LOST (R304). -/
  | ringPartialLost (grp axis : Nat)
  /-- INVOCATION_START (R323). -/
  | invocationStart (cx : Nat)
  /-- THREAD_WAKE (R373). -/
  | threadWake (t : Nat)
  /-- PROGRAM_MESSAGE_RECEIVE (R331). -/
  | programMessageReceive (cx : Nat)
  /-- STALLED_TRAP (R341). -/
  | stalledTrap (cx : Nat)
  /-- PROGRAM_GROUP_STOP (R341). -/
  | programGroupStop (grp : Nat)
  /-- ADD (R357). -/
  | add (t : Nat)
  /-- SUB (R357). -/
  | sub (t : Nat)
  /-- AND (R357). -/
  | and (t : Nat)
  /-- OR (R357). -/
  | or (t : Nat)
  /-- XOR (R357). -/
  | xor (t : Nat)
  /-- SLL (R357). -/
  | sll (t : Nat)
  /-- SRL (R357). -/
  | srl (t : Nat)
  /-- SRA (R357). -/
  | sra (t : Nat)
  /-- SLT (R357). -/
  | slt (t : Nat)
  /-- SLTU (R357). -/
  | sltu (t : Nat)
  /-- MIN (R357). -/
  | min (t : Nat)
  /-- MAX (R357). -/
  | max (t : Nat)
  /-- MINU (R357). -/
  | minu (t : Nat)
  /-- MAXU (R357). -/
  | maxu (t : Nat)
  /-- MUL (R357). -/
  | mul (t : Nat)
  /-- MULHU (R357). -/
  | mulhu (t : Nat)
  /-- MULH (R357). -/
  | mulh (t : Nat)
  /-- DIV (R357). -/
  | div (t : Nat)
  /-- DIVU (R357). -/
  | divu (t : Nat)
  /-- REM (R357). -/
  | rem (t : Nat)
  /-- REMU (R357). -/
  | remu (t : Nat)
  /-- CLZ (R357). -/
  | clz (t : Nat)
  /-- POPC (R357). -/
  | popc (t : Nat)
  /-- ADDI (R357). -/
  | addi (t : Nat)
  /-- ANDI (R357). -/
  | andi (t : Nat)
  /-- ORI (R357). -/
  | ori (t : Nat)
  /-- XORI (R357). -/
  | xori (t : Nat)
  /-- SLTI (R357). -/
  | slti (t : Nat)
  /-- SLTIU (R357). -/
  | sltiu (t : Nat)
  /-- SHIFTI (R357). -/
  | shifti (t : Nat)
  /-- LUI (R357). -/
  | lui (t : Nat)
  /-- FADD (R358). -/
  | fadd (t : Nat)
  /-- FSUB (R358). -/
  | fsub (t : Nat)
  /-- FMUL (R358). -/
  | fmul (t : Nat)
  /-- FDIV (R358). -/
  | fdiv (t : Nat)
  /-- FSQRT (R358). -/
  | fsqrt (t : Nat)
  /-- FMIN (R358). -/
  | fmin (t : Nat)
  /-- FMAX (R358). -/
  | fmax (t : Nat)
  /-- FEQ (R358). -/
  | feq (t : Nat)
  /-- FLT (R358). -/
  | flt (t : Nat)
  /-- FLE (R358). -/
  | fle (t : Nat)
  /-- FCVT_S_L (R358). -/
  | fcvtSL (t : Nat)
  /-- FCVT_L_S (R358). -/
  | fcvtLS (t : Nat)
  /-- LD (R353). -/
  | ld (t : Nat)
  /-- ST (R353). -/
  | st (t : Nat)
  /-- VLD (R353). -/
  | vld (t : Nat)
  /-- VST (R353). -/
  | vst (t : Nat)
  /-- ATOM (R359). -/
  | atom (t : Nat)
  /-- WNARROW (R327). -/
  | wnarrow (t : Nat)
  /-- WINFO (R326). -/
  | winfo (t : Nat)
  /-- VADD (R364). -/
  | vadd (t : Nat)
  /-- VSUB (R364). -/
  | vsub (t : Nat)
  /-- VMUL (R364). -/
  | vmul (t : Nat)
  /-- VFMA (R364). -/
  | vfma (t : Nat)
  /-- VDIV (R364). -/
  | vdiv (t : Nat)
  /-- VSQRT (R364). -/
  | vsqrt (t : Nat)
  /-- VMAX (R364). -/
  | vmax (t : Nat)
  /-- VMIN (R364). -/
  | vmin (t : Nat)
  /-- VABS (R364). -/
  | vabs (t : Nat)
  /-- VNEG (R364). -/
  | vneg (t : Nat)
  /-- VAND (R364). -/
  | vand (t : Nat)
  /-- VOR (R364). -/
  | vor (t : Nat)
  /-- VXOR (R364). -/
  | vxor (t : Nat)
  /-- VSHL (R364). -/
  | vshl (t : Nat)
  /-- VSHR (R364). -/
  | vshr (t : Nat)
  /-- VSRA (R364). -/
  | vsra (t : Nat)
  /-- VADDS (R365). -/
  | vadds (t : Nat)
  /-- VSUBS (R365). -/
  | vsubs (t : Nat)
  /-- VMOV (R364). -/
  | vmov (t : Nat)
  /-- VSEL (R364). -/
  | vsel (t : Nat)
  /-- VCMP (R361). -/
  | vcmp (t : Nat)
  /-- VSPLAT (R362). -/
  | vsplat (t : Nat)
  /-- VEXT (R362). -/
  | vext (t : Nat)
  /-- VINS (R362). -/
  | vins (t : Nat)
  /-- VREDSUM (R362). -/
  | vredsum (t : Nat)
  /-- VREDMAX (R362). -/
  | vredmax (t : Nat)
  /-- VREDMIN (R362). -/
  | vredmin (t : Nat)
  /-- PAND (R363). -/
  | pand (t : Nat)
  /-- POR (R363). -/
  | por (t : Nat)
  /-- PXOR (R363). -/
  | pxor (t : Nat)
  /-- PANDN (R363). -/
  | pandn (t : Nat)
  /-- PNOT (R363). -/
  | pnot (t : Nat)
  /-- PSET (R363). -/
  | pset (t : Nat)
  /-- PGET (R363). -/
  | pget (t : Nat)
  /-- PLANES (R363). -/
  | planes (t : Nat)
  /-- VCVT (R366). -/
  | vcvt (t : Nat)
  /-- MXQ (R367). -/
  | mxq (t : Nat)
  /-- MXD (R367). -/
  | mxd (t : Nat)
  /-- ACC_L320 (R368). -/
  | accL320 (t : Nat)
  /-- ACC_L96 (R368). -/
  | accL96 (t : Nat)
  /-- ACC_F32 (R368). -/
  | accF32 (t : Nat)
  /-- ACC_I32 (R368). -/
  | accI32 (t : Nat)
  /-- LFIN_L320 (R370). -/
  | lfinL320 (t : Nat)
  /-- LFIN_L96 (R370). -/
  | lfinL96 (t : Nat)
  /-- SCOPY (R371). -/
  | scopy (t : Nat)
  /-- MSEND (R372). -/
  | msend (t : Nat)
  /-- MRECV (R372). -/
  | mrecv (t : Nat)
  /-- PSEND (R332). -/
  | psend (t : Nat)
  /-- WAIT_MSG (R373). -/
  | waitMsg (t : Nat)
  /-- WAIT_TICK (R373). -/
  | waitTick (t : Nat)
  /-- NOP (R375). -/
  | nop (t : Nat)
  /-- EXIT (R375). -/
  | exit (t : Nat)
  /-- FENCE (R360). -/
  | fence (t : Nat)
  /-- SETIDX (R375). -/
  | setidx (t : Nat)
  /-- RDSYS (R375). -/
  | rdsys (t : Nat)
  /-- BEQ (R374). -/
  | beq (t : Nat)
  /-- BNE (R374). -/
  | bne (t : Nat)
  /-- BLT (R374). -/
  | blt (t : Nat)
  /-- BGE (R374). -/
  | bge (t : Nat)
  /-- BLTU (R374). -/
  | bltu (t : Nat)
  /-- BGEU (R374). -/
  | bgeu (t : Nat)
  /-- JAL (R374). -/
  | jal (t : Nat)
  /-- JR (R374). -/
  | jr (t : Nat)
  /-- ECHO_REQ_SERVE (R387). -/
  | echoReqServe (node : Nat)
  /-- SNAP_WRITE_RECEIVE (R391). -/
  | snapWriteReceive (node : Nat)
  /-- SNAP_READ_RECEIVE (R399). -/
  | snapReadReceive (node : Nat)
  /-- SNAPSHOT_SEAL_DONE (R394). -/
  | snapshotSealDone (handle : Nat)
  /-- SNAPSHOT_BUDDY_DEADLINE (R395). -/
  | snapshotBuddyDeadline (handle : Nat)
  /-- SNAPSHOT_VERIFY_DONE (R396). -/
  | snapshotVerifyDone (handle : Nat)
  /-- HBM_WIPE_DONE (R400). -/
  | hbmWipeDone (stack : Nat)
  /-- HBM_SPARE_COPY_DONE (R380). -/
  | hbmSpareCopyDone (stack : Nat)
  /-- TRAINING_FRAME_RECEIVE (R408). -/
  | trainingFrameReceive (port ch : Nat) (frame : List Word)
  /-- ADAPT_STEP (R410). -/
  | adaptStep (port ch fom : Nat)
  /-- READY_COUNTDOWN_END (R412). -/
  | readyCountdownEnd (port : Nat)
  /-- TRAIN_TIMEOUT (R414). -/
  | trainTimeout (port : Nat)
  /-- RETRY_EXPIRY (R414). -/
  | retryExpiry (port : Nat)
  /-- LOSS_OF_SIGNAL (R415). -/
  | lossOfSignal (port ch : Nat)
  /-- ALL_CHANNELS_LOST (R418). -/
  | allChannelsLost (port : Nat)
  /-- RETRAIN_LIMIT_EXPIRY (R417). -/
  | retrainLimitExpiry (port : Nat)
  /-- LANE_FOM_LOW (R415). -/
  | laneFomLow (port ch : Nat)
  /-- TX_SLEEP (R425). -/
  | txSleep (port : Nat)
  /-- TX_WAKE (R427). -/
  | txWake (port : Nat)
  /-- RX_WAKE (R427). -/
  | rxWake (port : Nat)
  /-- LASER_INPUT_LIVE (R421). -/
  | laserInputLive (laser : Nat)
  /-- LASER_NOT_READY (R421). -/
  | laserNotReady (laser : Nat)
  /-- LASER_INPUT_LOST (R421). -/
  | laserInputLost (laser : Nat)
  /-- GLEAN_RECEIVE (R437). -/
  | gleanReceive (port : Nat) (pkt : Pkt)
  /-- GLEAN_NO_ECHO (R437). -/
  | gleanNoEcho (port : Nat)
  /-- NEIGHBOUR_MISSING (R441). -/
  | neighbourMissing (port : Nat)
  /-- GLEAN_SILENCE (R441). -/
  | gleanSilence (port : Nat)
  /-- REJOIN_HOLD_END (R439). -/
  | rejoinHoldEnd (port : Nat)
  /-- COLLECTOR_REWRITE (R468). -/
  | collectorRewrite (ok : Bool)
  /-- SAFE_STATE_EXIT (R468). -/
  | safeStateExit
  /-- QUIET_PERIOD_EXPIRY (R466). -/
  | quietPeriodExpiry
  /-- ERR_N_PULSE_END (R463). -/
  | errNPulseEnd
  /-- MP_LOST (R471). -/
  | mpLost
  /-- MP_TAKEOVER (R471). -/
  | mpTakeover
  /-- BUILTIN_TEST_DONE (R476). -/
  | builtinTestDone (unit step : Nat)
  /-- COMPLEX_RESET_APPLY (R508). -/
  | complexResetApply (cx : Nat)
  /-- ROLLBACK_END (R492). -/
  | rollbackEnd (job : Nat)
  /-- POWER_LIMITER_STEP (R513). -/
  | powerLimiterStep (half : Nat)
  /-- AUTO_CLOCK_LOWER (R514). -/
  | autoClockLower (half : Nat)
  /-- AUTO_CLOCK_RAISE (R514). -/
  | autoClockRaise (half : Nat)
  /-- LEHR_WAKE_TICK (R519). -/
  | lehrWakeTick
  /-- LEHR_WAKE_SIGNAL (R519). -/
  | lehrWakeSignal (port : Nat)
  /-- LEHR_FORWARDING_RESUME (R520). -/
  | lehrForwardingResume
  /-- BYPASS (R532). -/
  | bypass
  /-- IDCODE (R532). -/
  | idcode
  /-- SAMPLE_PRELOAD (R532). -/
  | samplePreload (pins : List Bool)
  /-- EXTEST (R532). -/
  | extest (pins : List Bool)
  /-- CLAMP (R532). -/
  | clamp
  /-- HIGHZ (R532). -/
  | highz
  /-- COMMAND_COMPLETE (R44). -/
  | commandComplete (ch : Nat)
  /-- CONFIG_SPACE_WRITE (R42). -/
  | configSpaceWrite (off : Nat) (v : Word)
  /-- STRIKE_COUNT_RESET (R458). -/
  | strikeCountReset (unit : Nat)
  /-- SUPPLY_IN_RANGE (R468). -/
  | supplyInRange (rail : Nat)
  /-- HBM_THERMAL_RELEASE (R515). -/
  | hbmThermalRelease (stack : Nat)
  /-- LEHR_ENTERED (R517). -/
  | lehrEntered
  /-- RESET_PARTIAL_DONE (R509). -/
  | resetPartialDone (unit : Nat)
  /-- ILLEGAL_INSTRUCTION (R351). -/
  | illegalInstruction (t : Nat)
  /-- CODE_BOUNDS (R374). -/
  | codeBounds (t : Nat)
  deriving DecidableEq, Repr

end Sys2Proof
end

