-- ==== Sys2Proof/Decode.lean ====
section
/-!
DEFINITION. The reading of a word by the table's bits. The table gives no row of this block any bits, so no word spells a command; the
words of combine programs are read in Machine/Isa.lean.
-/

namespace Sys2Proof

/-- The command that a word spells by the table's bits: none, since no row has bits. -/
def decodeTableWord (nbits w : Nat) : Option Instr :=
  match nbits, w with
  | _, _ => none

end Sys2Proof
end

