-- ==== Sys2Proof/Config.lean ====
section
/-!
DEFINITION. What one part or one run fixes and the spec does not: each is a constant without a body, so nothing can be proved about its
value and a claim holds whatever it is.
-/

namespace Sys2Proof

/-- A fresh random number of the given width, the k-th one drawn (nonces of R68 and LINK_NONCE of Optical and Electrical Ports). -/
opaque Config.random : Nat → Nat → Nat

/-- SILICON_MAJOR and SILICON_MINOR (Table 2.3): fixed by the part. -/
opaque Config.silicon : Word

/-- The minor version of the DCI (Table 2.13). -/
opaque Config.dciMinor : BitVec 8

/-- A value that the spec leaves open, the k-th one a run meets, 64 bits of it. -/
opaque Config.openValue : Nat → BitVec 64

/-- The image header words of the firmware that the flash holds as the part is built: FW_VERSION, SECURITY_VERSION, HANDOVER_VERSION and
HANDOVER_MIN (Table 2.15), in this order. -/
opaque Config.factoryImage : Nat → BitVec 32

/-- Subsystem vendor ID and subsystem ID of the flash directory as the part is built (R41, Table 2.14). -/
opaque Config.subsystem : BitVec 32

/-- The parison bank in which a complex keeps the slot of a group's chunk: complex, group, chunk. -/
opaque Config.bankOf : Nat → Nat → Nat → Nat

end Sys2Proof
end

