-- ==== Sys2Proof/Machine/State.lean ====
section
/-!
DEFINITION. The state of the block, whole and as plain data, with its value right after reset. Each field names the rule of spec/ that
gives it. A value written behind a field is its reset value.
-/

namespace Sys2Proof.Machine
open Sys2Proof

/-- Why the machine stops with a fault. -/
inductive Fault where
  /-- A command names a unit that the W20 does not have: a port, complex, router or the like beyond its count in Table 0.1, or a DCI channel
  above 15. Raised by the meanings that name a unit, through `atUnit` of Machine/Ops.lean. Safe: the spec says that no such unit exists. -/
  | noSuchUnit (number : Nat)
  deriving DecidableEq, Repr

/-- Why a command is refused. -/
inductive Refusal where
  /-- A command that has no meaning in this model yet. Raised by exec's arms alone. Safe: the run stops. -/
  | notModelled (mnemonic : String)
  deriving DecidableEq, Repr

/-- The firmware phases of FW_PHASE (Table 2.3). -/
inductive FwPhase where
  | rom | booting | running | recovery | handover
  deriving DecidableEq, Repr

/-- The life-cycle states (Table 2.17). -/
inductive Lc where
  | manufacture | provisioned | inService | maintenance | retired
  deriving DecidableEq, Repr

/-- The fuses (R62, R66, R68): the life-cycle state, the anti-rollback field as the number of its blown bits, the image-key hashes and
their revoke bits, the owner-key hash, the device identifier and the device keys (R67, present or not). (DESIGN CHOICE, log 7, unsafe.) -/
structure Fuses where
  lc         : Lc := .manufacture
  antiRoll   : Nat := 0
  keyHashes  : List (List Byte) := []
  revoked    : List Bool := [false, false, false, false]
  ownerHash  : List Byte := []
  deviceUid  : List Byte := List.replicate 16 0
  deviceKeys : Bool := false
  deriving DecidableEq, Repr

/-! ### Control (Control Through Mailboxes) -/

/-- An event as it is raised (Table 2.6). -/
structure Event where
  code : Nat
  seq  : Nat
  tick : Nat
  data : List Word
  deriving DecidableEq, Repr

/-- A request in execution on a channel (R44, R50): its words from the envelope on, the binding and endpoint it came from (zero for a
host channel), whether its command's row has still to run, whether it is latched for a firmware or
processor to come (R51, R472), the bulk range it locks (R52), and what its response will carry when it commits. -/
structure Request where
  words   : List Word
  binding : Nat := 0
  eid     : Nat := 0
  arrived : Nat := 0
  waiting : Bool := true
  latched : Bool := false
  lockOff : Nat := 0
  lockLen : Nat := 0
  out     : List Word := []
  deriving DecidableEq, Repr

/-- A staged command (R57): its opcode, its payload words, the bytes it read from BAR2 when it was staged, and the number of commits
made before it was staged, against which object versions are checked (R59). -/
structure Staged where
  opcode : Nat
  words  : List Word
  bulk   : List Byte := []
  stamp  : Nat := 0
  deriving DecidableEq, Repr

/-- Why a set is rejected: the status, DETAIL and word 2 of COMMIT_REJECTED (Table 2.19). -/
structure Reject where
  status : Nat
  detail : Nat := 0
  word2  : Nat := 0
  deriving DecidableEq, Repr

/-- A commit that has been set for a tick (R57, R58): whether its request named the tick (R77), and what the check of slots 120 to 127 found, once it has been made (R59). -/
structure Due where
  tick   : Nat
  dryRun : Bool := false
  named  : Bool := false
  found  : Option (Option Reject) := none
  deriving DecidableEq, Repr

/-- A mailbox channel (Table 2.4, R44, R57). -/
structure Chan where
  busy       : Bool := false
  ready      : Bool := false
  dbIgnored  : Bool := false
  wrIgnored  : Bool := false
  enabled    : Bool := false
  irqEn      : Bool := false
  lastSeqTag : Nat := 0
  req        : Tbl Word := []
  resp       : List Word := []
  cur        : Option Request := none
  reply      : Option (List Word) := none
  staging    : List Staged := []
  due        : Option Due := none
  deriving DecidableEq, Repr

/-- The event ring's registers (Table 2.5). -/
structure EventRing where
  baseLo     : Word := 0
  baseHi     : Word := 0
  log2       : Nat := 0
  armed      : Bool := false
  irqEn      : Bool := false
  wrIgnored  : Bool := false
  refused    : Bool := false
  overflow   : Bool := false
  consInvalid : Bool := false
  producer   : Word := 0
  consumer   : Word := 0
  dropped    : Word := 0
  deriving DecidableEq, Repr

/-- A hitless activation in progress (R64): the slot, the channel that asked, the target tick, the base interval of the ring, and the handover tick
once it is chosen. -/
structure Activation where
  slot    : Nat
  ch      : Nat
  target  : Nat
  started : Nat
  atTick  : Option Nat := none
  deriving DecidableEq, Repr

/-- The control side: registers, channels, the event ring, MCTP, firmware, and what has left the part over PCIe and MCTP. `inD3` and `maxPayload` are the power state and
the payload size that host software set in the configuration space (R41, R42), `i3cIbi` counts the in-band interrupts of R48, and `mirror` the tick of the newest state
mirror (R63, R471). What has left is kept in lists that nothing reads. (DESIGN CHOICE, log 102, safe.) -/
structure Ctl where
  scratch     : Word := 0
  tickHi      : Word := 0
  readData    : Word := 0
  chans       : Tbl Chan := []
  ring        : EventRing := {}
  raised      : List Event := []
  held        : List Event := []
  heldDropped : Nat := 0
  eventCount  : Nat := 0
  dropMark    : Bool := false
  lastReset   : Nat := 1
  resetKind   : Nat := 0
  armIgnored  : Bool := false
  wipeActive  : Bool := false
  warmPending : Bool := false
  mpSwitch    : Bool := false
  perstLow    : Bool := false
  linkUp      : Bool := false
  bar0        : Nat := 0
  bar2        : Nat := 0
  memEn       : Bool := false
  masterEn    : Bool := false
  inD3        : Bool := false
  maxPayload  : Nat := 0
  msixEn      : Bool := false
  msixPend    : List Nat := []
  msixTable   : Tbl Word := []
  bulk        : List Host.Cell := []
  lockViol    : Nat := 0
  mctpEids    : Tbl Nat := []
  i3cAddr     : Nat := 0
  i3cIbi      : Nat := 0
  badChannel  : Nat := 0
  chanBusy    : Nat := 0
  subEid      : Nat := 0
  subOn       : Bool := false
  phase       : FwPhase := .rom
  activeMp    : Nat := 0
  standbyReady : Bool := false
  mirror      : Option Nat := none
  runningSlot : Nat := 0
  fwVersion   : Nat := 0
  secVersion  : Nat := 0
  handoverVer : Nat := 0
  handoverMin : Nat := 0
  activation  : Option Activation := none
  nonce       : Option (List Byte) := none
  lcTarget    : Option Lc := none
  lcFrom      : Lc := .manufacture
  lcTick      : Nat := 0
  lcHash      : List Byte := []
  commits     : Nat := 0
  versions    : Tbl Nat := []
  flash       : List Host.Cell := []
  slotWritten : List Bool := [false, false]
  msixSent    : List Nat := []
  hostWrites  : List (Nat × List Word) := []
  mctpOut     : List (Nat × Nat × List Byte) := []
  deriving DecidableEq, Repr

/-! ### Time base (Ticks, Slots and the Ledger) -/

/-- An entry of the tick source list (Table 3.9). -/
structure TickSource where
  kind : Nat
  port : Nat := 0
  deriving DecidableEq, Repr

/-- The tick generators, the source list, the servo and the ledger's records (R73 to R90). `active` is the source list's entry in use, 0xF in
holdover; `standby` the TICK_NUMBER, BASE_COUNT and slot of the generator that is not active (R74); `newSource` whether the source has changed since the last lock or step;
`stepTo` a step of the servo that waits for the next tick edge, with the tick number it brings when it changes the counts; `unbalanced`
and `imbalanceCount` are keyed by the quantity code times 2^29 plus the index of Table 3.10. -/
structure TimeSt where
  tick       : Nat := 0
  base       : Nat := 0
  slot       : Nat := 0
  mult       : Nat := 8
  tickOut    : Nat := 0
  tickOutPulses : Nat := 0
  activeGen  : Nat := 0
  standby    : Nat × Nat × Nat := (0, 0, 0)
  genFenced  : List Bool := [false, false]
  sources    : List TickSource := [{ kind := 1 }]
  stepAllowed : Bool := false
  active     : Nat := 0
  lockState  : Nat := 0
  everLocked : Bool := false
  newSource  : Bool := false
  tickInRun  : Nat := 0
  tickInGot  : Bool := false
  stepTo     : Option (Option Nat) := none
  offsetPs   : Int := 0
  offsets    : List Nat := []
  misaligned : Nat := 0
  freqAdj    : Int := 0
  overruns   : Nat := 0
  imbalances : Nat := 0
  markerErrors : Nat := 0
  unbalanced : List Nat := []
  imbalanceCount : Tbl Nat := []
  deriving DecidableEq, Repr

/-! ### Ports, links and queues (Packets, Cells and Link Blocks; Port Datapath and Buffers; Scheduling, Shaping and Policing) -/

/-- A mesh packet (Table 6.3): its header fields, and the packet of which it carries one part. `reinjected` marks one that a move of its port sends on (R145); `checked` is the tick
of the ingress checks of one that goes to a memory node (R391). -/
structure MeshPkt where
  kind       : Nat
  cls        : Nat
  epoch      : Nat
  rule       : Nat := 0
  flits      : Nat := 1
  part       : Nat := 0
  lastPart   : Bool := true
  toPort     : Bool := false
  dest       : Nat
  src        : Nat
  mask       : BitVec 128 := 0
  sweepLen   : Nat := 0
  sweepWest  : Bool := false
  detour     : Nat := 0
  creditCls  : Nat := 0
  attach     : Nat := 0
  ports      : BitVec 264 := 0
  mhParity   : Nat := 0
  detourPath : List Nat := []
  reinjected : Bool := false
  job        : Nat := 0
  ingress    : Nat := 511
  checked    : Option Nat := none
  pkt        : Pkt
  deriving DecidableEq, Repr

/-- A packet selected for transmission (R105): its bytes still to be framed, in whole units, and whether a unit of it has been framed. -/
structure TxPkt where
  pkt     : Pkt
  rest    : List Byte
  started : Bool := false
  deriving DecidableEq, Repr

/-- A SEQUENCED block kept until it is acknowledged (R110): its number, its block, how often it has been resent, the packets with a unit in
it, and whether the first of them began in an earlier block (R111). -/
structure Kept where
  lseq   : Nat
  blk    : LinkBlock
  resent : Nat := 0
  pkts   : List Pkt := []
  cont   : Bool := false
  deriving DecidableEq, Repr

/-- The link layer of a port (R102 to R114). -/
structure Link where
  up          : Bool := false
  lseq        : Nat := 0
  kept        : List Kept := []
  replayFrom  : Option Nat := none
  lastNak     : Option (Nat × Nat) := none
  pairBit     : Bool := false
  held        : List Int := [0, 0, 0, 8]
  outstanding : List Nat := [0, 0, 0, 0]
  partnerLimit : List Nat := [0, 0, 0, 8]
  lastFreed   : List Nat := [0, 0, 0, 0]
  sentCells   : List Nat := [0, 0, 0, 0]
  recvCells   : List Nat := [0, 0, 0, 0]
  freed       : List Nat := [0, 0, 0, 0]
  shown       : List Nat := [0, 0, 0, 0]
  expect      : Nat := 0
  ackValid    : Bool := false
  nak         : Bool := false
  partnerAck  : Nat := 0
  paramsSeq   : Nat := 1
  paramsEchoed : Bool := false
  paramsOwed   : Bool := false
  partnerParams : Nat := 0
  partnerMarkers : Bool := false
  sendMarker  : Bool := false
  sendNotice  : Nat := 0
  rxPart      : List Byte := []
  lost        : Bool := false
  lostUnits   : Nat := 0
  lastCls     : Nat := 0
  rxWhole     : List Pkt := []
  rxMarker    : Option (List Word) := none
  rxNotice    : Option (List Word) := none
  txPkts      : List TxPkt := []
  txMgmt      : List Pkt := []
  sentBlocks  : List LinkBlock := []
  strikes     : Nat := 0
  markerTick  : Option Nat := none
  markerRx    : Nat := 0
  markerMiss  : Nat := 0
  markerRun   : Nat := 0
  markerGot   : Bool := false
  delays      : List (Nat × Int) := []
  partnerSent : Option (Nat × List Nat) := none
  recvLatch   : List (Nat × List Nat) := []
  sentLatch   : List Nat := [0, 0, 0, 0]
  sentMarks   : List (Nat × Nat) := []
  auditSkip   : Bool := false
  deriving DecidableEq, Repr

/-- An entry of an egress queue or resequencer (R127): the buffer pointer it holds, the packet's cells, and whether firmware queued it as a
glean message (R144). -/
structure QEntry where
  ptr   : Nat
  cells : Nat
  glean : Bool := false
  deriving DecidableEq, Repr

/-- A shaper's settings (Table 7.5). -/
structure ShaperCfg where
  enable : Bool := false
  rate   : Nat := 0
  burst  : Nat := 0
  deriving DecidableEq, Repr

/-- An egress queue (R134 to R136) with its shaper (R191; TOKENS in units of 2^-16 byte) and its place in the deficit round robin (R197).
`nextShaper` and `nextQuantum` are committed settings that apply at the next refill (R193, R199). (DESIGN CHOICE, log 32, unsafe.) -/
structure Queue where
  maxDepth   : Nat := 2048
  ecnThresh  : Nat := 0
  ecnEnable  : Bool := false
  shaper     : ShaperCfg := {}
  nextShaper : Option ShaperCfg := none
  tokens     : Int := 0
  quantum    : Nat := 8704
  nextQuantum : Option Nat := none
  deficit    : Nat := 0
  fresh      : Bool := true
  entries    : List QEntry := []
  txPackets  : Nat := 0
  txBytes    : Nat := 0
  shaperHeld : Nat := 0
  creditHeld : Nat := 0
  deriving DecidableEq, Repr

/-- A meter's settings (Table 7.6). -/
structure MeterCfg where
  aware : Bool := false
  cir   : Nat := 0
  pir   : Nat := 0
  cbs   : Nat := 0
  pbs   : Nat := 0
  deriving DecidableEq, Repr

/-- A meter (R202, R203); Tc and Tp in units of 2^-16 byte, and whether it has been set. -/
structure Meter where
  cfg     : MeterCfg := {}
  next    : Option MeterCfg := none
  tc      : Nat := 0
  tp      : Nat := 0
  used    : Bool := false
  green   : Nat := 0
  yellow  : Nat := 0
  redDrop : Nat := 0
  redPass : Nat := 0
  deriving DecidableEq, Repr

/-- A packet held by the resequencer (R138): its entry, its SEQ and the slot start count at which it arrived. -/
structure HeldPkt where
  entry : QEntry
  seq   : Nat
  slot  : Nat
  deriving DecidableEq, Repr

/-- A flow of the resequencer (R137): its key, EXPECTED, what it holds in order of arrival, and the slot start of its last arrival. -/
structure Flow where
  key      : Nat
  expected : Nat
  held     : List HeldPkt := []
  lastSlot : Nat := 0
  deriving DecidableEq, Repr

/-- Where a port stands in a move of homes (R145, R146): none, an orderly move begun at a tick, or a move with state loss. -/
inductive Move where
  | none
  | orderly (start : Nat) (toAlt : Bool)
  | lossy (start : Nat) (toAlt : Bool)
  deriving DecidableEq, Repr

/-- The committed limits and reserve limits of a port (R133, Table 5.12). -/
structure Limits where
  credit       : List Nat
  moved        : List Nat
  reserveCredit : List Nat
  reserveMoved : List Nat
  deriving DecidableEq, Repr

/-! ### Lanes and discovery (Optical and Electrical Ports; Discovery, Coordinates and Ranks) -/

/-- The committed settings of a port's lanes (Table 14.12). -/
structure LaneCfg where
  enable    : Bool := true
  v16       : Bool := false
  sleep     : Bool := false
  minWidth  : Nat := 0
  fomTarget : Nat := 0
  preset    : Nat := 0
  idleSlots : Nat := 0
  limitUs   : Nat := 0
  timeoutMs : Nat := 0
  retryMs   : Nat := 0
  deriving DecidableEq, Repr

/-- A receive channel: frame lock, figure of merit, adaptation and signal (R408 to R410, R415, Table 14.15). `knob` counts the steps of the
adaptation loop, two for each knob of R410. -/
structure RxChan where
  frames    : Nat := 0
  fom       : Nat := 0
  good      : Nat := 0
  ready     : Bool := false
  los       : Bool := false
  corrected : Nat := 0
  best      : Nat := 0
  knob      : Nat := 0
  improved  : Bool := false
  settings  : List Int := [0, 0, 0, 0, 0, 0, 0, 0, 0, 0, 0]
  lowTicks  : Nat := 0
  lowTold   : Bool := false
  partnerReady : Bool := false
  ack       : Nat := 0
  deriving DecidableEq, Repr

/-- The lanes of a port (Tables 14.5, 14.13, 14.15). Channel maps name for each channel a logical lane 0 to 3, 6 SPARE or 7 OFF. -/
structure Lanes where
  state     : Nat := 0
  cfg       : LaneCfg := {}
  next      : Option LaneCfg := none
  electrical : Bool := false
  rxMap     : List Nat := [0, 1, 2, 3, 6]
  txMap     : List Nat := [0, 1, 2, 3, 6]
  fenced    : List Nat := []
  chans     : Tbl RxChan := []
  nonce     : Nat := 0
  allReady  : Bool := false
  partnerAll : Bool := false
  txData    : Bool := false
  rxData    : Bool := false
  heardBlock : Bool := false
  fast      : Bool := false
  looped    : Bool := false
  txAsleep  : Bool := false
  rxAsleep  : Bool := false
  sleepHeard : Bool := false
  idleCount : Nat := 0
  loopMode  : Nat := 0
  loopData  : Bool := false
  stopTick  : Option Nat := none
  txTap     : Nat := 0
  txStep    : Nat := 0
  counters  : Tbl Nat := []
  deriving DecidableEq, Repr

/-- The glean state of a port (Tables 15.2 and 15.11). -/
structure Glean where
  state     : Nat := 0
  cause     : Nat := 0
  other     : Nat := 0
  missing   : Bool := false
  last      : Option (List Word) := none
  twoWay    : Bool := false
  lastTick  : Nat := 0
  messages  : Nat := 0
  seqOut    : Nat := 0
  heardTick : Nat := 0
  silent    : Nat := 0
  hold      : Nat := 0
  since     : Nat := 0
  sentTick  : Nat := 0
  sendNow   : Bool := false
  deriving DecidableEq, Repr

/-- A port (Table 0.1, R20 to R23): its link layer, its committed settings, its queues, meters and flows, its counters (Table 5.16), where
it is served, whether a committed change of HOME_ALTERNATE has still to move it, whether it is in the window of a move (R132), and its lanes and glean state. -/
structure Port where
  link       : Link := {}
  limits     : Limits
  reseq      : Bool := false
  homeAlt    : Bool := false
  reHome     : Bool := false
  atAlt      : Bool := false
  move       : Move := .none
  window     : Bool := false
  movedWait  : List MeshPkt := []
  withhold   : Bool := false
  absent     : Bool := false
  jobQueue   : Tbl Nat := []
  overhead   : Int := 0
  nextOverhead : Option Int := none
  classQuantum : Nat × Nat := (16384, 16384)
  nextClassQuantum : Option (Nat × Nat) := none
  classDeficit : Nat × Nat := (0, 0)
  classFresh : Bool × Bool := (true, true)
  classPtr   : Nat := 0
  rrPtr      : Tbl Nat := []
  bgPtr      : Tbl Nat := []
  queues     : Tbl Queue := []
  meters     : Tbl Meter := []
  meterMap   : Tbl Nat := []
  nextMeterMap : Option (Tbl Nat) := none
  admitted   : Tbl Bool := []
  counters   : Tbl Nat := []
  flows      : List Flow := []
  lanes      : Lanes
  glean      : Glean := {}
  deriving DecidableEq, Repr

/-! ### The buffer pool and the package mesh (Port Datapath and Buffers; The Package Mesh) -/

/-- A buffer of a cell store with its descriptor (Table 5.6): the packet it holds, STATE (1 ALLOCATED, 2 CULLET), REFCOUNT, LAST_OWNER, whether
it is drawn from the ingress reserve, and what the port engine keeps of the packet: its epoch, its ingress port and whether its injection has
begun. -/
structure Buf where
  pkt     : Pkt
  cls     : Nat
  state   : Nat := 1
  refs    : Nat := 1
  owner   : Nat
  reserve : Bool := false
  epoch   : Nat := 0
  ingress : Nat := 511
  begun   : Bool := false
  relay   : Option (Nat × Nat) := none
  staged  : Option (Nat × Nat × Nat × Bool) := none
  deriving DecidableEq, Repr

/-- A mesh-injection entry (R127): the buffer it names and the mesh packets of one injection still to be made, in order; for a LINE_LEG the
row and class of the relay credit it needs or has spent (R168). A relay or function packet that holds no buffer names none. -/
structure InjEntry where
  ptr    : Option Nat
  parts  : List MeshPkt
  needs  : Option (Nat × Nat) := none
  deriving DecidableEq, Repr

/-- The parts of a packet an egress complex has received so far (R159), the ports it is kept for and its buffer. -/
structure Assembly where
  src   : Nat
  mp    : MeshPkt
  have0 : Bool := false
  have1 : Bool := false
  ports : BitVec 264
  ptr   : Option Nat
  deriving DecidableEq, Repr

/-- A packet that a home, a program or a memory node sends (R271, R298, R332, R387): what goes, the ports or the function address it is for, and whether it
is a multicast in LINE mode; `staged` as in a buffer. It waits here while no shared buffer fits. (DESIGN CHOICE, log 79, safe.) -/
structure OwnSend where
  base  : MeshPkt
  ports : BitVec 264 := 0
  addr  : Option (Nat × Nat) := none
  multi : Bool := false
  line  : Bool := false
  staged : Option (Nat × Nat × Nat × Bool) := none
  deriving DecidableEq, Repr

/-- A contribution held at its home (R220, R263, R279, R303): the packet, its buffer in the shared part, or the ring axis and half of its staging
buffer. -/
structure HeldC where
  mp   : MeshPkt
  ptr  : Option Nat := none
  half : Option (Nat × Bool) := none
  deriving DecidableEq, Repr

/-- The attachment states of R174. -/
inductive Attach where
  | serving | computeFenced | detached
  deriving DecidableEq, Repr

/-- A complex or tiller: attachment, pool, work lists and counters (Table 1.3, R123 to R130, R168, R174). `freeCount` is FREE of each buffer class (R87). -/
structure Complex where
  attach     : Attach := .serving
  preset     : Nat := 1
  share      : Nat := 11
  drainTo    : Option Nat := none
  bufs       : Tbl Buf := []
  freeCount  : List Nat := [9216, 1536, 576, 384, 600]
  cullet     : List Nat := []
  culletOver : Nat := 0
  promotions : Nat := 0
  inject     : List InjEntry := []
  handoff    : List (Nat × BitVec 264) := []
  arrivals   : List MeshPkt := []
  assembling : List Assembly := []
  work       : List MeshPkt := []
  relayIn    : List MeshPkt := []
  creditsIn  : List MeshPkt := []
  relayCredits : List (Nat × Nat) := []
  pointers   : Tbl Nat := []
  cycles     : Tbl Nat := []
  overrunRun : Nat := 0
  overrunGroup : Nat := 0
  overrunTold : Bool := false
  tillerOf   : Option Nat := none
  held       : List HeldC := []
  granules   : Nat × Nat := (768, 0)
  outbox     : List OwnSend := []
  deriving DecidableEq, Repr

/-- A VC buffer in use (R155): the mesh packet as it is still to be routed, the flits received, the copies of it whose tails have not left, whether a copy has begun to
leave, and whether no hop is left to begin. -/
structure VcBuf where
  mp   : MeshPkt
  got  : Nat := 1
  busy : Nat := 0
  sent : Bool := false
  done : Bool := false
  deriving DecidableEq, Repr

/-- A flit on a mesh link (R154): FSEQ, VC, its place in its mesh packet. -/
structure Flit where
  fseq : Nat
  vc   : Nat
  idx  : Nat
  mp   : MeshPkt
  deriving DecidableEq, Repr

/-- A copy that a router's output sends (R155): the mesh packet, its VC at the next router, the sending router's VC buffer and the flits sent. -/
structure Transfer where
  mp   : MeshPkt
  vc   : Nat
  src  : Nat
  sent : Nat := 0
  deriving DecidableEq, Repr

/-- The link into a router's input (R154 to R156, R180): copies that the sending output has begun, in order; the flits under way, on a seam link in its crossing FIFO too; the
last 32 sent; the next FSEQ to send and to receive; NAK_FSEQ while a resend is awaited and the resends so far of that flit; and the sender's CREDITS_HELD by VC. -/
structure MeshIn where
  transfers : List Transfer := []
  wire      : List Flit := []
  kept      : List Flit := []
  seq       : Nat := 0
  expect    : Nat := 0
  nak       : Option Nat := none
  resent    : Nat := 0
  credits   : Tbl Nat := []
  deriving DecidableEq, Repr

/-- A router (R154 to R159, R186): its VC buffers keyed 8·input + VC (input 0 east, 1 west, 2 north, 3 south, 4 complex, 5 tiller or
node), the links into it, its counters, the order in which its buffers were taken, and the round robin of each output. -/
structure Router where
  vcs      : Tbl VcBuf := []
  inputs   : Tbl MeshIn := []
  counters : Tbl Nat := []
  faulty   : Bool := false
  order    : List Nat := []
  rr       : Tbl Nat := []
  deriving DecidableEq, Repr

/-- A next-hop set (R122). -/
structure NextHop where
  members : List Nat := []
  seed    : Nat := 0
  deriving DecidableEq, Repr

/-- A sheaf (R141). -/
structure Sheaf where
  job   : Nat := 0
  line  : Bool := false
  ports : BitVec 264 := 0
  deriving DecidableEq, Repr

/-- The routing epochs, the regime and the fences of the mesh (R160 to R179). Keys of the epoch tables are epoch·4096 + entry. `copying` names the epoch
that firmware's own copy has filled (R178), `flipAt` the earliest tick of the flip that waits, `drains` the drain counters of both epochs as latched (R172), `unmapped` the addresses without a
home, `returning` those whose readmitted homes return at the next flip (R476), `rejoining` the routers that leave FENCED_ROUTERS at the next E3 (R179). -/
structure Mesh where
  routers    : Tbl Router := []
  amap       : Tbl (Nat × Nat) := []
  fwd        : Tbl (Nat × Nat) := []
  nexthop    : Tbl NextHop := []
  sheaves    : Tbl Sheaf := []
  injEpoch   : Nat := 0
  flipNext   : Option Nat := none
  flipAt     : Nat := 0
  reasons    : BitVec 7 := 1
  regimeBubble : Bool := true
  flipTick   : Nat := 0
  slowTicks  : Nat := 64
  slowTold   : Bool := false
  drains     : Nat × Nat := (0, 0)
  drainDone  : Nat := 0
  fenced     : List Nat := []
  joinFenced : List (Nat × Bool) := []
  discarding : List Nat := []
  separation : List (Nat × Nat) := []
  unmapped   : List Nat := []
  returning  : List Nat := []
  rejoining  : List Nat := []
  copying    : List Nat := []
  winnow     : BitVec 264 := BitVec.allOnes 264
  nodes      : Tbl (List MeshPkt) := []
  nodeOut    : Tbl (List MeshPkt) := []
  deriving DecidableEq, Repr

/-- A job's region of the rank table (R446): its span and its entries (Table 15.5). -/
structure RankRegion where
  span    : Nat
  entries : Tbl Nat := []
  deriving DecidableEq, Repr

/-- Coordinates, neighbour plan and ranks (R433, R435, R443, R446). Plan entries are eight words each (Table 15.1). -/
structure Disc where
  fabric       : Nat := 0
  plane        : Nat := 0
  tier         : Nat := 0
  position     : Nat := 0
  switchNo     : Nat := 0
  serial       : Nat := 0
  minUplink    : Nat := 0
  missingTicks : Nat := 256
  rejoinHold   : Nat := 0
  plan         : Tbl (List Word) := []
  planTick     : Nat := 0
  degraded     : Bool := false
  livePermille : Nat := 0
  ranks        : Tbl RankRegion := []
  deriving DecidableEq, Repr

/-- The lasers (R420 to R423): modules driven on, inputs LIVE, the PEs in launch class HIGH, and the modules whose LSRC_EN_N is released at slot 1 (Table 14.7). -/
structure Lasers where
  enabled : List Nat := []
  live    : List Nat := []
  high    : List Nat := []
  releasing : List Nat := []
  deriving DecidableEq, Repr

/-! ### Fault collection -/

/-- The collector's states (R456). -/
inductive CState where
  | normal | fault | safe
  deriving DecidableEq, Repr

/-- The collector's record of a source (Table 16.9, R461, R465, R477). -/
structure SourceSt where
  count     : Nat := 0
  unswept   : Nat := 0
  shadow    : Nat := 0
  worst     : Nat := 0
  errn      : Nat := 0
  eventC0   : Bool := false
  lastTick  : Nat := 0
  force     : Option (Nat × Nat × Bool) := none
  mWorst    : Nat := 0
  mLast     : Nat := 0
  tickOcc   : Nat := 0
  tickClass : Nat := 0
  tickUnit  : Nat := 0
  tickData  : List Word := []
  c0Occ     : Nat := 0
  c0Unit    : Nat := 0
  c0Forced  : Bool := false
  c0Action  : Nat := 0
  c0Tick    : Nat := 0
  c0Slot    : Nat := 0
  deriving DecidableEq, Repr

/-- What the next sweep writes for a source and a tick that has ended (R462): the FAULT_RAISED event and the merged C0 log entry. -/
structure Post where
  source : Nat
  cls    : Nat
  unit   : Nat
  occ    : Nat
  c0Occ  : Nat
  c0Unit : Nat
  forced : Bool
  action : Nat
  tick   : Nat
  slot   : Nat
  data   : List Word
  deriving DecidableEq, Repr

/-- A built-in test (R476): the unit, the channel that asked, and whether it has passed. -/
structure BuiltinTest where
  unit   : Nat
  ch     : Nat
  passed : Bool := false
  deriving DecidableEq, Repr

/-- A fault log entry (Table 16.10). -/
structure LogEntry where
  source  : Nat
  cls     : Nat
  forced  : Bool := false
  notify  : Bool := false
  unit    : Nat := 0
  tick    : Nat := 0
  slot    : Nat := 0
  action  : Nat := 0
  occ     : Nat := 1
  count   : Nat := 0
  data    : List Word := []
  deriving DecidableEq, Repr

/-- The fault collector and what firmware keeps for it (Tables 16.5 to 16.10, R458 to R476). `recorded` is the fences that the flash history holds. -/
structure Faults where
  state       : CState := .normal
  errnLow     : Bool := false
  pulsing     : Bool := false
  rewriteDone : Bool := false
  rewriteFails : Nat := 0
  missing     : List Nat := []
  recoveries  : Nat := 0
  classCount  : List Nat := [0, 0, 0, 0]
  classNew    : List Nat := [0, 0, 0, 0]
  lastSource  : Nat := 0
  lastClass   : Nat := 0
  lastUnit    : Nat := 0
  lastTick    : Nat := 0
  safeCause   : Nat := 0
  causes      : List Nat := []
  safeTick    : Nat := 0
  quietMs     : Nat := 100
  pulseUs     : Nat := 2
  errnHold    : Nat := 2
  errnOnC1    : Bool := false
  quietStart  : Nat := 0
  quietDone   : Bool := false
  sources     : Tbl SourceSt := []
  logTotal    : Nat := 0
  log         : List LogEntry := []
  history     : List LogEntry := []
  histTotal   : Nat := 0
  posts       : List Post := []
  sweepTick   : Nat := 0
  strikes     : Tbl Nat := []
  fenced      : List Nat := []
  recorded    : List Nat := []
  exhausted   : List (Nat × Nat) := []
  tests       : List BuiltinTest := []
  strikeBase  : Tbl Nat := []
  mpFenced    : List Bool := [false, false]
  mpLost      : Bool := false
  mpLostTick  : Nat := 0
  railsOut    : List Nat := []
  deriving DecidableEq, Repr
/-! ### Groups and rings (Tensor Arithmetic; Group Reduction in One Switch; Collectives Across Switches) -/

/-- A chunk's counters; the locator is the element index and rank of the first invalid occurrence (R239, R240). -/
structure Counters where
  sat     : Nat := 0
  flush   : Nat := 0
  invalid : Nat := 0
  loc     : Option (Nat × Nat) := none
  deriving DecidableEq, Repr

/-- The arithmetic parameters of a group (Table 8.3). -/
structure ArithCfg where
  input    : Nat := 0
  output   : Nat := 0
  op       : Nat := 0
  mode     : Nat := 0
  sr       : Bool := false
  flushOut : Bool := false
  seed     : Nat := 0
  prescale : Nat := 0x3F800000
  deriving DecidableEq, Repr

/-- A member table entry (R248). -/
structure Member where
  rank    : Nat
  part    : Bool := false
  contrib : Bool := false
  owner   : Bool := false
  weight  : Nat := 0
  deriving DecidableEq, Repr

/-- What GROUP_CREATE fixes (Table 9.7), with the request as committed (R398). -/
structure GroupCfg where
  image    : List Word
  job      : Nat
  gather   : Bool
  prio     : Nat
  spill    : Bool
  echoKeep : Bool
  patience : Nat
  depth    : Nat
  arith    : ArithCfg
  size     : Nat
  chunks   : Nat
  shard    : Nat
  perTick  : Nat
  hold     : Nat
  sheaf    : Nat
  homeMask : Nat
  members  : List Member
  deriving DecidableEq, Repr

/-- An axis of a ring plan (Table 10.7). -/
structure Axis where
  ring     : Bool
  length   : Nat
  pos      : Nat
  up       : Nat
  down     : Nat
  downGrp  : Nat
  deriving DecidableEq, Repr

/-- A ring plan (R291 to R295), with the request as committed. -/
structure RingPlan where
  image  : List Word
  id     : Nat
  slack  : Nat
  anchor : Nat
  owners : Nat
  axes   : List Axis
  deriving DecidableEq, Repr

/-- The group states of Table 9.1. -/
inductive GState where
  | idle | active | suspended | draining | closed
  deriving DecidableEq, Repr

/-- An open chunk (R257, R258, R265): the address of its home and the complex or tiller that holds its slot, its patience, whether the patience
stands still while the slot moves (R279), whether a contribution opened it, whether it restarted (R280) and whether its slot is lost and its home not
yet served again, the member entries counted and marked LOST, its accumulator elements and in ORDERED mode
the partial of the lowest run not yet added with the smallest rank folded into it, a CUSTOM slot's bytes, the number of that run and the later runs kept in
C4 buffers (R220): run, words, pointers, smallest rank; its counters, the trailers of the partials it counted by axis, whether it waits for its program to finish it, and whether it finishes without a home (R281). (DESIGN CHOICE, log 80, unsafe.) -/
structure Chunk where
  addr      : Nat
  cx        : Nat
  patience  : Nat
  frozen    : Bool := false
  opened    : Bool := true
  restarted : Bool := false
  slotLost  : Bool := false
  counted   : List Nat := []
  lost      : List Nat := []
  accs      : List Nat := []
  part      : List Nat := []
  partRank  : Nat := 65536
  slot      : List Byte := []
  run       : Nat := 0
  kept      : List (Nat × List Nat × List Nat × Nat) := []
  ctr       : Counters := {}
  partials  : Tbl (List Word) := []
  ending    : Bool := false
  short     : Bool := false
  homeless  : Bool := false
  deriving DecidableEq, Repr

/-- A generation in flight (R249, R254): its number, contributor list (member table entries), home list, the stack of each complex's spilled part
(R260), its open chunks and the numbers of its finished ones, the entries marked LOST, what its record will hold (R274), the idle count of R268, whether
unopened chunks wait to open with a patience (R268, R283), the attachments it was admitted with (R337), and the contained faults that have touched it
(R460). -/
structure Gen where
  no        : Nat
  list      : List Nat
  homes     : List Nat
  spilled   : Tbl Nat := []
  open_     : Tbl Chunk := []
  done      : List Nat := []
  lost      : List Nat := []
  short     : Nat := 0
  restarts  : Nat := 0
  status    : Nat := 0
  ctr       : Counters := {}
  locChunk  : Nat := 0
  received  : Nat := 0
  latched   : Nat := 0
  idle      : Nat := 0
  openWith  : Option Nat := none
  touched   : Nat := 0
  reduce    : Option Nat := none
  ring      : Option Nat := none
  deriving DecidableEq, Repr

/-- A ring axis's counters (Table 10.8). -/
structure AxisCount where
  heard : Nat := 0
  got   : Nat := 0
  sent  : Nat := 0
  halfB : Nat := 0
  deriving DecidableEq, Repr

/-- An early contribution held at an ingress complex (R262): the complex, its buffer there, the unit that holds it, and whether it has left the ingress reserve. -/
structure Early where
  cx     : Nat
  ptr    : Nat
  unit   : Nat
  shared : Bool
  deriving DecidableEq, Repr

/-- Storage of a group whose wipe has not ended (R284): an address, granules and slot descriptors, and the stack of spilled granules. -/
structure Wipe where
  addr     : Nat
  granules : Nat
  descs    : Nat
  stack    : Option Nat := none
  deriving DecidableEq, Repr

/-- A group context (R245 to R290). `armed` is the count of armed generations, none for no limit; `admitted` the number of the next generation
to admit, `current` the oldest one not finished; `ports` the port of each RANK entry as of the last E4. `removed` and `tear` hold the entries a committed
membership mask and teardown until their step of the edge; `suspendNext` a suspension or resumption until E5; `wasIdle` tells that a SUSPENDED context was IDLE
before; `last` the last generation finished, for the checks of a contribution that comes after it (R264); `reserved` the granules reserved at each address (R258); `stop` the tick and cause
of a program's stop (R341). -/
structure Group where
  cfg       : GroupCfg
  state     : GState := .idle
  mask      : List Bool
  ports     : Tbl Nat := []
  armed     : Option Nat := some 0
  admitted  : Nat := 0
  current   : Nat := 0
  gens      : List Gen := []
  wait      : Nat := 0
  told      : Bool := false
  counters  : Tbl Nat := []
  records   : List (Nat × List Word) := []
  preempt   : Bool := false
  wasIdle   : Bool := false
  suspendNext : Option (Option Bool) := none
  tear      : Option Bool := none
  removed   : List Nat := []
  clearNow  : List Nat := []
  grown     : Bool := false
  rollback  : Bool := false
  last      : Option Gen := none
  reserved  : Tbl Nat := []
  early     : List Early := []
  wipes     : List Wipe := []
  echoWipe  : Bool := false
  wiped     : Option Nat := none
  plan      : Option RingPlan := none
  axes      : Tbl AxisCount := []
  ringLost  : Bool := false
  mismatch  : Nat := 0
  heldOut   : Nat := 0
  stop      : Option (Nat × Nat) := none
  seq       : Nat := 0
  deriving DecidableEq, Repr
/-! ### Combine programs and threads (Combine Cores and Programs; Combine Instruction Set Reference) -/

/-- A loaded image (Table 11.7): where its code lies, its code words and parameter bytes, and its header fields. `entries` are the hooks' entry
words, 0xFFFF for a hook it does not give. -/
structure Image where
  base      : Nat
  code      : List Word
  params    : List Byte
  progId    : Nat
  entries   : List Nat
  reduce    : Bool
  ring      : Bool
  gang      : Bool
  maxThreads : Nat
  stateBytes : Nat
  slotWidth : Nat
  contribFixed : Nat
  contribPer : Nat
  chunkFixed : Nat
  chunkPer  : Nat
  tickCycles : Nat
  ringCycles : Nat
  stateFormat : Nat
  deriving DecidableEq, Repr

/-- A hook event that waits for its invocation (R321, R323): the hook, the generation, the chunk, the contributor-list entry and the rank it names, the
contribution's buffer at the complex, or a partial in its staging buffer, REPEATED, its place in the order in which events were raised, and the tick and slot of that. -/
structure HookEvent where
  hook   : Nat
  gen    : Nat
  chunk  : Nat := 0
  entry  : Nat := 0
  rank   : Nat := 0
  part   : Bool := false
  ptr    : Option Nat := none
  held   : Option HeldC := none
  repeated : Bool := false
  seq    : Nat := 0
  raised : Nat × Nat := (0, 0)
  deriving DecidableEq, Repr

/-- An attachment (R336 to R340): the group, the role, the image it joined, its parameters, its state windows by complex and the staging slice each lies in (R329), its event queues and receive
queues by complex, whether new generations still take it, and the attachment whose windows it waits for. -/
structure Att where
  grp      : Nat
  ring     : Bool
  handle   : Nat
  image    : Image
  params   : List Byte
  windows  : Tbl (List Byte) := []
  places   : Tbl Nat := []
  events   : Tbl (List HookEvent) := []
  msgs     : Tbl (List (Nat × Nat × List Byte)) := []
  live     : Bool := true
  keepFrom : Option Nat := none
  deriving DecidableEq, Repr

/-- An invocation (R321 to R325): its attachment, complex, event and start tick, COUNTED and E at entry, the contribution's payload, the RESULT buffer's
bytes and pointer, its threads, those that have not exited, and whether member 0 exited without a result. -/
structure Inv where
  att      : Nat
  cx       : Nat
  ev       : HookEvent
  start    : Nat
  counted  : Nat
  contrib  : List Byte
  result   : List Byte
  resPtr   : Option Nat
  threads  : List Nat
  running  : List Nat
  noResult : Bool := false
  deriving DecidableEq, Repr

/-- What a window register covers (Table 11.5, R328): its kind, rights and length, the kind of the memory under it, and the offset there. -/
structure Win where
  kind   : Nat := 0
  rd     : Bool := false
  wr     : Bool := false
  len    : Nat := 0
  under  : Nat := 0
  off    : Nat := 0
  deriving DecidableEq, Repr

/-- The states of a thread in an invocation (R347); a thread that is not listed is IDLE. `waitTick` remembers whether its E7 has come. -/
inductive TState where
  | running | waitMsg | waitTick (come : Bool) | stopped
  deriving DecidableEq, Repr

/-- A hardware thread (Table 12.1): its invocation and gang index, registers, windows, IDX, BUSY and the message bound to w5 with its buffer. -/
structure Thread where
  inv   : Nat
  gang  : Nat
  state : TState := .running
  pc    : Nat := 0
  s     : List Dword := List.replicate 32 0
  v     : List (BitVec 512) := List.replicate 16 0
  p     : List Dword := List.replicate 8 0
  w     : List Win := List.replicate 8 {}
  idx   : Nat := 0
  busy  : Nat := 0
  bound : Option (Nat × List Byte) := none
  deriving DecidableEq, Repr

/-- A trap record (Table 11.12). -/
structure Trap where
  grp    : Nat
  ring   : Bool
  cause  : Nat
  hook   : Nat
  thread : Nat
  pc     : Nat
  progId : Nat
  gen    : Nat
  chunk  : Nat
  win    : Nat := 0
  off    : Nat := 0
  tick   : Nat
  deriving DecidableEq, Repr

/-- Images by handle, the pieces of an image that arrives over MCTP, attachments and invocations by serial number, threads by number
(16·(9·complex + core) + thread), the trap records and the package counters of Table 11.12. `turns` is each complex's round robin over attachments. -/
structure Progs where
  images   : Tbl Image := []
  pieces   : Tbl (List Byte) := []
  atts     : Tbl Att := []
  invs     : Tbl Inv := []
  threads  : Tbl Thread := []
  turns    : Tbl Nat := []
  serial   : Nat := 0
  traps    : List Trap := []
  trapCount : Nat := 0
  tickSkipped : Nat := 0
  discarded : Nat := 0
  sendDrops : Nat := 0
  deriving DecidableEq, Repr
/-! ### Fabric memory (Fabric Memory: Spill, Echo Cache and Snapshots) -/

/-- The regions of a stack in GiB (R382), and the wipes of its storage that have not ended, in bytes, by region: 0 echo, 1 snapshot (R400). -/
structure Stack where
  spill  : Nat := 0
  echo   : Nat := 0
  snap   : Nat := 0
  wiping : List (Nat × Nat) := []
  spare  : Option Nat := none
  copying : Option Nat := none
  hot    : Bool := false
  granules : Nat × Nat := (0, 0)
  deriving DecidableEq, Repr

/-- An echo entry (R384, R385): generation, chunk, the stored RESULT. -/
structure EchoEntry where
  gen   : Nat
  chunk : Nat
  pkt   : Pkt
  deriving DecidableEq, Repr

/-- A group's echo region (R384): its stack and size, its entries from the oldest on, and the chunks served with their ticks (R387). -/
structure EchoRegion where
  stack   : Nat
  mib     : Nat
  entries : List EchoEntry := []
  served  : List (Nat × Nat) := []
  deriving DecidableEq, Repr

/-- The states of a snapshot part (Table 13.2). -/
inductive PState where
  | opened | sealing | sealed | damaged | incomplete | deleting
  deriving DecidableEq, Repr

/-- What a part's seal or verify in progress answers to (R394 to R396): the channel, the commit tick, the bytes awaited and the deadline of a
buddy's seal. -/
structure Closing where
  ch       : Option Nat
  tick     : Nat
  expected : Nat := 0
  deadline : Nat := 0
  verify   : Bool := false
  deriving DecidableEq, Repr

/-- A snapshot part (R389 to R399): ranks with their SHARD_BYTES, the bytes of its shards keyed 2^38·(rank entry) + offset and of its record
area, both reading zero where not listed, its record's length, its byte counts, its failed chunks, those whose digest has been checked since its seal and those that hold a
lost word (R380), as (rank entry, chunk), and the group records that E1 has latched for its seal. (DESIGN CHOICE, log 103, unsafe.) -/
structure Part where
  buddy    : Bool
  stack    : Nat
  job      : Nat
  snapshot : Nat
  ranks    : List (Nat × Nat)
  state    : PState := .opened
  mirror   : Option Nat := none
  shards   : List Host.Cell := []
  record   : List Host.Cell := []
  recBytes : Nat := 0
  received : Nat := 0
  mirrored : Nat := 0
  reserved : Nat
  failed   : List (Nat × Nat) := []
  checked  : List (Nat × Nat) := []
  allFailed : Bool := false
  lost     : List (Nat × Nat) := []
  groups   : List (List Byte) := []
  closing  : Option Closing := none
  deriving DecidableEq, Repr

/-- The memory system: the two stacks, echo regions by group, parts by handle, buddy settings by job (R392) and the counters of Table 13.13. -/
structure Mem where
  hbms     : Tbl Stack := []
  echo     : Tbl EchoRegion := []
  parts    : Tbl Part := []
  buddies  : Tbl Nat := []
  counters : Tbl Nat := []
  deriving DecidableEq, Repr
/-! ### Recovery (Recovery and Availability) -/

/-- A job's policy and rollback (Tables 17.9 and 17.11). `running` is T, FLUSH_TICKS and the groups that the rollback restores; `again` those that
came to need another one meanwhile (Table 17.5). -/
structure JobSt where
  suspend   : Bool := false
  maxDrop   : Nat := 0
  needed    : Bool := false
  suspendNow : Bool := false
  running   : Option (Nat × Nat × List Nat) := none
  flipping  : Bool := false
  again     : List Nat := []
  lastTick  : Nat := 0
  doneTick  : Nat := 0
  snapshot  : Nat := 0
  restored  : Nat := 0
  created   : Nat := 0
  removed   : Nat := 0
  stale     : Nat := 0
  deriving DecidableEq, Repr

/-! ### Power, resets and lehr (Power, Reset and Lehr) -/

/-- The phases of lehr (R517 to R520): awake, entering from slot 120 of the tick before T, asleep since a tick, waking from tick X. -/
inductive LehrPhase where
  | awake
  | asleep (since : Nat)
  | waking (since : Nat)
  deriving DecidableEq, Repr

/-- Lehr: its phase, its wake conditions, whether LEHR_ENTERED is still to be raised, the ports that were UP at entry, those whose signal detect has
fired, what woke it (1 command, 2 tick, 3 signal with its port), and whether credits are withheld before entry. -/
structure Lehr where
  phase    : LehrPhase := .awake
  onSignal : Bool := false
  onTick   : Bool := false
  wakeTick : Nat := 0
  told     : Bool := true
  ports    : List Nat := []
  signals  : List Nat := []
  cause    : Nat := 0
  withhold : Bool := false
  signalled : Option Nat := none
  deriving DecidableEq, Repr

/-- A partial reset under way (R508, R509): kind, index, FORCE, whether E4 of its tick has come, whether its units have been reset, and its outcome: 0 not
yet known, 1 passed, 2 failed, 3 passed and the units returned. -/
structure PartReset where
  kind  : Nat
  index : Nat
  force : Bool
  begun : Bool := false
  applied : Bool := false
  outcome : Nat := 0
  deriving DecidableEq, Repr

/-- Clock levels and the levels last set by command, the limits, the sixteenths withheld in each half, whether the limiter acts in this tick, the ticks in a row
with and without throttling, telemetry latched at E1 (Table 18.10), energy in units of 0.1 W × 6.25 µs, and the resets and lehr. -/
structure Power where
  levels    : List Nat := [0, 0]
  setLevels : List Nat := [0, 0]
  limit     : Nat := 1150
  throttleC : Nat := 105
  autoClock : Bool := true
  throttle  : List Nat := [0, 0]
  window    : List Nat := []
  hotDies   : List Nat := []
  acted     : Bool := false
  throttledRun : Nat := 0
  clearRun  : Nat := 0
  persistTold : Bool := false
  clockNext : List (Nat × Nat × Bool) := []
  throttleTicks : Nat := 0
  sums      : List Nat := []
  temps     : List Int := []
  latchTick : Nat := 0
  latchPower : List Nat := []
  latchTemps : List Int := []
  latchThrottle : List Nat := [0, 0]
  latchLevels : List Nat := [0, 0]
  latchLehr : Bool := false
  samples   : Nat := 0
  energy    : Nat := 0
  resets    : List PartReset := []
  warmSince : Option Nat := none
  warmCh    : Option Nat := none
  warmNext  : Option Nat := none
  lcReset   : Bool := false
  lehr      : Lehr := {}
  deriving DecidableEq, Repr

/-! ### Pins (Pins, Electrical Data and Package) -/

/-- The instructions of the test access port (R532). -/
inductive Jtag where
  | bypass | idcode | samplePreload | extest | clamp | highz
  deriving DecidableEq, Repr

/-- The sideband: SYS_RST_N, the straps as sampled (R531), THERMTRIP_N, the domains held in reset by a trip, the test access port's instruction, its boundary
register, what it last shifted out, and the board's drive. (PRESUMED, log 110, unsafe.) -/
structure Pins where
  resetLow   : Bool := true
  straps     : Nat := 0
  tripLow    : Bool := false
  held       : Bool := false
  instr      : Jtag := .idcode
  boundary   : List Bool := []
  tdo        : Nat := 0
  driven     : Option (List Bool) := none
  floating   : Bool := false
  deriving DecidableEq, Repr

/-- What E1 latches for the ledger (R81, R87): the tick, and the units whose counts the audit reads. -/
structure Latch where
  tick    : Nat := 0
  ports   : Tbl Port := []
  cxs     : Tbl Complex := []
  routers : Tbl Router := []
  groups  : Tbl Group := []
  hbms    : Tbl Stack := []
  progs   : Progs := {}
  asleep  : Bool := false
  deriving DecidableEq, Repr

/-- All of the part but its fuses. `fresh` is the model's own counter of open values met so far. -/
structure Hw where
  ctl    : Ctl := {}
  time   : TimeSt := {}
  ports  : Tbl Port := []
  cxs    : Tbl Complex := []
  mesh   : Mesh := {}
  faults : Faults := {}
  disc   : Disc := {}
  lasers : Lasers := {}
  groups : Tbl Group := []
  progs  : Progs := {}
  mem    : Mem := {}
  jobs   : Tbl JobSt := []
  power  : Power := {}
  pins   : Pins := {}
  latch  : Latch := {}
  records : Tbl (List (Nat × List Word)) := []
  fresh  : Nat := 0
  deriving DecidableEq, Repr

/-- The state of the block: the commands that wait, first in first out, the fuses, and the rest. (DESIGN CHOICE, log 106, safe.) -/
structure State where
  pending : List Instr := []
  fuses   : Fuses := {}
  hw      : Hw := {}
  deriving DecidableEq, Repr

/-- The block right after a cold reset (R43 and the reset columns of the register tables). (DESIGN CHOICE, log 8, unsafe.) -/
def State.reset : State := {}

end Sys2Proof.Machine
end

