-- ==== Sys2Proof/Machine/Ops.lean ====
section
/-!
DEFINITION. The named operations over tables, memory, packets, ports and counters that every meaning is written with.
-/

namespace Sys2Proof

/-! ### Sparse tables -/

/-- The entry at a key, if one is listed. -/
def tget? {α : Type} : Tbl α → Nat → Option α
  | [], _ => none
  | (k, v) :: t, a => if k = a then some v else tget? t a

/-- The entry at a key, or what an absent key reads as. -/
def tget {α : Type} (d : α) (t : Tbl α) (a : Nat) : α := (tget? t a).getD d

/-- The table with an entry put at a key, keys kept rising. -/
def tput {α : Type} : Tbl α → Nat → α → Tbl α
  | [], a, x => [(a, x)]
  | (k, v) :: t, a, x => if a < k then (a, x) :: (k, v) :: t else if a = k then (a, x) :: t else (k, v) :: tput t a x

/-- The table without the entry at a key. -/
def tdel {α : Type} (t : Tbl α) (a : Nat) : Tbl α := t.filter (fun e => e.1 ≠ a)

/-- The table with the entry at a key changed. -/
def tmod {α : Type} (d : α) (t : Tbl α) (a : Nat) (f : α → α) : Tbl α := tput t a (f (tget d t a))

/-- Element `i` of a list of numbers, zero beyond its end. -/
def nth (l : List Nat) (i : Nat) : Nat := l.getD i 0

/-- Word `i` of a list of words as a number, zero beyond its end. -/
def wnat (l : List Word) (i : Nat) : Nat := (l.getD i 0).toNat

/-- The bits `[hi:lo]` of word `i` of a list of words. -/
def fld (l : List Word) (i hi lo : Nat) : Nat := bits (wnat l i) hi lo

/-- A list of numbers with element `i` changed. -/
def lmod {α : Type} (d : α) (l : List α) (i : Nat) (f : α → α) : List α := l.set i (f (l.getD i d))

/-- The numbers of `[0, n)` that satisfy a test. -/
def natsWhere (n : Nat) (p : Nat → Bool) : List Nat := (List.range n).filter p

/-- A count that saturates at 2^32 − 1 (R151). -/
def sat32 (n : Nat) : Nat := min n (2 ^ 32 - 1)

/-- A count that saturates at 2^64 − 1 (R151). -/
def sat64 (n : Nat) : Nat := min n (2 ^ 64 - 1)

/-- ⌈a / b⌉. -/
def cdiv (a b : Nat) : Nat := (a + b - 1) / b

/-- A word of a number. -/
def w32 (n : Nat) : Word := BitVec.ofNat 32 n

/-- The two words of a 64-bit number, least significant first (R9). -/
def le64 (n : Nat) : List Word := [w32 n, w32 (n / 2 ^ 32)]

/-- A signed 32-bit number as a word. -/
def w32i (n : Int) : Word := BitVec.ofInt 32 n

/-! ### Bytes and words -/

/-- A word's bytes, most significant first (R8). -/
def beBytes (w : Word) : List Byte :=
  [BitVec.ofNat 8 (w.toNat >>> 24), BitVec.ofNat 8 (w.toNat >>> 16), BitVec.ofNat 8 (w.toNat >>> 8), BitVec.ofNat 8 w.toNat]

/-- A word's bytes, least significant first (R9). -/
def leBytes (w : Word) : List Byte := (beBytes w).reverse

/-- The number that bytes spell, most significant first. -/
def beNat (l : List Byte) : Nat := l.foldl (fun a b => a * 256 + b.toNat) 0

/-- The number that bytes spell, least significant first. -/
def leNat (l : List Byte) : Nat := beNat l.reverse

/-- Split bytes into groups of four and read each by `f`; a last short group is filled with zeros. -/
def group4 (f : List Byte → Word) : List Byte → List Word
  | a :: b :: c :: d :: t => f [a, b, c, d] :: group4 f t
  | [] => []
  | [a] => [f [a, 0, 0, 0]]
  | [a, b] => [f [a, b, 0, 0]]
  | [a, b, c] => [f [a, b, c, 0]]

/-- Words of bytes, most significant byte first (R8). -/
def beWords (l : List Byte) : List Word := group4 (fun g => w32 (beNat g)) l

/-- Words of bytes, least significant byte first (R9). -/
def leWords (l : List Byte) : List Word := group4 (fun g => w32 (leNat g)) l

/-- The low `n` bytes of a number, most significant first. -/
def natBytes (n v : Nat) : List Byte := (List.range n).map (fun i => BitVec.ofNat 8 (v >>> (8 * (n - 1 - i))))

/-! ### Check codes -/

/-- Eight steps of the reflected CRC-32 of R95. -/
def crc32Byte (c : Nat) (b : Byte) : Nat :=
  (List.range 8).foldl (fun c _ => if c % 2 = 1 then (c / 2) ^^^ 0xEDB88320 else c / 2) (c ^^^ b.toNat)

/-- CRC-32 (R95). -/
def crc32 (l : List Byte) : Nat := (l.foldl crc32Byte 0xFFFFFFFF) ^^^ 0xFFFFFFFF

/-- CRC-64/ECMA-182 (R99). -/
def crc64 (l : List Byte) : Nat :=
  l.foldl (fun c b => (List.range 8).foldl
    (fun c _ => if c ≥ 2 ^ 63 then ((c * 2) % 2 ^ 64) ^^^ 0x42F0E1EBA9EA3693 else c * 2) (c ^^^ (b.toNat * 2 ^ 56))) 0

/-- The CRC-16 of training frames (Table 14.3). -/
def crc16 (l : List Byte) : Nat :=
  l.foldl (fun c b => (List.range 8).foldl
    (fun c _ => if c ≥ 2 ^ 15 then ((c * 2) % 2 ^ 16) ^^^ 0x1021 else c * 2) (c ^^^ (b.toNat * 2 ^ 8))) 0xFFFF

/-- Whether a number of at most `n` bits has an odd number of ones. -/
def oddOnes (n v : Nat) : Bool := (List.range n).foldl (fun p i => p ^^ v.testBit i) false

/-! ### Packet fields (Table 4.1) -/

def Pkt.word (p : Pkt) (i : Nat) : Nat := wnat p.hdr i
def Pkt.version (p : Pkt) : Nat := fld p.hdr 0 31 28
def Pkt.cls (p : Pkt) : Nat := fld p.hdr 0 27 26
def Pkt.ptype (p : Pkt) : Nat := fld p.hdr 0 25 22
def Pkt.epoch (p : Pkt) : Nat := fld p.hdr 0 21 21
def Pkt.ce (p : Pkt) : Nat := fld p.hdr 0 20 20
def Pkt.colour (p : Pkt) : Nat := fld p.hdr 0 19 18
def Pkt.reply (p : Pkt) : Bool := fld p.hdr 0 17 17 = 1
def Pkt.mcast (p : Pkt) : Bool := fld p.hdr 0 16 16 = 1
def Pkt.len (p : Pkt) : Nat := fld p.hdr 0 15 0
def Pkt.job (p : Pkt) : Nat := fld p.hdr 1 31 20
def Pkt.seq (p : Pkt) : Nat := fld p.hdr 1 15 0
def Pkt.dst (p : Pkt) : Nat := fld p.hdr 2 31 16
def Pkt.src (p : Pkt) : Nat := fld p.hdr 2 15 0
def Pkt.grp (p : Pkt) : Nat := fld p.hdr 3 31 19
def Pkt.gen (p : Pkt) : Nat := fld p.hdr 3 15 0
def Pkt.chunk (p : Pkt) : Nat := fld p.hdr 4 31 8
def Pkt.sheaf (p : Pkt) : Nat := fld p.hdr 5 31 16
def Pkt.partialBit (p : Pkt) : Bool := fld p.hdr 6 31 31 = 1
def Pkt.parity (p : Pkt) : Nat := fld p.hdr 15 7 0

/-- The cells a packet occupies (R100). -/
def Pkt.cells (p : Pkt) : Nat := cdiv (68 + p.len) 256

/-- The header bytes. -/
def Pkt.hdrBytes (p : Pkt) : List Byte := (p.hdr.take 16).flatMap beBytes

/-- HDR_PARITY of a header (R94): bit i for bytes 8i to 8i+7, with the parity byte itself taken as zero. -/
def hdrParity (h : List Word) : Nat :=
  (List.range 8).foldl (fun a i =>
    let lo := if i = 7 then (wnat h 15) / 256 * 256 else wnat h (2 * i + 1)
    a + b2n (oddOnes 64 (wnat h (2 * i) * 2 ^ 32 + lo)) * 2 ^ i) 0

/-- The header with HDR_PARITY made right (R94). -/
def fixParity (h : List Word) : List Word :=
  lmod 0 h 15 (fun w => w32 (w.toNat / 256 * 256 + hdrParity h))

/-- A word with the bits `[lo + n − 1 : lo]` replaced. -/
def setBits (w : Word) (lo n v : Nat) : Word :=
  w32 (w.toNat - (bits w.toNat (lo + n - 1) lo) * 2 ^ lo + (v % 2 ^ n) * 2 ^ lo)

/-- The packet with EPOCH, CE or COLOUR rewritten and HDR_PARITY recomputed (R94). -/
def Pkt.setHdr0 (p : Pkt) (lo n v : Nat) : Pkt := { p with hdr := fixParity (lmod 0 p.hdr 0 (fun w => setBits w lo n v)) }

def Pkt.setEpoch (p : Pkt) (e : Nat) : Pkt := p.setHdr0 21 1 e
def Pkt.setCe (p : Pkt) : Pkt := p.setHdr0 20 1 1
def Pkt.setColour (p : Pkt) (c : Nat) : Pkt := p.setHdr0 18 2 c

/-- The packet's CRC-32 (R95): EPOCH, CE, COLOUR and HDR_PARITY are taken as zero. -/
def Pkt.crc (p : Pkt) : Nat :=
  let h0 := setBits (setBits (setBits (p.hdr.getD 0 0) 21 1 0) 20 1 0) 18 2 0
  let h15 := setBits (p.hdr.getD 15 0) 0 8 0
  crc32 ((((p.hdr.take 16).set 0 h0).set 15 h15).flatMap beBytes ++ p.payload)

/-- The packet as bytes in transmit order: header, payload, trailer (R92). -/
def Pkt.bytes (p : Pkt) : List Byte := p.hdrBytes ++ p.payload ++ beBytes p.trailer

/-- A packet the part itself makes: header words with parity, payload and its trailer. -/
def mkPkt (hdr : List Word) (payload : List Byte) : Pkt :=
  let p : Pkt := { hdr := fixParity ((hdr ++ List.replicate 16 0).take 16), payload := payload, trailer := 0 }
  { p with trailer := w32 p.crc }

/-- A packet from the bytes of its units (R105). -/
def pktOfBytes (l : List Byte) : Pkt :=
  let hdr := beWords (l.take 64)
  let n := fld hdr 0 15 0
  { hdr := hdr, payload := (l.drop 64).take n, trailer := w32 (beNat ((l.drop (64 + n)).take 4)) }

/-- The class that Table 4.2 gives a packet type. -/
def typeClass (t : Nat) : Nat :=
  match t with
  | 1 => 0 | 2 => 1 | 3 => 1 | 4 => 2 | 5 => 3 | 6 => 3 | 7 => 0 | 8 => 0 | _ => 2

end Sys2Proof

namespace Sys2Proof.Machine
open Sys2Proof

/-! ### Places (R13, R14, R20, Table 1.4) -/

/-- The complex number of coordinates (x, y). -/
def cxAt (x y : Nat) : Nat := 16 * y + x

/-- The complex of tile t of SCD k (R14). -/
def tileCx (k t : Nat) : Nat := cxAt (4 * (k % 4) + t % 4) (4 * (k / 4) + t / 4)

/-- The SCD that holds a complex or tiller. -/
def cxScd (c : Nat) : Nat := if c < 128 then 4 * (c / 64) + c % 16 / 4 else (c - 128) / 2

/-- The tile of an active complex within its SCD. -/
def cxTile (c : Nat) : Nat := 4 * (c / 16 % 4) + c % 4

/-- The router at which a complex or tiller is attached, or, as numbers 144 to 151, a memory node (Table 1.2). -/
def cxRouter (c : Nat) : Nat :=
  if c < 128 then c else if 144 ≤ c then (let n := c - 144; cxAt (4 + n) (if n < 4 then 0 else 7)) else tileCx ((c - 128) / 2) (if (c - 128) % 2 = 0 then 5 else 10)

/-- The half of a complex or tiller: 0 north, 1 south (R15). -/
def cxHalf (c : Nat) : Nat := cxRouter c / 64

/-- The primary home of a port (R20, Table 1.4). -/
def primaryHome (p : Nat) : Nat := if p < 256 then tileCx (p / 32) (p % 32 / 2) else cxAt 15 (p - 256)

/-- The alternate home of a port (R20, R23). -/
def alternateHome (p : Nat) : Nat :=
  if p < 256 then tileCx (p / 32) ((p % 32 / 2 + 8) % 16) else cxAt 15 ((p - 256) ^^^ 2)

/-- The owner code of a port's ingress (Table 5.6). -/
def ingressOwner (p : Nat) : Nat := if p < 256 then 1 + p % 2 else 0x07

/-- The owner code of a port's egress (Table 5.6). -/
def egressOwner (p : Nat) : Nat := if p < 256 then 4 + p % 2 else 0x0F

/-- Unit numbers (Table 16.6). -/
def unitNo (kind index : Nat) : Nat := kind * 4096 + index

/-! ### Ports, queues and complexes with their values after reset -/

/-- The value after reset of egress queue q (R194). -/
def queueInit (q : Nat) : Queue :=
  if q ≥ 48 then { shaper := { enable := true, rate := 8000, burst := 16384 }, tokens := 16384 * 65536 } else {}

/-- The limits after reset (Table 5.12). -/
def limitsInit (p : Nat) : Limits :=
  if p < 256 then { credit := [656, 656, 64, 16], moved := [328, 328, 32, 8], reserveCredit := [656, 656, 64, 16], reserveMoved := [328, 328, 32, 8] }
  else { credit := [256, 256, 32, 8], moved := [128, 128, 16, 8], reserveCredit := [256, 256, 32, 8], reserveMoved := [128, 128, 16, 8] }

/-- A port after reset. -/
def portInit (p : Nat) : Port :=
  { limits := limitsInit p,
    lanes := if p < 256 then {} else { electrical := true, rxMap := [0, 1, 2, 3, 7], txMap := [0, 1, 2, 3, 7] } }

/-- A complex after reset: INGRESS_SHARE is 13 in column 15 and 11 elsewhere (Table 5.13). -/
def cxInit (c : Nat) : Complex := { share := if c < 128 ∧ c % 16 = 15 then 13 else 11 }

def Hw.port (h : Hw) (p : Nat) : Port := (tget? h.ports p).getD (portInit p)
def Hw.setPort (h : Hw) (p : Nat) (x : Port) : Hw := { h with ports := tput h.ports p x }
def Hw.modPort (h : Hw) (p : Nat) (f : Port → Port) : Hw := h.setPort p (f (h.port p))
def Hw.cx (h : Hw) (c : Nat) : Complex := (tget? h.cxs c).getD (cxInit c)
def Hw.setCx (h : Hw) (c : Nat) (x : Complex) : Hw := { h with cxs := tput h.cxs c x }
def Hw.modCx (h : Hw) (c : Nat) (f : Complex → Complex) : Hw := h.setCx c (f (h.cx c))
def Hw.router (h : Hw) (r : Nat) : Router := tget {} h.mesh.routers r
def Hw.modRouter (h : Hw) (r : Nat) (f : Router → Router) : Hw :=
  { h with mesh := { h.mesh with routers := tmod {} h.mesh.routers r f } }
def Hw.modMesh (h : Hw) (f : Mesh → Mesh) : Hw := { h with mesh := f h.mesh }
def Hw.modTime (h : Hw) (f : TimeSt → TimeSt) : Hw := { h with time := f h.time }
def Hw.modCtl (h : Hw) (f : Ctl → Ctl) : Hw := { h with ctl := f h.ctl }
def Hw.modFaults (h : Hw) (f : Faults → Faults) : Hw := { h with faults := f h.faults }
def Hw.modLink (h : Hw) (p : Nat) (f : Link → Link) : Hw := h.modPort p (fun x => { x with link := f x.link })
def Hw.modLanes (h : Hw) (p : Nat) (f : Lanes → Lanes) : Hw := h.modPort p (fun x => { x with lanes := f x.lanes })
def Hw.modGlean (h : Hw) (p : Nat) (f : Glean → Glean) : Hw := h.modPort p (fun x => { x with glean := f x.glean })
def Port.queue (x : Port) (q : Nat) : Queue := (tget? x.queues q).getD (queueInit q)
def Port.modQueue (x : Port) (q : Nat) (f : Queue → Queue) : Port := { x with queues := tput x.queues q (f (x.queue q)) }
def Port.meter (x : Port) (m : Nat) : Meter := tget {} x.meters m

/-- The home that serves a port now (R21). -/
def Hw.home (h : Hw) (p : Nat) : Nat := if (h.port p).atAlt then alternateHome p else primaryHome p

/-- The width a port's counter saturates at (R151). -/
def satPort (i n : Nat) : Nat := if i < 4 then sat64 n else sat32 n

/-- Add to a port counter (Table 5.16). -/
def Hw.count (h : Hw) (p i : Nat) (n : Nat := 1) : Hw :=
  h.modPort p (fun x => { x with counters := tmod 0 x.counters i (fun v => satPort i (v + n)) })

/-- Add to a router counter (Table 6.13). -/
def Hw.countRouter (h : Hw) (r i : Nat) (n : Nat := 1) : Hw :=
  h.modRouter r (fun x => { x with counters := tmod 0 x.counters i (fun v => if i < 6 then sat64 (v + n) else sat32 (v + n)) })

/-- Add to a lane counter (Table 14.15). -/
def Hw.countLane (h : Hw) (p i : Nat) (n : Nat := 1) : Hw :=
  h.modLanes p (fun x => { x with counters := tmod 0 x.counters i (fun v => sat32 (v + n)) })

/-- Whether the part is in lehr, from E2 of the entry tick until it forwards again (R516, R520): no port sends or receives. -/
def Hw.inLehr (h : Hw) : Bool := h.power.lehr.phase ≠ .awake

/-- Whether the part runs: SYS_RST_N is high and no thermal trip holds it in reset (R503, R515). -/
def Hw.powered (h : Hw) : Bool := ! h.pins.resetLow && ! h.pins.held

/-- Whether a port's winnow bit is set (R119). -/
def Hw.winnowed (h : Hw) (p : Nat) : Bool := h.mesh.winnow.getLsbD p

/-! ### Events (R46, Table 2.6) -/

/-- Whether events are raised: firmware runs, from FW_PHASE RUNNING onward (R46). -/
def Ctl.eventsOn (c : Ctl) : Bool := decide (c.phase = .running) || decide (c.phase = .handover)
def Hw.eventsOn (h : Hw) : Bool := h.ctl.eventsOn

/-- The eight words of an event entry (Table 2.6). -/
def eventWords (code seq tick : Nat) (data : List Word) : List Word := [w32 (code + seq * 2 ^ 16)] ++ le64 tick ++ data

/-- The body of an MCTP message with the DCI's framing (R49): its type, the vendor ID, CHANNEL and three reserved bytes before the words. -/
def mctpBody (channel : Nat) (ws : List Word) : List Byte := [0x7E, 0x1F, 0x3C, BitVec.ofNat 8 channel, 0, 0, 0] ++ ws.flatMap leBytes

/-- A message is queued for a binding (0 I3C, 1 PCIe VDM); over I3C the W20 signals it by in-band interrupt (R48). -/
def Ctl.send (c : Ctl) (binding eid : Nat) (msg : List Byte) : Ctl :=
  { c with mctpOut := c.mctpOut ++ [(binding, eid, msg)], i3cIbi := c.i3cIbi + b2n (decide (binding = 0)) }

/-- An event goes to the subscribed endpoint as an MCTP message with CHANNEL 0x80 (R61, EVENT_SUBSCRIBE), over the binding of the last request received. (DESIGN CHOICE, log 111, unsafe.) -/
def Ctl.tellSubscriber (c : Ctl) (e : Event) : Ctl :=
  if c.subOn then c.send (tget 0 c.mctpEids 2) c.subEid (mctpBody 0x80 (eventWords e.code e.seq e.tick e.data)) else c

/-- An event is raised at a tick: it takes the count of events raised before it as EVENT_SEQ, goes to the subscriber, and waits for EVENT_ENTRY_WRITE. (DEDUCED, log 108, unsafe.) -/
def Ctl.raise (c : Ctl) (tick code : Nat) (data : List Word) : Ctl :=
  let e : Event := { code := code, seq := c.eventCount, tick := tick, data := (data ++ [0, 0, 0, 0, 0]).take 5 }
  { c.tellSubscriber e with raised := c.raised ++ [e], eventCount := (c.eventCount + 1) % 2 ^ 16 }

/-- Raise an event at the current tick, from FW_PHASE RUNNING onward. -/
def Hw.raise (h : Hw) (code : Nat) (data : List Word := []) : Hw :=
  { h with ctl := if h.eventsOn then h.ctl.raise h.time.tick code data else h.ctl }

/-! ### Memory of bytes in canonical form -/

/-- The byte at an address: what an unlisted address reads as is `d`. -/
def memRead (d : Byte) (m : List Host.Cell) (a : Nat) : Byte := tget d m a

/-- Write one byte: an address that comes to read as `d` is not listed. -/
def memWrite (d : Byte) : List Host.Cell → Nat → Byte → List Host.Cell
  | [], a, x => if x = d then [] else [(a, x)]
  | (k, v) :: t, a, x =>
    if a < k then (if x = d then (k, v) :: t else (a, x) :: (k, v) :: t)
    else if a = k then (if x = d then t else (a, x) :: t)
    else (k, v) :: memWrite d t a x

/-- Write bytes from an address upward. -/
def memWriteList (d : Byte) (m : List Host.Cell) (a : Nat) (l : List Byte) : List Host.Cell :=
  (l.foldl (fun (acc : Nat × List Host.Cell) x => (acc.1 + 1, memWrite d acc.2 acc.1 x)) (a, m)).2

/-- Read `n` bytes from an address upward. -/
def memReadList (d : Byte) (m : List Host.Cell) (a n : Nat) : List Byte := (List.range n).map (fun i => memRead d m (a + i))

/-- The memory with the addresses of `[a, a + n)` back at what an unlisted address reads as (a wipe). -/
def memWipe (m : List Host.Cell) (a n : Nat) : List Host.Cell := m.filter (fun c => c.1 < a ∨ a + n ≤ c.1)

/-- Strictly rising keys above a bound, and no byte equal to `d`. -/
def memWfFrom (d : Byte) : Nat → List Host.Cell → Bool
  | _, [] => true
  | b, (k, v) :: t => decide (b ≤ k) && decide (v ≠ d) && memWfFrom d (k + 1) t

/-- The canonical form of a memory. -/
def memWf (d : Byte) (m : List Host.Cell) : Bool := memWfFrom d 0 m

/-! ### Lifting -/

/-- The outcome type of this machine. -/
abbrev Out := Host.Outcome State Fault Refusal

/-- A meaning that changes the hardware alone, and reads the fuses; each row is one step of its own. (DESIGN CHOICE, log 4, unsafe.) -/
def onHw (f : Fuses → Hw → Hw) (s : State) : Out := .next { s with hw := f s.fuses s.hw }

/-- A meaning that names one of `bound` units: with a number that no unit has the machine stops with a fault. (DESIGN CHOICE, log 2, safe.) -/
def atUnit (n bound : Nat) (m : State → Out) (s : State) : Out := if n < bound then m s else .fault (.noSuchUnit n)

/-- A row that names a step of the tick edge: it acts in slot 0, where E1 to E7 run (R81, R82). TICK_EDGE takes each of these steps in its place in the order; the row takes what of its step is
still to be done. (DEDUCED, log 125, unsafe.) -/
def atEdge (f : Fuses → Hw → Hw) : State → Out := onHw (fun fz h => if h.time.slot = 0 then f fz h else h)

/-- The next open value of the run. (DESIGN CHOICE, log 6, safe.) -/
def Hw.draw (h : Hw) : Hw × Nat := ({ h with fresh := h.fresh + 1 }, (Config.openValue h.fresh).toNat)

/-- A draw of `bitsN` random bits. -/
def Hw.random (h : Hw) (bitsN : Nat) : Hw × Nat := ({ h with fresh := h.fresh + 1 }, Config.random h.fresh bitsN % 2 ^ bitsN)

end Sys2Proof.Machine
end

