-- ==== Sys2Proof/Machine/LinkOps.lean ====
section
/-!
DEFINITION. Taking a link down, starting a training and choosing a channel map: the operations that many commands share.
-/

namespace Sys2Proof.Machine
open Sys2Proof

/-- The channels a port has: five wavelengths, or four electrical lanes. -/
def chanCount (l : Lanes) : Nat := if l.electrical then 4 else 5

def Lanes.chan (l : Lanes) (i : Nat) : RxChan := tget {} l.chans i
def Lanes.modChan (l : Lanes) (i : Nat) (f : RxChan → RxChan) : Lanes := { l with chans := tmod {} l.chans i f }

/-- FOM_TARGET in force (R410, Table 14.12). -/
def fomTarget (l : Lanes) : Nat := if l.cfg.fomTarget ≠ 0 then l.cfg.fomTarget else if l.electrical then 80 else 96

/-- The least width MIN_WIDTH allows. -/
def minWidth (l : Lanes) : Nat := 2 ^ l.cfg.minWidth

/-- The number of logical lanes a map names: its width when the map is valid (Table 14.3), else zero. -/
def mapWidth (m : List Nat) : Nat :=
  let lanes := m.filter (· < 4)
  if m.any (fun v => v = 4 ∨ v = 5) then 0
  else if lanes.length = 4 ∧ (List.range 4).all (lanes.contains ·) then 4
  else if lanes.length = 2 ∧ (List.range 2).all (lanes.contains ·) then 2
  else if lanes.length = 1 ∧ lanes.contains 0 then 1
  else 0

/-- The map word of Table 14.3: entry i in bits [31−3i:29−3i]. -/
def mapWord (m : List Nat) : Nat := (List.range 5).foldl (fun a i => a + (m.getD i 7 % 8) * 2 ^ (29 - 3 * i)) 0

/-- The map a word carries. -/
def mapOfWord (w : Nat) : List Nat := (List.range 5).map (fun i => bits w (31 - 3 * i) (29 - 3 * i))

/-- The map a blind bring-up starts from (R412), fenced channels OFF: the spare then takes the first logical lane that lost its channel. (DEDUCED, log 66, unsafe.) -/
def startMap (l : Lanes) : List Nat :=
  let base := (List.range 5).map (fun i =>
    if l.fenced.contains i then 7 else if i < 4 then i else if l.electrical then 7 else 6)
  match (List.range 4).find? (fun i => l.fenced.contains i) with
  | some i => if l.electrical ∨ l.fenced.contains 4 then base else base.set 4 i
  | none => base

/-- Give lanes 0 to W − 1 to the ready channels with the highest FOM, for the largest W of 4, 2 and 1 that MIN_WIDTH allows (R414). -/
def narrowMap (l : Lanes) (usable : List Nat) : Option (List Nat) :=
  let ranked := usable.mergeSort (fun a b => decide ((l.chan b).fom ≤ (l.chan a).fom))
  let w := if 4 ≤ ranked.length then 4 else if 2 ≤ ranked.length then 2 else ranked.length
  if w = 0 ∨ w < minWidth l then none
  else some ((List.range 5).map (fun i => let k := ranked.idxOf i; if k < w then k else 7))

/-- The map after channel `f` fails: the spare takes its logical lane when a spare is free, else the direction narrows (R414, R416). -/
def mapWithout (l : Lanes) (f : Nat) (usable : List Nat) : Option (List Nat) :=
  let lane := l.rxMap.getD f 7
  match (List.range (chanCount l)).find? (fun i => l.rxMap.getD i 7 = 6 ∧ i ≠ f ∧ ¬ l.fenced.contains i ∧ usable.contains i) with
  | some sp => if lane < 4 then some ((l.rxMap.set f 7).set sp lane) else some (l.rxMap.set f 7)
  | none => if lane < 4 then narrowMap l (usable.filter (· ≠ f)) else some (l.rxMap.set f 7)

/-- The packets with a unit in a kept block, each once (R111). -/
def lostKept (k : Link) : List Pkt :=
  (List.range k.kept.length).flatMap (fun i => match k.kept[i]? with
    | some b => if b.cont ∧ 0 < i then b.pkts.drop 1 else b.pkts
    | none => [])

/-- The packets selected of which no unit has been framed; messages of the link itself are not among them. -/
def Link.unstarted (k : Link) : List Pkt := ((k.txPkts.filter (fun t => ! t.started)).map (·.pkt)).filter (fun q => decide (q.ptype ≠ 5 ∧ q.ptype ≠ 6))

/-- A port's receive direction keeps its settings but loses its state of readiness, as at the start of a training. -/
def Lanes.unready (l : Lanes) : Lanes :=
  { l with allReady := false, partnerAll := false, txData := false, rxData := false, heardBlock := false, looped := false, txAsleep := false, rxAsleep := false,
           sleepHeard := false,
           chans := l.chans.map (fun e => (e.1, { e.2 with frames := 0, good := 0, ready := false, partnerReady := false, los := false })) }

/-- Start a blind bring-up (R412): a fresh nonce, the starting map with every channel that is not fenced, a fresh link layer, and reserve limits
that begin again at the limits in force (R133). A port whose ENABLE is zero stays DISABLED. -/
def Hw.blindBringUp (h : Hw) (p : Nat) : Hw :=
  let (h, nonce) := h.random 32
  let x := h.port p
  let l := x.lanes
  let cfg := l.next.getD l.cfg
  let l : Lanes := { l with cfg := cfg, next := none }
  let l : Lanes := { l.unready with state := if cfg.enable then 1 else 0, nonce := nonce, rxMap := startMap l, txMap := startMap l, fast := false, chans := [] }
  let h := h.setPort p { x with
    link := {}, lanes := l,
    limits := { x.limits with reserveCredit := x.limits.credit, reserveMoved := x.limits.moved } }
  if cfg.enable then h.countLane p 2 else h

/-- A port becomes absent (R111, R417, Table 15.4): its kept blocks are discarded and their packets counted, glean goes DOWN, LINK_DOWN is
raised, and its winnow bit is set at the next E4. A packet selected but not begun is not lost with the link; it is discarded as the queued packets of a winnowed port are (R144). (DEDUCED, log 31, unsafe.) -/
def Hw.portAbsent (h : Hw) (p cause : Nat) : Hw :=
  let x := h.port p
  let gone := lostKept x.link
  let h := if gone = [] then h else h.count p 15 gone.length
  let short := x.link.unstarted.length
  let h := if short = 0 then h else h.count p 23 short
  let wasUp := decide (x.lanes.state = 2 ∨ x.lanes.state = 3)
  let h := if wasUp then h.countLane p 3 else h
  let h := h.modPort p (fun x => { x with
    absent := true, link := {},
    glean := { x.glean with state := 0, cause := 0, hold := 0, twoWay := false,
                            since := if x.glean.state = 3 then h.time.tick else x.glean.since } })
  if wasUp then h.raise 0x0902 [w32 (p + cause * 2 ^ 16)] else h

/-- A port that lost its link goes absent and brings itself up afresh (R417, R418). -/
def Hw.linkLost (h : Hw) (p cause : Nat) : Hw := (h.portAbsent p cause).blindBringUp p

/-- Whether a port is electrical and runs in V16-compatible mode (R424). -/
def Hw.isV16 (h : Hw) (p : Nat) : Bool := (h.port p).lanes.electrical && (h.port p).lanes.cfg.v16

/-- The limits a port advertises in LINK_PARAMS (R131, R145, Table 14.9): those of the home that serves it, no TC1 in V16-compatible mode. -/
def Hw.advertised (h : Hw) (p : Nat) : List Nat :=
  let x := h.port p
  let l := if x.atAlt then x.limits.moved else x.limits.credit
  let l := if h.isV16 p then l.set 1 0 else l
  lmod 0 l 3 (fun v => if v = 0 then 8 else v)

/-- The LINK_PARAMS message of a port (Table 4.6). -/
def Hw.paramsPkt (h : Hw) (p : Nat) : Pkt :=
  let k := (h.port p).link
  let words := [w32 (2 ^ 24 + b2n (¬ h.isV16 p)), w32 (k.paramsSeq * 2 ^ 16 + k.partnerParams)]
    ++ (h.advertised p).map w32 ++ (List.range 4).map (fun t => w32 (nth k.freed t))
  mkPkt [w32 (2 ^ 28 + 3 * 2 ^ 26 + 6 * 2 ^ 22 + 40)] (words.flatMap beBytes)

/-- The content of LINK_PARAMS changed: the next PARAMS_SEQ, which the partner has not echoed yet. -/
def Link.newParams (k : Link) : Link := { k with paramsSeq := (k.paramsSeq % 65535) + 1, paramsEchoed := false }

/-- LINK_PARAMS is queued for the next packet start (R102): LINKMGMT messages bypass the egress queues (R190). (DEDUCED, log 27, unsafe.) -/
def Hw.sendParams (h : Hw) (p : Nat) : Hw := h.modLink p (fun k => { k with txMgmt := k.txMgmt ++ [h.paramsPkt p] })

/-- The port is UP (R412, R416): the link layer starts, with reserve limits that begin at the limits in force (R133), or resumes with a replay from the oldest
kept block after a FAST retrain, its resends counted anew; LINK_PARAMS and glean begin. (DESIGN CHOICE, log 124, unsafe.) -/
def Hw.linkUp (h : Hw) (p : Nat) : Hw :=
  let x := h.port p
  let fast := x.lanes.fast
  let h := h.setPort p { x with
    absent := false,
    lanes := { x.lanes with state := 2, fast := false, idleCount := 0 },
    limits := if fast then x.limits else { x.limits with reserveCredit := x.limits.credit, reserveMoved := x.limits.moved },
    link := { x.link with
      up := true, paramsEchoed := false, sendNotice := if x.link.sendNotice = 2 then 0 else x.link.sendNotice,
      kept := x.link.kept.map (fun b => { b with resent := 0 }),
      replayFrom := if fast then x.link.kept.head?.map (·.lseq) else none },
    glean := if fast then { x.glean with sendNow := true }
      else { x.glean with state := 1, cause := 0, other := 0, hold := 0, twoWay := false, last := none, lastTick := 0, sendNow := true } }
  (h.sendParams p).raise 0x0901 [w32 (p + mapWidth x.lanes.rxMap * 2 ^ 16 + mapWidth x.lanes.txMap * 2 ^ 20)]

end Sys2Proof.Machine
end

