-- ==== Sys2Proof/Machine/FaultOps.lean ====
section
/-!
DEFINITION. Reporting an occurrence to the fault collector, ERR_N, the safe state, strikes and fences (Fault Collection).
-/

namespace Sys2Proof.Machine
open Sys2Proof

/-! ### Sources (Tables 16.1, 16.2 and the chapters' own tables; R547) -/

/-- The highest class a source's occurrences end in; none for an identifier that is not a source. -/
def sourceTop (s : Nat) : Option Nat :=
  match s with
  | 0x101 => some 1 | 0x102 => some 0 | 0x103 => some 0 | 0x104 => some 0 | 0x105 => some 2 | 0x106 => some 0
  | 0x201 => some 1 | 0x202 => some 1 | 0x203 => some 1 | 0x204 => some 1 | 0x205 => some 1 | 0x206 => some 1 | 0x207 => some 1 | 0x208 => some 1
  | 0x301 => some 0 | 0x302 => some 1 | 0x303 => some 0 | 0x304 => some 1 | 0x305 => some 1
  | 0x401 => some 0
  | 0x501 => some 1 | 0x502 => some 2 | 0x503 => some 2
  | 0x601 => some 2
  | 0x701 => some 2 | 0x702 => some 2 | 0x703 => some 1 | 0x704 => some 1
  | 0x801 => some 0 | 0x802 => some 1 | 0x803 => some 2
  | 0x901 => some 0 | 0x902 => some 1 | 0x903 => some 0 | 0x904 => some 1 | 0x905 => some 1 | 0x906 => some 1 | 0x907 => some 1 | 0x908 => some 0
  | 0xB01 => some 3 | 0xB02 => some 3
  | 0xC01 => some 2 | 0xC02 => some 2
  | 0xD01 => some 0 | 0xD02 => some 0 | 0xD03 => some 3 | 0xD04 => some 3
  | 0xE01 => some 1 | 0xE02 => some 0
  | _ => none

/-- Whether some occurrence of a source is of class C1 (Table 16.12, ERRN). LEDGER_IMBALANCE reaches C1 by its strikes. -/
def sourceHasC1 (s : Nat) : Bool := sourceTop s = some 1 ∨ s = 0x105

/-- The kinds of unit a source names (R547); the empty list for a source that names none. -/
def sourceKinds (s : Nat) : List Nat :=
  match s with
  | 0x101 => [12] | 0x102 => [15] | 0x103 => [15] | 0x104 => [4] | 0x105 => [14, 4, 10, 5] | 0x106 => [14]
  | 0x201 => [4] | 0x202 => [4] | 0x203 => [14] | 0x204 => [2] | 0x205 => [4] | 0x206 => [4] | 0x207 => [4] | 0x208 => [13]
  | 0x301 => [5] | 0x302 => [5] | 0x303 => [5] | 0x304 => [1, 2, 3, 4, 5, 6, 7, 8, 9, 10, 11, 12, 13, 14, 15] | 0x305 => [5]
  | 0x401 => [14]
  | 0x501 => [3, 4]
  | 0x703 => [1] | 0x704 => [4]
  | 0x801 => [9] | 0x802 => [9] | 0x803 => [10]
  | 0x901 => [14] | 0x902 => [14] | 0x903 => [14] | 0x908 => [14] | 0x904 => [6] | 0x905 => [7] | 0x906 => [8] | 0x907 => [15]
  | 0xB01 => [15] | 0xB02 => [15]
  | 0xD01 => [15] | 0xD02 => [15] | 0xD03 => [15] | 0xD04 => [15]
  | 0xE01 => [11] | 0xE02 => [11]
  | _ => []

/-- Sources that no unit detects on an item of its own: INJECT is refused for them (R477). -/
def derivedSources : List Nat :=
  [0x203, 0x305, 0x105, 0x502, 0x503, 0x601, 0x701, 0x702, 0x803, 0x907, 0xB02, 0xE02, 0xC01, 0xC02]

/-- The number of units of a kind in the W20 (Table 16.6). -/
def kindCount (k : Nat) : Nat :=
  match k with
  | 1 => 9 * 144 | 2 => 17 * 144 | 3 => 7 * 144 | 4 => 144 | 5 => 128 | 6 => 5 * 256 | 7 => 32 | 8 => 16 | 9 => 66 | 10 => 2 | 11 => 2
  | 12 => 2 | 13 => 8 | 14 => 264 | 15 => 20 | _ => 0

/-- Whether a unit number names a unit of the W20. -/
def unitExists (u : Nat) : Bool := u % 4096 < kindCount (u / 4096) ∧ u < 65536

def Faults.src (f : Faults) (s : Nat) : SourceSt := tget {} f.sources s
def Faults.modSrc (f : Faults) (s : Nat) (g : SourceSt → SourceSt) : Faults := { f with sources := tmod {} f.sources s g }

/-! ### The quiet timer (R466): base intervals of 6.25 µs, 160 to the millisecond, in steps of a 128th of one -/

/-- Time since the last reset of the time base, in 128ths of a base interval. -/
def Hw.quietNow (h : Hw) : Nat := h.time.base * 128 + h.time.slot * h.time.mult

/-- QUIET_ELAPSED_MS (Table 16.8). -/
def Hw.quietElapsed (h : Hw) : Nat := sat32 ((h.quietNow - h.faults.quietStart) / (160 * 128))

/-- ERR_N follows its held level when no pulse is under way (R464). -/
def Hw.errnHeld (h : Hw) : Bool :=
  match h.faults.errnHold with
  | 1 => h.faults.state ≠ .normal
  | 2 => h.faults.state = .safe
  | _ => false

def Hw.errnSettle (h : Hw) : Hw := h.modFaults (fun f => { f with errnLow := if f.pulsing then true else h.errnHeld })

/-- A C1 occurrence of a source pulses ERR_N (R465). -/
def Faults.errnC1 (f : Faults) (s : Nat) : Bool :=
  match (f.src s).errn with | 1 => true | 2 => false | _ => f.errnOnC1

/-- Entry to the safe state (R467): the cause, reason SAFE_STATE, the rewrite still to do. Ports withhold their credits, and nothing new starts,
while the collector's state is SAFE. -/
def Hw.enterSafe (h : Hw) (s : Nat) : Hw :=
  if h.faults.state = .safe then h.modFaults (fun f => { f with causes := if f.causes.contains s then f.causes else f.causes ++ [s] })
  else
    let h := h.modFaults (fun f => { f with state := .safe, safeCause := s, safeTick := h.time.tick, rewriteDone := false, rewriteFails := 0, causes := [s] })
    let h := h.modMesh (fun m => { m with reasons := m.reasons ||| 8 })
    h.raise 0x0B03 [w32 (s + (h.faults.missing.map (fun b => 2 ^ b)).sum)]

/-- The log keeps the last 4,096 entries, and the flash history the last 65,536 entries of classes C1 to C3 (Table 16.13, R459). -/
def Faults.write (f : Faults) (e : LogEntry) : Faults :=
  { f with logTotal := (f.logTotal + 1) % 2 ^ 32, log := (e :: f.log).take 4096,
           history := if e.cls = 0 then f.history else (e :: f.history).take 65536,
           histTotal := if e.cls = 0 then f.histTotal else (f.histTotal + 1) % 2 ^ 32 }

/-- An occurrence reaches the collector (R455, R456, R461, R462, R463). C0 is counted, and logged at the sweep that follows its tick; C1 to C3
move the collector's state, restart the quiet timer, drive ERR_N and are logged at once. (DESIGN CHOICE, log 55, unsafe.) -/
def Hw.report (h : Hw) (s cls unit : Nat) (action : Nat := 0) (data : List Word := []) (forced : Bool := false) (notify : Bool := false) : Hw :=
  let t := h.time
  let h := h.modFaults (fun f => f.modSrc s (fun x => { x with
    unswept := x.unswept + 1, worst := max x.worst cls, lastTick := t.tick % 2 ^ 16, tickOcc := x.tickOcc + 1, tickClass := max x.tickClass cls,
    tickUnit := unit }))
  if cls = 0 then
    h.modFaults (fun f => { f.modSrc s (fun x => { x with
      c0Occ := x.c0Occ + 1, c0Unit := unit, c0Forced := forced, c0Action := action, c0Tick := t.tick, c0Slot := t.slot, tickData := data }) with
      classNew := lmod 0 f.classNew 0 (· + 1) })
  else
    let h := h.modFaults (fun f =>
      let x := f.src s
      let f := f.write { source := s, cls := cls, forced := forced, notify := notify, unit := unit, tick := t.tick, slot := t.slot, action := action,
                         occ := 1, count := sat32 (x.count + x.unswept), data := data }
      { f with classNew := lmod 0 f.classNew cls (· + 1), lastSource := s, lastClass := cls, lastUnit := unit,
               lastTick := t.tick % 2 ^ 32, quietStart := h.quietNow, quietDone := false,
               state := if f.state = .normal ∧ cls < 3 then .fault else f.state,
               pulsing := f.pulsing || (2 ≤ cls) || (cls = 1 && f.errnC1 s) })
    (if cls = 3 then h.enterSafe s else h).errnSettle

/-! ### Fences (R458, R459, R474, Table 16.5) -/

def Hw.isFenced (h : Hw) (u : Nat) : Bool := h.faults.fenced.contains u

/-- The row of Table 16.5 and the scope of a unit, with the spares of that scope; none for a unit without a spare class. -/
def spareScope (u : Nat) : Option (Nat × Nat × Nat) :=
  let i := u % 4096
  match u / 4096 with
  | 1 => some (0, i / 9, 1)
  | 2 => some (1, i / 17, 1)
  | 3 => some (2, i / 7, 1)
  | 4 => some (3, cxScd i, 2)
  | 5 => some (4, 0, 0)
  | 6 => some (5, i / 5, 1)
  | 7 => some (6, 256 + i / 4, 0)
  | 8 => some (7, i / 2, 1)
  | 9 => some (8, i / 33, 1)
  | 10 => some (9, 0, 0)
  | 11 => some (10, 0, 1)
  | 12 => some (11, 0, 1)
  | _ => none

/-- The fenced units of a spare class in a scope. -/
def Hw.fencedIn (h : Hw) (row scope : Nat) : Nat :=
  (h.faults.fenced.filter (fun u => match spareScope u with | some (r, s, _) => r = row ∧ s = scope | none => false)).length

/-- Whether the fence of a unit, which has been made, leaves its spare class exhausted in its scope (R474); the class of routers is exhausted when the separation of R177 is lost, any
other class without spares by the first fence. (DEDUCED, log 140, unsafe.) -/
def Hw.spareGone (h : Hw) (u : Nat) : Bool :=
  match spareScope u with
  | some (4, _, _) => decide (h.mesh.separation ≠ [])
  | some (row, scope, spares) => decide (spares ≤ h.fencedIn row scope)
  | none => false

/-- SPARE_EXHAUSTED (R474), at the first exhaustion of a class in a scope. -/
def Hw.tellExhausted (h : Hw) (row scope : Nat) : Hw :=
  if h.faults.exhausted.contains (row, scope) then h
  else (h.modFaults (fun f => { f with exhausted := f.exhausted ++ [(row, scope)] })).raise 0x0B07 [w32 (row + scope * 2 ^ 16)]

/-- The exhaustion that the fence of a unit brings. -/
def Hw.tellSpare (h : Hw) (u : Nat) : Hw :=
  match spareScope u with
  | some (row, scope, _) => if h.spareGone u then h.tellExhausted row scope else h
  | none => h

/-- Whether a router is fenced, by a fault or by command. -/
def Hw.routerOut (h : Hw) (r : Nat) : Bool := (h.router r).faulty || h.mesh.fenced.contains r

/-- The CD attachment that carries the management traffic of a half (R16): its own, (0,3) north and (0,4) south, or while that router is fenced the other. -/
def Hw.cdRouter (h : Hw) (half : Nat) : Option Nat :=
  (if half = 0 then [cxAt 0 3, cxAt 0 4] else [cxAt 0 4, cxAt 0 3]).find? (fun r => ! h.routerOut r)

/-- Whether a home can serve a port: its complex is serving and neither fenced nor cut off (R22). -/
def Hw.homeServes (h : Hw) (c : Nat) : Bool := (h.cx c).attach = .serving

/-- The channels of an optical port that are not fenced. -/
def Hw.wavelengths (h : Hw) (p : Nat) : List Nat := (List.range 5).filter (fun f => ! h.isFenced (unitNo 6 (5 * p + f)))

/-- Whether a port can be live at a complex of an SCD (R38), other than those of a list: the complex serves, its router is in service and the port has a wavelength left. -/
def Hw.canLive (h : Hw) (p : Nat) (away : List Nat := []) : Bool :=
  [primaryHome p, alternateHome p].any (fun c => ! away.contains c && h.homeServes c && ! h.isFenced (unitNo 5 c)) && h.wavelengths p ≠ []

/-- Whether a photonic engine can be live (R38): one of its laser modules is not fenced, and one of its ports has a wavelength left. -/
def Hw.peLit (h : Hw) (k : Nat) : Bool :=
  ! (h.isFenced (unitNo 8 (2 * k)) && h.isFenced (unitNo 8 (2 * k + 1))) && (List.range 32).any (fun i => h.wavelengths (32 * k + i) ≠ [])

/-- The smallest working set (R38): what is missing of it, as bits 16 to 20 of MISSING_SET. A router is a path from each port homed at it to the others, and a laser module is
live until it is fenced, as it is when its light is lost. (DEDUCED, log 118, unsafe.) -/
def Hw.workingSetMissing (h : Hw) : List Nat :=
  (if h.isFenced (unitNo 11 0) ∧ h.isFenced (unitNo 11 1) then [16] else [])
  ++ (if h.isFenced (unitNo 12 0) ∧ h.isFenced (unitNo 12 1) then [17] else [])
  ++ (if 3 ≤ h.faults.rewriteFails then [18] else [])
  ++ (if (List.range 256).all (fun p => ! h.canLive p) then [19] else [])
  ++ (if (List.range 8).all (fun k => ! h.peLit k) then [20] else [])

/-- The quiet timer starts again (R466, R468). -/
def Hw.quietRestart (h : Hw) : Hw := h.modFaults (fun f => { f with quietStart := h.quietNow, quietDone := false })

/-- WORKING_SET_LOST is raised when the set becomes incomplete (R39, R454). Its end restarts the quiet timer (R468). -/
def Hw.checkWorkingSet (h : Hw) : Hw :=
  let m := h.workingSetMissing
  if m = [] ∧ h.faults.missing ≠ [] then (h.modFaults (fun f => { f with missing := [] })).quietRestart
  else if m = [] ∨ h.faults.missing ≠ [] then h.modFaults (fun f => { f with missing := m })
  else (h.modFaults (fun f => { f with missing := m })).report 0xB02 3 (unitNo 15 18) 6

/-- A port goes dark: absent with LINK_DOWN of a cause, its transmitters off until a later bring-up (R22, R509). (DEDUCED, log 57, unsafe.) -/
def Hw.goDark (h : Hw) (p cause : Nat) : Hw :=
  (h.portAbsent p cause).modPort p (fun x => { x with move := .none, withhold := false, lanes := { x.lanes.unready with state := 0, stopTick := none } })

/-- The attachment of a complex or tiller changes (R174). A port with no home left that serves becomes absent at once (R22). -/
def Hw.setAttach (h : Hw) (c : Nat) (a : Attach) : Hw :=
  let h := h.modCx c (fun x => { x with attach := if x.attach = .detached then .detached else a })
  if a = .serving then h
  else ((List.range 264).filter (fun p => (primaryHome p = c ∨ alternateHome p = c) ∧ ¬ h.homeServes (primaryHome p) ∧ ¬ h.homeServes (alternateHome p)
      ∧ (h.port p).lanes.state ≠ 0)).foldl (fun h p => h.goDark p 7) h

/-- The complexes and tillers attached at a router. -/
def attachedAt (r : Nat) : List Nat := r :: ((List.range 16).map (· + 128)).filter (fun c => cxRouter c = r)

/-- Chebyshev distance on the torus (R177). -/
def routerDistance (a b : Nat) : Nat :=
  let dx := (a % 16 + 16 - b % 16) % 16
  let dy := (a / 16 + 8 - b / 16) % 8
  max (min dx (16 - dx)) (min dy (8 - dy))

/-! ### Mesh links, and what the loss of a router takes from them (R146, R154, R155, R175). Directions: 0 east, 1 west, 2 north, 3 south -/

def stepDir (r d : Nat) : Nat :=
  let x := r % 16
  let y := r / 16
  match d with
  | 0 => cxAt ((x + 1) % 16) y
  | 1 => cxAt ((x + 15) % 16) y
  | 2 => cxAt x ((y + 7) % 8)
  | _ => cxAt x ((y + 1) % 8)

def Hw.linkIn (h : Hw) (r d : Nat) : MeshIn := tget {} (h.router r).inputs d
def Hw.modIn (h : Hw) (r d : Nat) (f : MeshIn → MeshIn) : Hw := h.modRouter r (fun x => { x with inputs := tmod {} x.inputs d f })
def Hw.modVc (h : Hw) (r key : Nat) (f : VcBuf → VcBuf) : Hw :=
  h.modRouter r (fun x => match tget? x.vcs key with | some b => { x with vcs := tput x.vcs key (f b) } | none => x)

/-- CREDITS_HELD of a VC at the output that feeds a link. -/
def MeshIn.held (i : MeshIn) (v : Nat) : Nat := tget 8 i.credits v

/-- A VC buffer whose tail has left is free, and its flits return as credits to the output that feeds it. -/
def Hw.freeVc (h : Hw) (r key : Nat) : Hw :=
  match tget? (h.router r).vcs key with
  | none => h
  | some b =>
    let h := h.modRouter r (fun x => { x with vcs := tdel x.vcs key, order := x.order.filter (· ≠ key) })
    if key / 8 < 4 then h.modIn r (key / 8) (fun i => { i with credits := tput i.credits (key % 8) (i.held (key % 8) + b.got) }) else h

/-- The tail of one copy has left a VC buffer. -/
def Hw.copySent (h : Hw) (r key : Nat) : Hw :=
  let h := h.modVc r key (fun b => { b with busy := b.busy - 1 })
  match tget? (h.router r).vcs key with
  | some b => if b.done ∧ b.busy = 0 then h.freeVc r key else h
  | none => h

/-- Discard a mesh packet at a router (R170, R175): MESH_DROPPED_FENCED. -/
def Hw.meshDrop (h : Hw) (r : Nat) : Hw := h.countRouter r 10

/-- The copies on some VCs of a link are cut off: their flits under way and those kept for a resend are gone, and the sender holds every credit again. -/
def MeshIn.cut (i : MeshIn) (vs : List Nat) : MeshIn :=
  let gone (v : Nat) : Bool := vs.contains v
  let wire := i.wire.filter (fun f => ! gone f.vc)
  { i with
    transfers := i.transfers.filter (fun t => ! gone t.vc), wire := wire, kept := i.kept.filter (fun f => ! gone f.vc),
    nak := i.nak.filter (fun q => wire.any (fun f => f.fseq = q)), credits := vs.foldl (fun c v => tput c v 8) i.credits }

/-- The buffer of a mesh packet whose rest will not come is discarded, with its copies further on. (DEDUCED, log 130, unsafe.) -/
def Hw.cutVc : Nat → Hw → Nat → Nat → Hw
  | 0, h, _, _ => h
  | n + 1, h, r, key =>
    let h := if (tget? (h.router r).vcs key).isSome then h.meshDrop r else h
    let h := h.modRouter r (fun x => { x with vcs := tdel x.vcs key, order := x.order.filter (· ≠ key) })
    (List.range 4).foldl (fun h d =>
      let vs := ((h.linkIn (stepDir r d) (d ^^^ 1)).transfers.filter (fun t => t.src = key)).map (·.vc)
      vs.foldl (fun h v => Hw.cutVc n h (stepDir r d) (8 * (d ^^^ 1) + v)) (h.modIn (stepDir r d) (d ^^^ 1) (fun i => i.cut vs))) h

/-- The mesh packets of a router that fails: those in its buffers are discarded, with what they had sent of themselves, and each neighbour discards what it was sending to it. -/
def Hw.emptyRouter (h : Hw) (r : Nat) : Hw :=
  let ro := h.router r
  let h := ro.vcs.foldl (fun h _ => h.meshDrop r) h
  let h := (List.range 4).foldl (fun h d =>
    let vs := (h.linkIn (stepDir r d) (d ^^^ 1)).transfers.map (·.vc)
    vs.foldl (fun h v => Hw.cutVc 32 h (stepDir r d) (8 * (d ^^^ 1) + v)) (h.modIn (stepDir r d) (d ^^^ 1) (fun i => i.cut vs))) h
  let h := ro.inputs.foldl (fun h (e : Nat × MeshIn) => e.2.transfers.foldl (fun h t => (h.meshDrop (stepDir r e.1)).copySent (stepDir r e.1) t.src) h) h
  h.modRouter r (fun x => { x with vcs := [], inputs := [], order := [] })

/-- The routers in FENCED_ROUTERS, or about to join it, that lie within two hops of a router (R177). -/
def Hw.nearFenced (h : Hw) (r : Nat) : List Nat :=
  ((h.mesh.fenced ++ h.mesh.joinFenced.map (·.1)).dedup).filter (fun a => decide (a ≠ r) && decide (routerDistance a r < 3))

/-- A router fenced by a fault (R175, R177): its buffers are discarded at once, its complexes become DETACHED, its neighbours and the injecting
complexes discard until the next E3, at which it joins FENCED_ROUTERS. -/
def Hw.fenceRouter (h : Hw) (r : Nat) : Hw :=
  let h := (h.emptyRouter r).modRouter r (fun x => { x with faulty := true })
  let h := (attachedAt r).foldl (fun h c => h.setAttach c .detached) h
  let near := h.nearFenced r
  let h := h.modMesh (fun m => { m with
    joinFenced := m.joinFenced ++ [(r, false)], discarding := m.discarding ++ [r],
    separation := m.separation ++ near.map (fun a => (a, r)) })
  let h := h.raise 0x0305 [w32 r]
  if near = [] then h else h.report 0x305 1 (unitNo 5 r) 7

/-- The slots of the open chunks that meet a condition are lost (R280); their re-base follows at the next E4. The condition reads the group, the generation
and the chunk. -/
def Hw.loseSlots (h : Hw) (p : Nat → Gen → Nat → Chunk → Bool) : Hw :=
  { h with groups := h.groups.map (fun (e : Nat × Group) => (e.1, { e.2 with gens := e.2.gens.map (fun n =>
      { n with open_ := n.open_.map (fun (q : Nat × Chunk) => if p e.1 n q.1 q.2 then (q.1, { q.2 with slotLost := true, restarted := false }) else q) }) })) }

/-- Chunks spilled to a stack lose their slots (R280, Table 13.6). -/
def Hw.loseSpilled (h : Hw) (s : Nat) : Hw := h.loseSlots (fun _ n _ c => decide (tget? n.spilled c.addr = some s))

/-- Chunks whose slot lies in a failed parison bank of a complex lose it (R280). -/
def Hw.loseBank (h : Hw) (c b : Nat) : Hw :=
  h.loseSlots (fun g n k q => decide (q.cx = c) && (tget? n.spilled q.addr).isNone && decide (Config.bankOf c g k % 7 = b))

/-- What a fence does by the kind of its unit (Table 16.5, R174, R175, R421). A core, slice or bank is taken over by its complex's
spare; the slots in a bank are lost. -/
def Hw.fenceAction (h : Hw) (u : Nat) : Hw :=
  let i := u % 4096
  match u / 4096 with
  | 3 => h.loseBank (i / 7) (i % 7)
  | 4 => if (h.cx i).attach = .serving then h.setAttach i .detached else h
  | 5 => h.fenceRouter i
  | 6 => h.modLanes (i / 5) (fun l => { l with fenced := l.fenced ++ [i % 5] })
  | 7 => h.modLanes (256 + i / 4) (fun l => { l with fenced := l.fenced ++ [i % 4] })
  | 9 => { h with mem := { h.mem with hbms := tmod {} h.mem.hbms (i / 33) (fun k =>
      if k.spare.isSome then k else { k with spare := some (i % 33), copying := if i % 33 = 32 then none else some (i % 33) }) } }
  | 8 => { h with lasers := { h.lasers with enabled := h.lasers.enabled.filter (· ≠ i), live := h.lasers.live.filter (· ≠ i), releasing := h.lasers.releasing.filter (· ≠ i) } }
  | 11 => h.modFaults (fun f => { f with mpFenced := f.mpFenced.set i true })
  | 12 => h.modTime (fun t => { t with genFenced := t.genFenced.set i true })
  | _ => h

/-- The complex a further core, slice or bank fault fences when the spare is already in use, with its attachment (Table 16.5, R174). -/
def Hw.cascade (h : Hw) (u : Nat) : Option (Nat × Attach) :=
  let i := u % 4096
  match u / 4096 with
  | 1 => if 1 < h.fencedIn 0 (i / 9) then some (i / 9, .computeFenced) else none
  | 2 => if 1 < h.fencedIn 1 (i / 17) then some (i / 17, .detached) else none
  | 3 => if 1 < h.fencedIn 2 (i / 7) then some (i / 7, .computeFenced) else none
  | _ => none

/-- Fence one unit (R459): it stays fenced, UNIT_FENCED is raised, the first exhaustion of its spare class in its scope raises SPARE_EXHAUSTED. -/
def Hw.fenceOne (h : Hw) (u s : Nat) : Hw :=
  if h.isFenced u then h
  else
    let h := h.modFaults (fun f => { f with fenced := f.fenced ++ [u], recorded := f.recorded.filter (· ≠ u) ++ [u] })
    let h := h.raise 0x0B05 [w32 (u + s * 2 ^ 16)]
    let h := if u / 4096 = 5 then (h.fenceAction u).tellSpare u else (h.tellSpare u).fenceAction u
    h.checkWorkingSet

/-- The router of memory node n: 0 to 3 of HBM0, 4 to 7 of HBM1 (Table 1.2). -/
def nodeRouter (n : Nat) : Nat := cxAt (4 + n) (if n < 4 then 0 else 7)

/-- A stack whose second channel or whose last memory-node router is fenced is fenced whole (R381): its regions cease to exist, its echo entries are gone
and its snapshot parts are DAMAGED in every chunk. Its spilled slots restart at E4. -/
def Hw.loseStack (h : Hw) (k s : Nat) : Hw :=
  if h.isFenced (unitNo 10 k) then h
  else
    let h := h.fenceOne (unitNo 10 k) s
    let h := { h with mem := { h.mem with
      hbms := tput h.mem.hbms k {}, echo := h.mem.echo.filter (fun e => e.2.stack ≠ k),
      parts := h.mem.parts.map (fun (e : Nat × Part) => if e.2.stack = k then (e.1, { e.2 with state := .damaged, allFailed := true }) else e) } }
    let h := h.loseSpilled k
    h.report 0x803 2 (unitNo 10 k) 7

/-- The stacks that what is fenced takes with it. -/
def Hw.checkStacks (h : Hw) (s : Nat) : Hw :=
  [0, 1].foldl (fun h k =>
    if 1 < h.fencedIn 8 k ∨ (List.range 4).all (fun n => h.routerOut (nodeRouter (4 * k + n))) then h.loseStack k s else h) h

/-- Fence a unit, and its complex or stack when the unit's spare class is exhausted there (R474, R381). -/
def Hw.fence (h : Hw) (u s : Nat) : Hw :=
  let h := (h.fenceOne u s).checkStacks s
  match h.cascade u with
  | some (c, a) => (h.setAttach c a).fenceOne (unitNo 4 c) s
  | none => h

/-- A receive direction loses channel f (R414, R416): the channel is fenced, and a spare takes its lane or the direction narrows to channels that are usable. -/
def Hw.dropChannel (h : Hw) (p f : Nat) (forced : Bool := false) : Hw :=
  let l := (h.port p).lanes
  let usable := (List.range (chanCount l)).filter (fun i => ¬ l.fenced.contains i ∧ ¬ (l.chan i).los ∧ fomTarget l ≤ (l.chan i).fom)
  let src := if l.electrical then 0x905 else 0x904
  let u := if l.electrical then unitNo 7 (4 * (p - 256) + f) else unitNo 6 (5 * p + f)
  let m := (mapWithout l f usable).getD (l.rxMap.set f 7)
  let h := (h.report src 1 u 3 [] forced).fence u src
  let h := h.modLanes p (fun l => { l with rxMap := m })
  h.raise 0x0904 [w32 (p + f * 2 ^ 16), w32 (mapWord m)]

/-- The channel substitution that three strikes against a port start (R416, R547): its receive direction fences a channel and remaps. Where none has lost its signal or its figure of
merit, the one with the most corrected symbols over the last tick is an open one. (DESIGN CHOICE, log 135, safe.) -/
def Hw.substituteChannel (h : Hw) (p : Nat) (must : Bool) : Hw :=
  let l := (h.port p).lanes
  let mapped := (List.range (chanCount l)).filter (fun i => l.rxMap.getD i 7 < 4)
  match mapped.find? (fun i => (l.chan i).los || (l.chan i).fom < fomTarget l) with
  | some f => h.dropChannel p f
  | none =>
    if ¬ must then h
    else
      let (h, q) := h.draw
      match mapped[q % max 1 mapped.length]? with
      | none => h
      | some f => h.dropChannel p f

/-- Start a FAST retrain of a port (R415, R416): settings and link-layer state are kept; a port that is up counts FAST_RETRAINS. -/
def Hw.fastRetrain (h : Hw) (p : Nat) (must : Bool) : Hw :=
  let x := h.port p
  if x.lanes.state ≠ 2 then h
  else
    let h := (h.countLane p 1).substituteChannel p must
    let h := h.modLanes p (fun l => { l.unready with state := 3, fast := true, rxMap := l.rxMap, txMap := l.txMap })
    h.modLink p (fun k => { k with up := false, sendNotice := 2, paramsEchoed := false })

/-- The strikes that count against a unit (R458): none once a quiet period has passed without one. -/
def Hw.strikesOf (h : Hw) (u : Nat) : Nat :=
  if 160 * 128 * h.faults.quietMs ≤ h.quietNow - tget 0 h.faults.strikeBase u then 0 else tget 0 h.faults.strikes u

/-- One strike against a unit (R458): the third within a quiet period fences it; against a port it starts the channel substitution. -/
def Hw.strike (h : Hw) (u s : Nat) (data : List Word := []) : Hw :=
  let n := h.strikesOf u + 1
  if n < 3 then h.modFaults (fun f => { f with strikes := tput f.strikes u n, strikeBase := tput f.strikeBase u h.quietNow })
  else
    let h := h.modFaults (fun f => { f with strikes := tdel f.strikes u })
    if u / 4096 = 14 then h.fastRetrain (u % 4096) true else (h.report s 1 u 2 data).fence u s

/-- A detected error that counts as one strike (R128, R129, R114, R87): C0, and the strike. -/
def Hw.strikeReport (h : Hw) (s u : Nat) (data : List Word := []) : Hw :=
  if h.strikesOf u + 1 < 3 ∨ u / 4096 = 14 then (h.report s 0 u 0 data).strike u s
  else h.strike u s data

end Sys2Proof.Machine
end

