-- ==== Sys2Proof/Machine/Dci.lean ====
section
/-!
DEFINITION. The Detia Command Interface: channels, the envelope and its checks, locks of the bulk window, staging and the choice of a commit
tick (R44, R50 to R60).
-/

namespace Sys2Proof.Machine
open Sys2Proof

/-! ### Status codes (Table 2.9) -/

def stOk : Nat := 0x0000
def stStaged : Nat := 0x0001
def stInvalid : Nat := 0x0010
def stUnknown : Nat := 0x0011
def stBadLength : Nat := 0x0012
def stNotPermitted : Nat := 0x0013
def stAbsent : Nat := 0x0014
def stFenced : Nat := 0x0015
def stNoResource : Nat := 0x0016
def stPair : Nat := 0x0020
def stStale : Nat := 0x0021
def stTickPassed : Nat := 0x0022
def stStagingFull : Nat := 0x0023
def stFit : Nat := 0x0024
def stNotEmpty : Nat := 0x0025
def stHandover : Nat := 0x0026
def stLifecycle : Nat := 0x0030
def stAuth : Nat := 0x0031
def stRollback : Nat := 0x0032
def stImage : Nat := 0x0033
def stIncompatible : Nat := 0x0034
def stSafe : Nat := 0x0040
def stRecovery : Nat := 0x0041

/-- A failure: its status and DETAIL. -/
abbrev Fail := Nat × Nat

/-- INVALID_ARG naming a payload offset (R53). -/
def bad (off : Nat) : Option Fail := some (stInvalid, off)

/-- The first failure of a list of checks. -/
def firstFail (l : List (Option Fail)) : Option Fail := l.findSome? id

/-- A check: the failure when the condition holds. (DEDUCED, log 25, unsafe.) -/
def failIf (c : Bool) (f : Option Fail) : Option Fail := if c then f else none

/-! ### The life-cycle state as a number (Table 2.7) -/

def Lc.code (l : Lc) : Nat :=
  match l with | .manufacture => 0 | .provisioned => 1 | .inService => 2 | .maintenance => 3 | .retired => 4

def lcOfCode (n : Nat) : Option Lc :=
  match n with | 0 => some .manufacture | 1 => some .provisioned | 2 => some .inService | 3 => some .maintenance | 4 => some .retired | _ => none

def FwPhase.code (p : FwPhase) : Nat :=
  match p with | .rom => 0 | .booting => 1 | .running => 2 | .recovery => 3 | .handover => 4

/-! ### Channels -/

def Hw.chan (h : Hw) (c : Nat) : Chan := tget {} h.ctl.chans c
def Hw.modChan (h : Hw) (c : Nat) (f : Chan → Chan) : Hw := { h with ctl := { h.ctl with chans := tmod {} h.ctl.chans c f } }

def Request.opcode (r : Request) : Nat := fld r.words 0 15 0
def Request.seqTag (r : Request) : Nat := fld r.words 0 31 16
def Request.payloadLen (r : Request) : Nat := fld r.words 1 15 0
def Request.stageOnly (r : Request) : Bool := fld r.words 1 16 16 = 1
def Request.atTick (r : Request) : Bool := fld r.words 1 17 17 = 1
def Request.target (r : Request) : Nat := wnat r.words 2
def Request.payload (r : Request) : List Word := r.words.drop 4

/-- A response: the envelope with the opcode and tag echoed, the length, the status and DETAIL, then the payload (Table 2.8). A response with any
status but OK and STAGED carries no payload. -/
def response (r : Request) (status detail : Nat) (payload : List Word) : List Word :=
  let pl := if status = stOk ∨ status = stStaged then payload else []
  [w32 (r.opcode + r.seqTag * 2 ^ 16), w32 (4 * pl.length), 0, w32 (status + (detail % 2 ^ 16) * 2 ^ 16)] ++ pl

/-- The request of a channel has its response: it waits for COMMAND_COMPLETE. -/
def Hw.reply (h : Hw) (c : Nat) (status detail : Nat) (payload : List Word := []) : Hw :=
  h.modChan c (fun x => match x.cur with
    | some r => { x with cur := some { r with waiting := false }, reply := some (response r status detail payload) }
    | none => x)

/-! ### The commands (Table 2.12) -/

/-- The opcodes of Table 2.12. -/
def opcodes : List Nat :=
  [0x0001, 0x0002, 0x0003, 0x0004, 0x0101, 0x0102, 0x0103, 0x0104]
  ++ (List.range 9).map (0x0201 + ·) ++ (List.range 5).map (0x0301 + ·) ++ (List.range 5).map (0x0401 + ·) ++ (List.range 8).map (0x0501 + ·)
  ++ [0x0601, 0x0602] ++ (List.range 5).map (0x0701 + ·) ++ (List.range 6).map (0x0801 + ·) ++ (List.range 5).map (0x0901 + ·)
  ++ (List.range 5).map (0x0A01 + ·) ++ (List.range 5).map (0x0B01 + ·) ++ (List.range 3).map (0x0C01 + ·) ++ (List.range 7).map (0x0D01 + ·)
  ++ (List.range 7).map (0x0E01 + ·)

/-- The commands that configure, and so stage (R57): the Configures column of each chapter's command table. -/
def configures (op : Nat) : Bool :=
  [0x0101, 0x0103, 0x0201, 0x0202, 0x0203, 0x0204, 0x0205, 0x0206, 0x0207, 0x0301, 0x0302, 0x0304, 0x0401, 0x0402, 0x0403, 0x0404,
   0x0501, 0x0502, 0x0503, 0x0504, 0x0505, 0x0506, 0x0601, 0x0702, 0x0703, 0x0801, 0x0802, 0x0803, 0x0804, 0x0806,
   0x0901, 0x0902, 0x0903, 0x0904, 0x0A01, 0x0A02, 0x0A04, 0x0A05, 0x0B01, 0x0C01, 0x0C02, 0x0D01, 0x0D02, 0x0D03, 0x0D04, 0x0D05, 0x0D07].contains op

/-- The commands marked MC in Table 2.12. -/
def mcOnly (op : Nat) : Bool := [0x0004, 0x0A01, 0x0A02].contains op

/-- The payload bytes a command's layout asks for; `none` in the first place where the length is whatever the layout's own count gives, which the
second place then tells. Channels 12 to 15 carry table entries inline (Tables 5.9, 15.9). -/
def payloadLen (op ch : Nat) (p : List Word) : Nat :=
  let mc := decide (12 ≤ ch)
  match op with
  | 0x0001 => 0 | 0x0003 => 0 | 0x0004 => 4
  | 0x0101 => 4 | 0x0102 => 0 | 0x0103 => 20 | 0x0104 => 8
  | 0x0201 => 12
  | 0x0202 => if mc then 16 + 4 * fld p 2 12 0 else 16
  | 0x0203 => 136 | 0x0204 => 12 | 0x0205 => 20 | 0x0206 => 4 | 0x0207 => 44 | 0x0208 => 8 | 0x0209 => 8
  | 0x0301 => 8 + 4 * fld p 1 15 8
  | 0x0302 => 4 | 0x0303 => 0 | 0x0304 => 4 | 0x0305 => 8
  | 0x0401 => 12 | 0x0402 => 12 | 0x0403 => 28 | 0x0404 => 20 | 0x0405 => 4
  | 0x0501 => 68 + 8 * fld p 16 8 0
  | 0x0502 => 36 | 0x0503 => 8 | 0x0504 => 4 | 0x0505 => 4 | 0x0506 => 4 | 0x0507 => 4 | 0x0508 => 12
  | 0x0601 => 60 | 0x0602 => 4
  | 0x0701 => 16 | 0x0702 => 12 + cdiv (fld p 2 10 0) 4 * 4 | 0x0703 => 4 | 0x0704 => 4 | 0x0705 => 4
  | 0x0801 => 8 | 0x0802 => 8
  | 0x0803 => 12 + 12 * fld p 2 8 0
  | 0x0804 => 12 | 0x0805 => 12 | 0x0806 => 8
  | 0x0901 => 16 | 0x0902 => 4 | 0x0903 => 4 | 0x0904 => 4 | 0x0905 => 4
  | 0x0A01 => 12
  | 0x0A02 => 16 + 32 * fld p 3 22 16
  | 0x0A03 => 4
  | 0x0A04 => if mc then 20 + 4 * fld p 3 16 0 else 20
  | 0x0A05 => 12
  | 0x0B01 => 12 | 0x0B02 => 8 | 0x0B03 => 8 | 0x0B04 => 4 | 0x0B05 => 0
  | 0x0C01 => 8 | 0x0C02 => 16 | 0x0C03 => 4
  | 0x0D01 => 8 | 0x0D02 => 0 | 0x0D03 => 0 | 0x0D04 => 4 | 0x0D05 => 4 | 0x0D06 => 4 | 0x0D07 => 4
  | 0x0E01 => if mc then 12 + min (cdiv (wnat p 2) 4 * 4) 4068 else 12
  | 0x0E02 => 4 | 0x0E03 => 4 | 0x0E04 => 0 | 0x0E05 => 0 | 0x0E06 => 148 | 0x0E07 => 4
  | _ => 0

/-- Whether a payload length fits the command (R53, step 2). COMMIT allows zero bytes or one word; FW_FLASH_WRITE carries data inline over MCTP, at most what a payload
holds. (DESIGN CHOICE, log 115, unsafe.) -/
def lengthOk (op ch : Nat) (p : List Word) (len : Nat) : Bool :=
  match op with
  | 0x0002 => len = 0 ∨ len = 4
  | 0x0701 => if 12 ≤ ch then 16 ≤ len else len = 16
  | _ => len = payloadLen op ch p

/-- The reserved bits of RING_PLAN_SET (Table 10.7): bits of RING_AXES and words of axes at and above DIMS, and the anchors of local axes. -/
def ringMasks (p : List Word) : List Nat :=
  let d := fld p 0 18 16
  let axes := List.range 4
  let ring (a : Nat) : Bool := a < d ∧ fld p 0 (20 + a) (20 + a) = 1
  [0xFF08E000 + (axes.map (fun a => if d ≤ a then 2 ^ (20 + a) else 0)).sum, 0xFF000000, 0xFE000000]
  ++ axes.map (fun a => if d ≤ a then 0xFFFFFFFF else 0xFF00FE00)
  ++ axes.flatMap (fun a => if ring a then [0, 0xFFFFE000] else [0xFFFFFFFF, 0xFFFFFFFF])

/-- The reserved bits of each payload word of a command's fixed layout (R10). -/
def reservedMasks (op : Nat) (p : List Word) : List Nat :=
  match op with
  | 0x0002 => [0xFFFFFFFE]
  | 0x0004 => [0xFFFFFE00]
  | 0x0101 => [0xFFFFFCC0]
  | 0x0103 => [0xFFFFFEF8, 0xFE00FFF0, 0xFE00FFF0, 0xFE00FFF0, 0xFE00FFF0]
  | 0x0104 => [0xFFFFFFF8, match fld p 0 2 0 with
      | 1 => 0xFFFFF200 | 2 => 0xFFFFF800 | 3 => 0xFFFFFF00 | 4 => 0xFFFFFF00 | 5 => 0xFFFFC000 | 6 => 0xFFFF0000 | 7 => 0xFFFEE000 | _ => 0]
  | 0x0201 => [0xFFFCFE00]
  | 0x0202 => [0xFFFFFFFE, 0xFFFFF000, 0xFFFFE000]
  | 0x0203 => [0xFF8000FE, 0xFFFF0000]
  | 0x0204 => [0xFFC0FE00, 0xFF000000, 0x7F000000]
  | 0x0205 => [0xFFFFFE00, 0xC000C000, 0xC000C000, 0xC000C000, 0xC000C000]
  | 0x0206 => [0xFFF0F800]
  | 0x0207 => [0xF000FFFC, 0xFFFFF000, 0, 0, 0, 0, 0, 0, 0, 0, 0xFFFFFF00]
  | 0x0208 => [0xFFFEFE00, 0xFFFF0000]
  | 0x0209 => [0xFFFFFF00, 0]
  | 0x0301 => [0xFFFFFFFC, 0xFFFF0000] ++ List.replicate (fld p 1 15 8) 0xFFFFFC00
  | 0x0302 => [0xFFFF00FC]
  | 0x0304 => [0xFFFFFF00]
  | 0x0305 => [0xFFFEFF00, 0xFFFF0000]
  | 0x0401 => [0xFE00FE00, 0xFF000000, 0xFF000000]
  | 0x0402 => [0x7FC0FE00, 0xFFF00000, 0xFF000000]
  | 0x0403 => [0xBFC0FE00, 0xFFF00000, 0xFFF00000, 0xFF000000, 0xFF000000, 0, 0]
  | 0x0404 => [0xFFF0FE00, 0xFF000000, 0xFF000000, 0xFF000000, 0xFF000000]
  | 0x0405 => [0xFF00FE00]
  | 0x0501 => [0xFFC8C000, 0xFF00F000, 0xFFFFFE00, 0xFC080000, 0xFF000000, 0xFF000000, 0xFFFF0000, 0xFF000000, 0xFFFFF000, 0, 0, 0, 0, 0, 0, 0, 0xFFFFFE00]
      ++ (List.range (fld p 16 8 0)).flatMap (fun _ => [0xFFF80000, 0])
  | 0x0502 => [0xFFFFE000]
  | 0x0503 => [0xFFFFE000]
  | 0x0504 => [0xFFFEE000]
  | 0x0505 => [0xFFFFE000]
  | 0x0506 => [0xFFFEE000]
  | 0x0507 => [0xFFFFE000]
  | 0x0508 => [0xFFFFE000]
  | 0x0601 => ringMasks p
  | 0x0602 => [0xFFFFE000]
  | 0x0701 => [0xFFFFFFC0]
  | 0x0702 => [0xFFFCE000, 0xFFFFFFC0, 0xFFFFF800]
  | 0x0703 => [0xFFFEE000]
  | 0x0704 => [0xFFFFFFC0]
  | 0x0705 => [0xFFFFFE00]
  | 0x0801 => [0xFFFFFFFE, 0xFF000000]
  | 0x0802 => [0xFFFEE000, 0xFFFF0000]
  | 0x0803 => [0xFFFFF8C0, 0x0000F000, 0xFFFFFE00] ++ (List.range (fld p 2 8 0)).flatMap (fun _ => [0xFFFF0000, 0, 0])
  | 0x0804 => [0x0000FCC0]
  | 0x0805 => [0xFFFFFEC0, 0, 0xFFFFF000]
  | 0x0806 => [0xFFFEF000, 0xFFFF0000]
  | 0x0901 => [0xFFE0FE00, 0x0000F000, 0xFFFF0000, 0]
  | 0x0902 => [0xFFFEFE00]
  | 0x0903 => [0xFFF8FE00]
  | 0x0904 => [0xFFFFC8C0]
  | 0x0905 => [0xFFFEFE00]
  | 0x0A01 => [0, 0, 0xFFFFF000]
  | 0x0A02 => [0, 0xFFFFFC00, 0, 0xFF80FE00]
      ++ (List.range (fld p 3 22 16)).flatMap (fun i =>
        let k := fld p (4 + 8 * i) 1 0
        if k = 1 then [0xFFFFFFF0, 0, 0, 0xFFFFFE00, 0, 0, 0, 0] else [0xFFFFFFF0, 0xFFFFFFFF, 0xFFFFFFFF, 0xFFFFFFFF, 0, 0, 0, 0])
  | 0x0A03 => [0xFFFFFE00]
  | 0x0A04 => [0xFFFCF000, 0xFFFE0000, 0xFFFF0000, 0xFFFE0000]
  | 0x0A05 => [0xFFFCFE00, 0xFFFFF000]
  | 0x0B01 => if fld p 0 0 0 = 0 then [0xFFFFFFFE, 0xFC000000, 0xFFFFFFF8] else [0xFFFFFFFE, 0xFFFFF000, 0xFFFFFFC7]
  | 0x0B02 => [0xFFF8E000, 0xFFFF0000]
  | 0x0B03 => [0xFE800000, 0xFFFFFFFF]
  | 0x0B04 => [0xFFFF0000]
  | 0x0C01 => [0xFFFEF000, 0xFFFFFC00]
  | 0x0C02 => [0xFEC0F000, if fld p 0 24 24 = 0 then 0xFFFFFFFF else 0, 0, 0xFFFFFF00]
  | 0x0C03 => [0xFFFFF000]
  | 0x0D01 => [0xFFFFFFFC]
  | 0x0D04 => [0xFFFE00F8]
  | 0x0D05 => [0xFE00F800]
  | 0x0D06 => [0xFFFFFFFF]
  | 0x0D07 => [0xFFFFFF88]
  | 0x0E01 => [0xFFFFFFFE]
  | 0x0E02 => [0xFFFFFFFE]
  | 0x0E03 => [0xFFFFFFFE]
  | _ => []

/-- The offset of the first payload word with a non-zero reserved bit (R53, step 3). -/
def reservedBad (op : Nat) (p : List Word) : Option Nat :=
  let ms := reservedMasks op p
  ((List.range (min ms.length p.length)).find? (fun i => wnat p i &&& nth ms i ≠ 0)).map (4 * ·)

/-- The BAR2 range a command names (R52): offset and length in bytes, and the payload offset of its BAR2_OFFSET word. -/
def bulkRange (op ch : Nat) (p : List Word) : Nat × Nat × Nat :=
  if 12 ≤ ch then (0, 0, 0)
  else match op with
    | 0x0201 => (wnat p 1, wnat p 2, 4)
    | 0x0202 => (wnat p 3, 4 * fld p 2 12 0, 12)
    | 0x0403 => (wnat p 5, wnat p 6, 20)
    | 0x0A04 => (wnat p 4, if fld p 0 17 16 = 2 then 0 else 4 * fld p 3 16 0, 16)
    | 0x0A05 => (wnat p 2, if fld p 0 17 16 = 2 then 512 else 0, 8)
    | 0x0701 => (wnat p 1, wnat p 2, 4)
    | 0x0C02 => if fld p 0 24 24 = 1 then (wnat p 1, wnat p 2, 4) else (0, 0, 0)
    | 0x0E01 => (wnat p 1, wnat p 2, 4)
    | _ => (0, 0, 0)

/-- Whether two byte ranges overlap; a range of length zero names nothing (R52). -/
def overlaps (a n b m : Nat) : Bool := 0 < n ∧ 0 < m ∧ a < b + m ∧ b < a + n

/-- Whether the bytes `[a, a + n)` of the bulk window meet a range locked by a channel other than `c` (R52). -/
def Hw.lockedFor (h : Hw) (c a n : Nat) : Bool :=
  h.ctl.chans.any (fun e => e.1 ≠ c && (match e.2.cur with | some r => overlaps a n r.lockOff r.lockLen | none => false))

/-- The bytes of the bulk window's SRAM (R52). -/
def bulkSize : Nat := 16 * 2 ^ 20

/-- Commands served in RETIRED (Table 2.17). -/
def retiredServes (op : Nat) : Bool := op = 0x0001 ∨ op = 0x0E04

/-- The life-cycle limits of a command (step 5 of R53): Table 2.17 and the rules R335, R449 and R477. -/
def lifecycleBad (op : Nat) (lc : Lc) : Bool :=
  match lc with
  | .retired => ¬ retiredServes op
  | .manufacture => false
  | .provisioned => op = 0x0A05 ∨ op = 0x0B02 ∨ op = 0x0701
  | .inService => op = 0x0B02
  | .maintenance => false

/-- The envelope checks, steps 1 to 5 of R53, and the lock of R52: the failure, or none. In RECOVERY the boot ROM serves three commands (R51). (DESIGN CHOICE, log 114, unsafe.) -/
def envelopeFail (fz : Fuses) (h : Hw) (c : Nat) (r : Request) : Option Fail :=
  let op := r.opcode
  let len := r.payloadLen
  let p := r.payload
  let (off, n, at_) := bulkRange op c p
  if h.ctl.phase = .recovery ∧ ¬ [0x0001, 0x0E01, 0x0E04].contains op then some (stRecovery, 0)
  else if ¬ opcodes.contains op then some (stUnknown, 0)
  else if len % 4 ≠ 0 ∨ 4080 < len ∨ ¬ lengthOk op c p len then some (stBadLength, payloadLen op c p)
  else if fld r.words 1 31 18 ≠ 0 then some (stInvalid, 0x8004)
  else if (wnat r.words 3) ≠ 0 then some (stInvalid, 0x800C)
  else match reservedBad op p with
    | some o => some (stInvalid, o)
    | none =>
      if (r.stageOnly ∧ r.atTick) ∨ ((r.stageOnly ∨ r.atTick) ∧ ¬ configures op) then some (stInvalid, 0x8004)
      else if mcOnly op ∧ c < 12 then some (stNotPermitted, 0)
      else if lifecycleBad op fz.lc then some (stLifecycle, fz.lc.code)
      else if 0 < n ∧ (bulkSize < off + n ∨ h.lockedFor c off n) then some (stInvalid, at_)
      else none

/-- The bulk range that a request of a channel locks from its ring until its completion (R52): what it names, where that lies in the window and meets no range locked by
another channel. -/
def Hw.locks (h : Hw) (c : Nat) (r : Request) : Request :=
  let (off, n, _) := bulkRange r.opcode c r.payload
  if 0 < n ∧ (bulkSize < off + n ∨ h.lockedFor c off n) then r else { r with lockOff := off, lockLen := n }

/-- A request that no firmware can take yet is latched (R51, R472); the lock of its range begins. -/
def Hw.latch_ (h : Hw) (c : Nat) (r : Request) : Hw :=
  h.modChan c (fun x => { x with busy := true, ready := false, cur := some { h.locks c r with latched := true }, reply := none })

/-- A request is taken into execution on a channel (R44, R50, R53, R54): BUSY is set and RESPONSE_READY cleared; a repeated non-zero SEQ_TAG gets
the stored response; a request that fails the envelope checks gets its failure; any other waits for its command. -/
def Hw.accept (fz : Fuses) (h : Hw) (c : Nat) (r : Request) : Hw :=
  let x := h.chan c
  let h := h.modChan c (fun x => { x with busy := true, ready := false, cur := some r, reply := none })
  if r.seqTag ≠ 0 ∧ r.seqTag = x.lastSeqTag ∧ x.resp ≠ [] then
    h.modChan c (fun y => { y with cur := some { r with waiting := false }, reply := some x.resp })
  else match envelopeFail fz h c r with
    | some (st, d) => h.reply c st d
    | none => h.modChan c (fun y => { y with cur := some (h.locks c r) })

/-! ### Commit ticks (R58, R89) -/

/-- The slot now in progress, counted from tick 0. -/
def Hw.slotNow (h : Hw) : Nat := 128 * h.time.tick + h.time.slot

/-- The first eligible tick for a request: a tick to come, at least 8 slots after the slot the request arrived in (R58). (DESIGN CHOICE, log 101, unsafe; DEDUCED, log 107, unsafe.) -/
def Hw.firstEligible (h : Hw) (arrived : Nat) : Nat := max (h.time.tick + 1) (cdiv (arrived + 8) 128)

/-- Whether a tick to come is an alignment boundary (R73): its BASE_COUNT is a multiple of 32. -/
def Hw.boundaryTick (h : Hw) (t : Nat) : Bool := (h.time.base + (t - h.time.tick) * h.time.mult) % 32 = 0

/-- The first tick from `t` on that is an alignment boundary: boundaries lie at most 32 ticks apart. -/
def Hw.nextBoundary (h : Hw) (t : Nat) : Nat := ((List.range 33).find? (fun k => h.boundaryTick (t + k))).elim t (t + ·)

/-- The tick a firmware handover is set for (R64). -/
def Hw.handoverTick (h : Hw) : Option Nat := h.ctl.activation.bind (·.atTick)

/-- The commit tick of a staging set, or the failure (R58, R64, R89). -/
def Hw.commitTick (h : Hw) (arrived target : Nat) (set : List Staged) : Nat ⊕ Fail :=
  let needBoundary := set.any (fun s => s.opcode = 0x0101)
  let first := h.firstEligible arrived
  if target = 0 then
    let t := if needBoundary then h.nextBoundary first else first
    if h.handoverTick = some t then .inl (if needBoundary then h.nextBoundary (t + 1) else t + 1) else .inl t
  else
    let d := (target + 2 ^ 32 - h.time.tick % 2 ^ 32) % 2 ^ 32
    let t := h.time.tick + d
    if t < first ∨ 2 ^ 24 < d then .inr (stTickPassed, 0)
    else if needBoundary ∧ ¬ h.boundaryTick t then .inr (stInvalid, 0x8008)
    else if h.handoverTick = some t then .inr (stHandover, 0)
    else .inl t

/-- The zero rules of R57: the configuring commands that change nothing and complete at once. -/
def changesNothing (op : Nat) (p : List Word) : Bool :=
  match op with
  | 0x0202 => fld p 2 12 0 = 0
  | 0x0301 => fld p 1 15 8 = 0 ∧ fld p 0 1 1 = 0
  | 0x0A04 => fld p 0 17 16 = 0 ∧ fld p 3 16 0 = 0
  | 0x0503 => wnat p 1 = 0
  | 0x0D07 => fld p 0 2 2 = 0 ∧ fld p 0 6 6 = 0
  | _ => false

/-- Stage a command, or stage it and set the commit of the whole set (R57). -/
def Hw.stage (h : Hw) (c : Nat) (r : Request) (bulk : List Byte) (out : List Word := []) : Hw :=
  let set := (h.chan c).staging
  if 256 ≤ set.length then h.reply c stStagingFull 0
  else
    let st : Staged := { opcode := r.opcode, words := r.payload, bulk := bulk, stamp := h.ctl.commits }
    let set' := set ++ [st]
    if r.stageOnly then (h.modChan c (fun x => { x with staging := set' })).reply c stStaged set.length out
    else match h.commitTick r.arrived (if r.atTick then r.target else 0) set' with
      | .inr (s, d) => h.reply c s d
      | .inl t => h.modChan c (fun x => { x with staging := set', due := some { tick := t, named := r.atTick && decide (r.target ≠ 0) },
                                                 cur := x.cur.map (fun r => { r with waiting := false, out := out }) })

/-- Run the request of a channel when it waits for this command: the meaning of a command's row. A row that names another command than the one in
execution, a channel with none, a latched request (R51) and the time without an active management processor (R472) change nothing. -/
def Hw.withRequest (h : Hw) (c op : Nat) (f : Request → Hw) : Hw :=
  if h.faults.mpLost then h
  else match (h.chan c).cur with
    | some r => if r.waiting ∧ ¬ r.latched ∧ r.opcode = op then f r else h
    | none => h

/-- A command that configures (R57): its own checks, its zero rule, then staging. The checks see the payload and the bytes it reads from BAR2. -/
def Hw.configure (h : Hw) (c op : Nat) (check : List Word → List Byte → Option Fail) (out : List Word → List Word := fun _ => []) : Hw :=
  h.withRequest c op (fun r =>
    let p := r.payload
    let (off, n, _) := bulkRange op c p
    let bulk := memReadList 0 h.ctl.bulk off n
    match check p bulk with
    | some (s, d) => h.reply c s d
    | none => if changesNothing op p then h.reply c stOk 0 (out p) else h.stage c r bulk (out p))

/-- A command that answers at once: what it makes of the hardware, its status, its DETAIL and its response payload. -/
def Hw.answer (h : Hw) (c op : Nat) (f : List Word → Hw × Nat × Nat × List Word) : Hw :=
  h.withRequest c op (fun r => let (h', s, d, out) := f r.payload; h'.reply c s d out)

/-- The failure of a command, with nothing changed (R56). -/
def Hw.refuse (h : Hw) (f : Fail) : Hw × Nat × Nat × List Word := (h, f.1, f.2, [])

end Sys2Proof.Machine
end

