-- ==== Sys2Proof/Machine/Link.lean ====
section
/-!
DEFINITION. The link layer of a port: link blocks received and sent, acknowledgement and replay, credits, LINK_PARAMS, and packets taken out
of and put into units (R102 to R115).
-/

namespace Sys2Proof

/-! ### Link block fields (Table 4.7) -/

def LinkBlock.kind (b : LinkBlock) : Nat := bits b.h0.toNat 31 30
def LinkBlock.replay (b : LinkBlock) : Bool := b.h0.getLsbD 29
def LinkBlock.unit0Kind (b : LinkBlock) : Nat := bits b.h0.toNat 28 27
def LinkBlock.firstStart (b : LinkBlock) : Nat := bits b.h0.toNat 26 20
def LinkBlock.lseq (b : LinkBlock) : Nat := bits b.h0.toNat 15 0
def LinkBlock.ackSeq (b : LinkBlock) : Nat := bits b.h1.toNat 31 16
def LinkBlock.ackValid (b : LinkBlock) : Bool := b.h1.getLsbD 15
def LinkBlock.nak (b : LinkBlock) : Bool := b.h1.getLsbD 14
def LinkBlock.pair (b : LinkBlock) : Bool := b.h1.getLsbD 13
def LinkBlock.freedA (b : LinkBlock) : Nat := bits b.h2.toNat 31 16
def LinkBlock.freedB (b : LinkBlock) : Nat := bits b.h2.toNat 15 0

/-- A unit, filled with zeros to 64 bytes. -/
def padUnit (u : List Byte) : List Byte := (u ++ List.replicate 64 0).take 64

def LinkBlock.unitAt (b : LinkBlock) (u : Nat) : List Byte := padUnit (b.units.getD u [])

/-- Bytes 0 to 4,107 of a link block (R103). -/
def LinkBlock.bytes (b : LinkBlock) : List Byte :=
  beBytes b.h0 ++ beBytes b.h1 ++ beBytes b.h2 ++ (List.range 64).flatMap b.unitAt

/-- A block is good when its CRC is correct and no field of it is one that Table 4.7 treats as a CRC failure. -/
def LinkBlock.good (b : LinkBlock) : Bool :=
  crc32 b.bytes = b.crc.toNat ∧ (b.kind = 1 ∨ b.kind = 2) ∧ b.unit0Kind ≠ 3 ∧ b.firstStart ≤ 64

/-- The block with its CRC made right. -/
def LinkBlock.seal (b : LinkBlock) : LinkBlock := { b with crc := w32 (crc32 b.bytes) }

/-- The bytes a packet fills, in whole units (R105). -/
def Pkt.unitBytes (p : Pkt) : List Byte :=
  let l := p.bytes
  l ++ List.replicate (cdiv l.length 64 * 64 - l.length) 0

end Sys2Proof

namespace Sys2Proof.Machine
open Sys2Proof

/-! ### Receiving (R105, R106, R109) -/

/-- Add to a per-class count modulo 2^32. (DEDUCED, log 29, unsafe.) -/
def addMod (l : List Nat) (c n : Nat) : List Nat := lmod 0 l c (fun v => (v + n) % 2 ^ 32)

/-- The port frees cells for credit return (R113). -/
def Hw.freeCells (h : Hw) (p c n : Nat) : Hw := h.modLink p (fun k => { k with freed := addMod k.freed c n })

/-- A packet's last byte has arrived: its cells are counted received (R112) and it counts in RX_PACKETS and RX_BYTES (R151). -/
def Hw.rxCount (h : Hw) (p : Nat) (q : Pkt) : Hw :=
  let h := h.modLink p (fun k => { k with recvCells := addMod k.recvCells q.cls q.cells, lastCls := q.cls })
  (h.count p 0).count p 1 (68 + q.len)

/-- Which delineation check a header fails (R106): the counter, or none. -/
def badHeader (u : List Byte) : Option Nat :=
  let w := beWords u
  if fld w 0 31 28 ≠ 1 then some 4
  else if hdrParity w ≠ fld w 15 7 0 then some 5
  else if 8192 < fld w 0 15 0 ∨ fld w 0 15 0 % 4 ≠ 0 then some 6
  else none

/-- One accepted unit of packet data while delineation holds. -/
def Hw.rxUnit (h : Hw) (p : Nat) (u : List Byte) : Hw :=
  let k := (h.port p).link
  if k.rxPart = [] then
    if fld (beWords u) 0 31 28 = 0 then h
    else match badHeader u with
      | some c => ((h.count p c).count p 7).modLink p (fun k => { k with lost := true, lostUnits := 1 })
      | none => h.modLink p (fun k => { k with rxPart := u })
  else
    let l := k.rxPart ++ u
    let n := fld (beWords (l.take 4)) 0 15 0
    if l.length < 64 * cdiv (68 + n) 64 then h.modLink p (fun k => { k with rxPart := l })
    else
      let q := pktOfBytes l
      (h.rxCount p q).modLink p (fun k => { k with rxPart := [], rxWhole := k.rxWhole ++ [q] })

/-- Unit i of an accepted block. Units discarded after a lost delineation are counted, up to the start that the block's FIRST_START names; the count's
cells go to the class of the last packet delineated (R106). A block that lost delineation itself does not end the loss. -/
def Hw.rxSlot (b : LinkBlock) (began : Bool) (p : Nat) (h : Hw) (i : Nat) : Hw :=
  if i = 0 ∧ b.unit0Kind ≠ 0 then h
  else
    let k := (h.port p).link
    if ¬ k.lost then h.rxUnit p (b.unitAt i)
    else if began ∧ b.firstStart = i then
      let n := cdiv k.lostUnits 4
      let h := h.modLink p (fun k => { k with lost := false, lostUnits := 0, rxPart := [], recvCells := addMod k.recvCells k.lastCls n })
      (h.freeCells p k.lastCls n).rxUnit p (b.unitAt i)
    else h.modLink p (fun k => { k with lostUnits := k.lostUnits + 1 })

/-- The units of an accepted block, and the marker or notice of its unit 0, which a replayed block does not show (R107). -/
def Hw.rxUnits (h : Hw) (p : Nat) (b : LinkBlock) : Hw :=
  let began := (h.port p).link.lost
  (List.range 64).foldl (Hw.rxSlot b began p) h

/-- The marker or notice that unit 0 holds waits for its own command. -/
def Hw.rxUnit0 (h : Hw) (p : Nat) (b : LinkBlock) : Hw :=
  if b.replay then h
  else match b.unit0Kind with
    | 1 => h.modLink p (fun k => { k with rxMarker := some (beWords (b.unitAt 0)) })
    | 2 => h.modLink p (fun k => { k with rxNotice := some (beWords (b.unitAt 0)) })
    | _ => h

/-! ### Acknowledgements and credits received (R110, R113, R114) -/

/-- The kept blocks that an acknowledgement up to `a` does not cover. -/
def unacked (kept : List Kept) (a : Nat) : List Kept := kept.filter (fun q => 512 ≤ (a + 2 ^ 16 - q.lseq) % 2 ^ 16)

/-- The link delay in cycles: the mean of the exchanges of the last 64 ticks (R76). -/
def Link.delay (k : Link) (now : Nat) : Int :=
  let l := (k.delays.filter (fun d => now < d.1 + 64)).map (·.2)
  if l = [] then 0 else l.sum / l.length

/-- REPLAY_TIMEOUT in TBCLK cycles (R110): 2·d + 2 µs, or 24 µs until d is measured. -/
def Link.replayTimeout (k : Link) (now : Nat) : Nat := if k.delays = [] then 31458 else (2 * k.delay now).toNat + 2622

/-- Whether a NAK is acted on (R110): its ACK_SEQ differs from that of the last one acted on, or REPLAY_TIMEOUT has passed since. `now` and the time kept with a NAK count in 64 cycles. -/
def Link.nakActs (k : Link) (a now timeout : Nat) : Bool :=
  match k.lastNak with
  | some (b, t) => decide (a ≠ b) || decide (timeout ≤ 64 * (now - t))
  | none => true

/-- Act on a block's acknowledgement fields (R110). -/
def Hw.takeAck (h : Hw) (p : Nat) (b : LinkBlock) : Hw :=
  let now := h.quietNow
  h.modLink p (fun k =>
    if b.nak then
      let acts := k.nakActs b.ackSeq now (k.replayTimeout h.time.tick)
      let k := { k with kept := unacked k.kept b.ackSeq }
      if acts then { k with lastNak := some (b.ackSeq, now), replayFrom := some ((b.ackSeq + 1) % 2 ^ 16) } else k
    else if b.ackValid then { k with kept := unacked k.kept b.ackSeq }
    else k)

/-- One FREED field: delta cells go back from outstanding to held, or LINK_CREDIT_ERROR is raised and the link retrains (R113, R114). -/
def Hw.takeFreed (h : Hw) (p c v : Nat) : Hw :=
  let k := (h.port p).link
  let delta := (v + 2 ^ 16 - nth k.lastFreed c % 2 ^ 16) % 2 ^ 16
  if nth k.outstanding c < delta then (h.strikeReport 0x903 (unitNo 14 p) [w32 p, w32 c, w32 delta]).fastRetrain p false
  else h.modLink p (fun k => { k with
    lastFreed := k.lastFreed.set c v, outstanding := lmod 0 k.outstanding c (· - delta), held := lmod 0 k.held c (· + (delta : Int)) })

def Hw.takeCredits (h : Hw) (p : Nat) (b : LinkBlock) : Hw :=
  let c := if b.pair then 2 else 0
  (h.takeFreed p c b.freedA).takeFreed p (c + 1) b.freedB

/-- A link block arrives at the link layer (R109): the fields of a good block, then its units when it is the one expected. -/
def Hw.linkReceive (h : Hw) (p : Nat) (b : LinkBlock) : Hw :=
  if ¬ b.good then h.modLink p (fun k => { k with nak := true })
  else
    let h := (h.takeAck p b).takeCredits p b
    let k := (h.port p).link
    let h := h.modLanes p (fun l => { l with heardBlock := true })
    if b.kind = 2 then h.rxUnit0 p b
    else if b.lseq = k.expect then
      let h := h.modLanes p (fun l => { l with idleCount := 0 })
      ((h.modLink p (fun k => { k with expect := (k.expect + 1) % 2 ^ 16, ackValid := true, nak := false })).rxUnits p b).rxUnit0 p b
    else
      let behind := (k.expect + 2 ^ 16 - b.lseq) % 2 ^ 16
      if 1 ≤ behind ∧ behind ≤ 512 then h else h.modLink p (fun k => { k with nak := true })

/-- LINK_BLOCK_RECEIVE (R109, R412). A port whose transmitter has started data comes UP with the first block it accepts; a port with no alignment
takes no block, and a sleeping receiver wakes by RX_WAKE. -/
def execLinkBlockReceive (port : Nat) (blk : LinkBlock) : State → Out := atUnit port 264 <| onHw (fun _ h =>
  let l := (h.port port).lanes
  if h.inLehr ∨ ¬ l.rxData ∨ l.rxAsleep then h
  else
    let h := h.linkReceive port blk
    let l := (h.port port).lanes
    if (l.state = 1 ∨ l.state = 3) ∧ l.txData ∧ l.rxData ∧ l.heardBlock then h.linkUp port else h)

/-! ### Sending (R104, R105, R107, R110) -/

/-- The acknowledgement and credit words of the next block (R104, R109). -/
def Link.ackWords (k : Link) : Word × Word :=
  let c := if k.pairBit then 2 else 0
  (w32 ((k.expect + 2 ^ 16 - 1) % 2 ^ 16 * 2 ^ 16 + b2n k.ackValid * 2 ^ 15 + b2n k.nak * 2 ^ 14 + b2n k.pairBit * 2 ^ 13),
   w32 (nth k.shown c % 2 ^ 16 * 2 ^ 16 + nth k.shown (c + 1) % 2 ^ 16))

/-- The tick marker unit (Table 4.8). OFFSET, the clock cycles since the edge, is an open value of the model. (DESIGN CHOICE, log 30, safe.) -/
def markerUnit (t : TimeSt) (k : Link) (offset : Nat) : List Byte :=
  let ws := [w32 (t.mult * 2 ^ 16 + offset % 2 ^ 16), w32 t.tick, w32 (t.tick / 2 ^ 32), w32 (k.markerTick.getD 0), w32 k.markerRx,
    w32 (b2n k.markerTick.isSome + 2)] ++ (List.range 4).map (fun c => w32 (nth k.sentLatch c)) ++ List.replicate 5 0
  let l := ws.flatMap beBytes
  l ++ beBytes (w32 (crc32 l))

/-- Fill the units of a block from the packets being framed: the units, the packets left, those with a unit here and those whose last unit is here. -/
def fillUnits : Nat → List TxPkt → List (List Byte) × List TxPkt × List Pkt × List Pkt
  | 0, q => ([], q, [], [])
  | _ + 1, [] => ([], [], [], [])
  | n + 1, t :: q =>
    let rest := t.rest.drop 64
    let (us, q', in_, out) := fillUnits n (if rest = [] then q else { t with rest := rest, started := true } :: q)
    (t.rest.take 64 :: us, q', if in_.head? = some t.pkt ∧ rest ≠ [] then in_ else t.pkt :: in_, if rest = [] then t.pkt :: out else out)

/-- FIRST_START of a block whose first free unit is `off` (R105): the packet under way runs on first. -/
def firstStartOf (off : Nat) (q : List TxPkt) : Nat :=
  match q with
  | t :: _ => if t.started then min 64 (off + cdiv t.rest.length 64) else off
  | [] => off

/-- A packet's last unit is first transmitted: SENT_CELLS, TX_PACKETS and TX_BYTES (R112, R151). -/
def Hw.txCount (p : Nat) (h : Hw) (q : Pkt) : Hw :=
  let h := h.modLink p (fun k => { k with sentCells := addMod k.sentCells q.cls q.cells })
  (h.count p 2).count p 3 (68 + q.len)

/-- Management messages start after the packet under way, while TC3 credits last (R190). (DEDUCED, log 28, unsafe.) -/
def Link.admitMgmt (k : Link) : Link :=
  match k.txMgmt with
  | [] => k
  | q :: rest =>
    if k.held.getD 3 0 < (q.cells : Int) then k
    else
      let t : TxPkt := { pkt := q, rest := q.unitBytes }
      let on := k.txPkts.takeWhile (·.started)
      { k with txMgmt := rest, txPkts := on ++ [t] ++ k.txPkts.drop on.length,
               held := lmod 0 k.held 3 (· - (q.cells : Int)), outstanding := lmod 0 k.outstanding 3 (· + q.cells) }

/-- Whether a port returns no credits now: in the safe state (R467), or while it moves (R145). -/
def Hw.withholds (h : Hw) (p : Nat) : Bool := h.faults.state = .safe ∨ (h.port p).withhold ∨ h.power.lehr.withhold

/-- Send the next new block of a port: SEQUENCED when a packet is there and fewer than 512 blocks are kept, else NULL (R104). In the safe state only
NULL blocks are sent (R467). FREED shows the freed cells, except while the port withholds its credits. -/
def Hw.sendBlock (h : Hw) (p : Nat) : Hw :=
  let safe := decide (h.faults.state = .safe)
  let hold := h.withholds p
  let h := h.modLink p (fun k =>
    let k := if hold then k else { k with shown := k.freed }
    if safe then k else k.admitMgmt)
  let (h, off) := h.draw
  let k := (h.port p).link
  let v16 := h.isV16 p
  let (kind0, unit0) := if k.sendMarker ∧ ¬ v16 then (1, markerUnit h.time k off)
    else if k.sendNotice ≠ 0 then (2, padUnit (beBytes (w32 (k.sendNotice * 2 ^ 24))))
    else (0, [])
  let used := if kind0 = 0 then 0 else 1
  let seqd := decide (k.txPkts ≠ [] ∧ k.kept.length < 512 ∧ ¬ safe)
  let (h1, h2) := k.ackWords
  let first := if seqd then firstStartOf used k.txPkts else used
  let (us, rest, inside, ended) := if seqd then fillUnits (64 - used) k.txPkts else ([], k.txPkts, [], [])
  let blk : LinkBlock := { h0 := w32 ((if seqd then 1 else 2) * 2 ^ 30 + kind0 * 2 ^ 27 + first * 2 ^ 20 + k.lseq), h1 := h1, h2 := h2,
                           units := (if used = 1 then [unit0] else []) ++ us, crc := 0 }
  let blk := blk.seal
  let cont := match k.txPkts with | t :: _ => t.started | [] => false
  let keep : Kept := { lseq := k.lseq, blk := blk, pkts := inside, cont := cont }
  let h := h.modLink p (fun k => { k with
    txPkts := rest, sentBlocks := [blk], pairBit := ¬ k.pairBit,
    sendMarker := if kind0 = 1 then false else k.sendMarker,
    sentMarks := if kind0 = 1 then ((h.time.tick % 2 ^ 32, off % 2 ^ 16) :: k.sentMarks).take 64 else k.sentMarks,
    sendNotice := if kind0 = 2 then 0 else k.sendNotice,
    lseq := if seqd then (k.lseq + 1) % 2 ^ 16 else k.lseq,
    kept := if seqd then k.kept ++ [keep] else k.kept })
  let h := h.modLanes p (fun l => { l with idleCount := if seqd then 0 else l.idleCount })
  ended.foldl (Hw.txCount p) h

/-- Kept blocks as they are resent: REPLAY one, with the acknowledgement and credit fields of now, CREDIT_PAIR alternating (R104). -/
def Link.resend (k : Link) : List Kept → List LinkBlock
  | [] => []
  | q :: rest =>
    let (h1, h2) := k.ackWords
    ({ q.blk with h0 := q.blk.h0 ||| w32 (2 ^ 29), h1 := h1, h2 := h2 } : LinkBlock).seal :: { k with pairBit := ! k.pairBit }.resend rest

/-- LINK_REPLAY (R110, R111): at the block boundary the kept blocks from the first asked for are resent in order with REPLAY one; a block that would
need a fourth resend raises LINK_REPLAY_EXHAUSTED and the port retrains with a substitution. -/
def execLinkReplay (port : Nat) : State → Out := atUnit port 264 <| onHw (fun _ h =>
  let k := (h.port port).link
  match if h.inLehr then none else k.replayFrom with
  | none => h
  | some n =>
    if ¬ k.up then h
    else
      let again (q : Kept) : Bool := (q.lseq + 2 ^ 16 - n) % 2 ^ 16 < 512
      let h := h.modLink port (fun k => { k with replayFrom := none })
      if k.kept.any (fun q => again q && decide (3 ≤ q.resent)) then
        (h.report 0x902 1 (unitNo 14 port) 3).fastRetrain port true
      else if k.kept.any again then
        let k := if h.withholds port then k else { k with shown := k.freed }
        let out := k.resend (k.kept.filter again)
        (h.report 0x901 0 (unitNo 14 port) 1).modLink port (fun x => { x with
          shown := k.shown, sentBlocks := out, pairBit := x.pairBit ^^ decide (out.length % 2 = 1),
          kept := x.kept.map (fun q => if again q then { q with resent := q.resent + 1 } else q) })
      else h)

/-- REPLAY_TIMEOUT (R110): kept blocks exist and no acknowledgement has advanced; the port replays as on a NAK, and the last NAK is forgotten. A
partner that sleeps stops the timeout (R426). -/
def execReplayTimeout (port : Nat) : State → Out := atUnit port 264 <| onHw (fun _ h =>
  let x := h.port port
  if h.inLehr ∨ x.lanes.rxAsleep ∨ ¬ x.link.up then h
  else h.modLink port (fun k => match k.kept with
    | [] => k
    | q :: _ => { k with lastNak := none, replayFrom := some q.lseq }))

/-! ### LINK_PARAMS and notices (R102, R108, R113) -/

/-- The head of the packets received whole is this one, or it arrives now. -/
def Hw.arrive (h : Hw) (p : Nat) (q : Pkt) : Hw :=
  if (h.port p).link.rxWhole.head? = some q then h.modLink p (fun k => { k with rxWhole := k.rxWhole.drop 1 })
  else h.rxCount p q

/-- The content of a LINK_PARAMS message is taken (R102, R113): credits are re-based, and a PARAMS_SEQ not heard before is answered
at the next latch. -/
def Hw.takeParams (h : Hw) (p : Nat) (q : Pkt) : Hw :=
  let w := beWords q.payload
  let limits := (List.range 4).map (fun c => fld w (2 + c) 15 0)
  let seq := fld w 1 31 16
  if q.payload.length ≠ 40 ∨ fld w 0 31 24 ≠ 1 ∨ seq = 0 ∨ limits.any (16383 < ·) then h.count p 14
  else
    let k := (h.port p).link
    let limits := lmod 0 limits 3 (fun v => if v = 0 then 8 else v)
    let out := (List.range 4).map (fun c => (nth k.sentCells c + 2 ^ 32 - wnat w (6 + c)) % 2 ^ 32)
    let h := h.modLink p (fun k => { k with
      partnerParams := seq, partnerMarkers := fld w 0 0 0 = 1, partnerLimit := limits,
      outstanding := out, held := (List.range 4).map (fun c => (nth limits c : Int) - (nth out c : Int)),
      lastFreed := (List.range 4).map (fun c => wnat w (6 + c) % 2 ^ 16),
      paramsEchoed := k.paramsEchoed || (fld w 1 15 0 = k.paramsSeq), paramsOwed := k.paramsOwed || decide (seq ≠ k.partnerParams) })
    h.modPort p (fun x => { x with window := x.window && ! x.link.paramsEchoed })

/-- The link-layer checks after a packet's last byte (R115), in order: the counter of the first that fails. A packet without credit is dropped as it
arrives (R114): it holds its own cells and those of the packets before it. -/
def Hw.linkCheck (h : Hw) (p : Nat) (q : Pkt) : Option Nat :=
  let x := h.port p
  let after := ((x.link.rxWhole.filter (fun r => r.cls = q.cls)).map (·.cells)).sum
  let holds := (nth x.link.recvCells q.cls + 2 ^ 32 - nth x.link.freed q.cls) % 2 ^ 32 - after
  let lim := max (nth x.limits.reserveCredit q.cls) (nth x.limits.reserveMoved q.cls)
  let lim := if q.cls = 3 then max lim 8 else if h.isV16 p ∧ q.cls = 1 then 0 else lim
  if lim < holds then some 12
  else if q.trailer.toNat ≠ q.crc then some 8
  else if q.ptype = 0 ∨ 9 < q.ptype then some 9
  else if q.cls ≠ typeClass q.ptype then some 10
  else if q.ptype = 4 ∧ 256 < q.len then some 11
  else none

/-- A LINKMGMT packet received whole: checked, consumed and freed (R118). -/
def Hw.recvParams (h : Hw) (p : Nat) (q : Pkt) : Hw :=
  let h := match h.linkCheck p q with
    | some c => h.count p c
    | none => h.takeParams p q
  h.freeCells p q.cls q.cells

/-- LINK_PARAMS_RECEIVE (R113): a LINKMGMT packet arrives at a port that is up. -/
def execLinkParamsReceive (port : Nat) (pkt : Pkt) : State → Out := atUnit port 264 <| onHw (fun _ h =>
  if h.inLehr ∨ ¬ (h.port port).link.up ∨ pkt.ptype ≠ 6 then h else (h.arrive port pkt).recvParams port pkt)

/-- LINK_NOTICE_RECEIVE (R108, R415, R425): TX_SLEEP tells that the partner's coming loss of signal is sleep; RETRAIN_REQUEST makes this end retrain. -/
def execLinkNoticeReceive (port : Nat) (unit : List Word) : State → Out := atUnit port 264 <| onHw (fun _ h =>
  if h.inLehr ∨ ¬ (h.port port).link.up then h
  else
    let h := h.modLink port (fun k => { k with rxNotice := none })
    match fld unit 0 31 24 with
    | 1 => h.modLanes port (fun l => { l with sleepHeard := true })
    | 2 => h.fastRetrain port false
    | _ => h)

end Sys2Proof.Machine
end

