-- ==== Sys2Proof/Machine/Lanes.lean ====
section
/-!
DEFINITION. The lanes of a port, bring-up, retrains, sleep and loops, and the external lasers (R405 to R432).
-/

namespace Sys2Proof.Machine
open Sys2Proof

/-! ### Bring-up (R408 to R414) -/

/-- ALL_RX_READY of a receive direction: every logical lane of its map is ready, and the port is not looped to itself (R412, R413). -/
def Lanes.readyNow (l : Lanes) : Bool :=
  mapWidth l.rxMap ≠ 0 ∧ ¬ l.looped
  ∧ (List.range (chanCount l)).all (fun i => 4 ≤ l.rxMap.getD i 7 || (l.chan i).ready)

def Lanes.settleReady (l : Lanes) : Lanes := { l with allReady := l.readyNow }

/-- The control field of a training frame (Table 14.3) is taken: version, kind and TF_CRC right. -/
def frameGood (f : List Word) : Bool :=
  fld f 0 31 28 = 1 ∧ 1 ≤ fld f 0 27 24 ∧ fld f 0 27 24 ≤ 3 ∧ crc16 ((f.flatMap beBytes).take 14) = fld f 3 15 0

/-- A good training frame on a channel (R408, R412, R413): lock, the partner's readiness, its map for this end's transmitter, its requests, and the
end of its READY frames, from which the receiver takes its alignment. A WAKE frame's end is taken by RX_WAKE. (DESIGN CHOICE, log 68, safe.) -/
def Hw.takeFrame (h : Hw) (p ch : Nat) (f : List Word) : Hw :=
  let l := (h.port p).lanes
  if fld f 0 20 20 ≠ b2n (h.isV16 p) then h.countLane p 7
  else if wnat f 2 = l.nonce ∧ l.loopMode = 0 then
    if l.looped then h.modLanes p Lanes.settleReady
    else ((h.countLane p 4).modLanes p (fun l => ({ l with looped := true }).settleReady)).raise 0x0907 [w32 p]
  else
    let m := mapOfWord (wnat f 1)
    let kind := fld f 0 27 24
    let tap := fld f 0 7 6
    h.modLanes p (fun l =>
      let l := l.modChan ch (fun c => { c with frames := min 3 (c.frames + 1), partnerReady := fld f 0 19 19 = 1, ack := fld f 0 1 0 })
      let l := { l with
        looped := false, partnerAll := fld f 0 18 18 = 1, txMap := if mapWidth m ≠ 0 then m else l.txMap,
        txTap := if tap = 0 then l.txTap else tap, txStep := if tap = 0 then l.txStep else fld f 0 5 2,
        rxData := l.rxData || (kind = 2 && fld f 1 15 8 = 0) }
      l.settleReady)

/-- TRAINING_FRAME_RECEIVE (R408): frames count while a port trains, and on a SPARE channel while it is up. -/
def execTrainingFrameReceive (port ch : Nat) (frame : List Word) : State → Out := atUnit port 264 <| onHw (fun _ h =>
  let l := (h.port port).lanes
  if h.inLehr ∨ chanCount l ≤ ch ∨ l.fenced.contains ch ∨ ¬ frameGood frame then h
  else if l.state = 1 ∨ l.state = 3 ∨ (l.state = 4 ∧ l.loopMode = 3) ∨ (l.state = 2 ∧ l.rxMap.getD ch 7 = 6) then h.takeFrame port ch frame
  else h)

/-- The knobs of R410: knob k > 0 is step k; odd steps raise and even steps lower setting (k − 1) / 2; settings 9 and 10 are the partner's. -/
def knobApply (s : List Int) (k : Nat) (sign : Int) : List Int :=
  lmod 0 s ((k - 1) / 2) (· + (if k % 2 = 1 then sign else -sign))

/-- One adaptation step of a channel (R410): the figure of merit measured over 16 frames judges the step under test, and the next step is applied. RX_READY holds while the channel is at or
above FOM_TARGET (Table 14.3). In service the receiver's own knobs move alone. -/
def RxChan.adapt (c : RxChan) (fom target : Nat) (inService : Bool) : RxChan :=
  let last := if inService then 18 else 22
  let c := { c with fom := min fom 255 }
  if target ≤ fom ∧ ¬ inService then { c with ready := true, good := 16 }
  else
  let c := if inService then c else { c with ready := false, good := 0 }
  if c.knob = 0 then { c with best := fom, knob := 1, improved := false, settings := knobApply c.settings 1 1 }
  else if last < c.knob then (if inService then { c with knob := 0 } else c)
  else
    let kept := decide (c.best + 2 ≤ fom) && (c.knob < 19 || c.ack = 1)
    let s := if kept then c.settings else knobApply c.settings c.knob (-1)
    let c := { c with best := if kept then fom else c.best, improved := c.improved || kept, settings := s }
    if c.knob < last then { c with knob := c.knob + 1, settings := knobApply s (c.knob + 1) 1 }
    else if c.improved then { c with knob := 1, improved := false, settings := knobApply s 1 1 }
    else { c with knob := last + 1 }

/-- ADAPT_STEP (R409, R410): a figure of merit measured on a channel. A channel without frame lock measures nothing. In service the ticks below
FOM_TARGET − 16 are counted (R415). -/
def execAdaptStep (port ch fom : Nat) : State → Out := atUnit port 264 <| onHw (fun _ h =>
  let l := (h.port port).lanes
  let target := fomTarget l
  if h.inLehr ∨ chanCount l ≤ ch ∨ l.fenced.contains ch then h
  else if (l.state = 1 ∨ l.state = 3) ∧ 3 ≤ (l.chan ch).frames then
    h.modLanes port (fun l => (l.modChan ch (fun c => c.adapt fom target false)).settleReady)
  else if l.state = 2 ∧ ¬ l.rxAsleep then
    h.modLanes port (fun l => l.modChan ch (fun c =>
      let c := c.adapt fom target true
      if fom + 16 < target then { c with lowTicks := c.lowTicks + 1 } else { c with lowTicks := 0, lowTold := false }))
  else h)

/-- READY_COUNTDOWN_END (R412): both ends are ready and this transmitter's 16 READY frames are sent; it starts data. The port is UP when its receiver
has accepted a block too. -/
def execReadyCountdownEnd (port : Nat) : State → Out := atUnit port 264 <| onHw (fun _ h =>
  let l := (h.port port).lanes
  if h.inLehr ∨ ¬ (l.state = 1 ∨ l.state = 3) ∨ ¬ l.allReady ∨ ¬ l.partnerAll then h
  else
    let h := h.modLanes port (fun l => { l with txData := true })
    if l.rxData ∧ l.heardBlock then h.linkUp port else h)

/-- Fence a receive channel and take a new map (R414, R416). -/
def Hw.fenceChannel (h : Hw) (p f : Nat) (m : List Nat) : Hw :=
  let l := (h.port p).lanes
  let src := if l.electrical then 0x905 else 0x904
  let u := if l.electrical then unitNo 7 (4 * (p - 256) + f) else unitNo 6 (5 * p + f)
  ((((h.report src 1 u 3).fence u src).modLanes p (fun l => ({ l with rxMap := m }).settleReady))).raise 0x0904 [w32 (p + f * 2 ^ 16), w32 (mapWord m)]

/-- TRAIN_TIMEOUT (R414): the spare takes a failed channel's lane, or the direction narrows, or the port waits to retry. -/
def execTrainTimeout (port : Nat) : State → Out := atUnit port 264 <| onHw (fun _ h =>
  let l := (h.port port).lanes
  if h.inLehr ∨ l.state ≠ 1 then h
  else
    let chans := List.range (chanCount l)
    let ready := chans.filter (fun i => (l.chan i).ready ∧ ¬ l.fenced.contains i)
    let failed := chans.find? (fun i => l.rxMap.getD i 7 < 4 ∧ ¬ (l.chan i).ready)
    let spare := chans.find? (fun i => l.rxMap.getD i 7 = 6 ∧ ready.contains i)
    match failed, spare with
    | some f, some sp => h.fenceChannel port f ((l.rxMap.set f 7).set sp (l.rxMap.getD f 7))
    | _, _ =>
      match narrowMap l ready with
      | some m => h.modLanes port (fun l => ({ l with rxMap := m }).settleReady)
      | none =>
        let best := chans.foldl (fun b i => max b (l.chan i).fom) 0
        (h.modLanes port (fun l => { l.unready with state := 5 })).raise 0x0903 [w32 (port + best * 2 ^ 16)])

/-- RETRY_EXPIRY (R414): after RETRY_MS the port trains again with every channel that is not fenced. -/
def execRetryExpiry (port : Nat) : State → Out := atUnit port 264 <| onHw (fun _ h =>
  if h.inLehr ∨ (h.port port).lanes.state ≠ 5 then h else h.blindBringUp port)

/-! ### In-service faults (R415 to R418) -/

/-- LOSS_OF_SIGNAL (R415, R416): a mapped channel that loses its signal starts a FAST retrain with its substitution; after a TX_SLEEP notice the loss
is sleep. -/
def execLossOfSignal (port ch : Nat) : State → Out := atUnit port 264 <| onHw (fun _ h =>
  let l := (h.port port).lanes
  if h.inLehr ∨ chanCount l ≤ ch ∨ l.state = 0 ∨ l.state = 5 then h
  else
    let h := h.modLanes port (fun l => (l.modChan ch (fun c => { c with los := true, ready := false, frames := 0 })).settleReady)
    if 4 ≤ l.rxMap.getD ch 7 then h
    else if l.state = 2 ∧ l.sleepHeard then h.modLanes port (fun l => { l with rxAsleep := true })
    else if l.state = 2 then h.fastRetrain port true
    else if l.state = 3 then h.substituteChannel port false
    else h)

/-- ALL_CHANNELS_LOST (R418): the port becomes absent at once, no channel is fenced, and it brings itself up afresh. -/
def execAllChannelsLost (port : Nat) : State → Out := atUnit port 264 <| onHw (fun _ h =>
  let l := (h.port port).lanes
  if h.inLehr ∨ ¬ (l.state = 2 ∨ l.state = 3) then h
  else if l.state = 2 ∧ l.sleepHeard then h.modLanes port (fun l => { l with rxAsleep := true })
  else h.linkLost port 3)

/-- RETRAIN_LIMIT_EXPIRY (R417): a FAST retrain that has not come UP in time ends; the port becomes absent. -/
def execRetrainLimitExpiry (port : Nat) : State → Out := atUnit port 264 <| onHw (fun _ h =>
  if h.inLehr ∨ (h.port port).lanes.state ≠ 3 then h else h.linkLost port 2)

/-- LANE_FOM_LOW (R415): raised once for a channel that has been low for 64 consecutive ticks. -/
def execLaneFomLow (port ch : Nat) : State → Out := atUnit port 264 <| onHw (fun _ h =>
  let l := (h.port port).lanes
  let c := l.chan ch
  if h.inLehr ∨ chanCount l ≤ ch ∨ l.state ≠ 2 ∨ c.lowTicks < 64 ∨ c.lowTold then h
  else (h.modLanes port (fun l => l.modChan ch (fun c => { c with lowTold := true }))).report 0x908 0 (unitNo 14 port) 0 [w32 port, w32 ch])

/-! ### Sleep and wake (R425 to R427) -/

/-- Whether anything waits to leave a port. -/
def Port.hasWork (x : Port) : Bool :=
  x.link.txPkts ≠ [] || x.link.txMgmt ≠ [] || x.queues.any (fun e => e.2.entries ≠ [])

/-- The transmitter sends its TX_SLEEP notice in a NULL block and stops, its SPARE channel too (R425). -/
def Hw.sleepTx (h : Hw) (port : Nat) : Hw :=
  let k := (h.port port).link
  let (h1, h2) := k.ackWords
  let blk : LinkBlock := { h0 := w32 (2 * 2 ^ 30 + 2 * 2 ^ 27 + 2 ^ 20 + k.lseq), h1 := h1, h2 := h2, units := [padUnit (beBytes (w32 (2 ^ 24)))], crc := 0 }
  ((h.modLink port (fun k => { k with sentBlocks := [blk.seal], pairBit := ¬ k.pairBit })).modLanes port (fun l => { l with txAsleep := true })).countLane port 8

/-- TX_SLEEP (R425): a transmitter that may sleep and has nothing to do. -/
def execTxSleep (port : Nat) : State → Out := atUnit port 264 <| onHw (fun _ h =>
  let x := h.port port
  let l := x.lanes
  if h.inLehr ∨ ¬ l.cfg.sleep ∨ l.state ≠ 2 ∨ l.txAsleep ∨ l.idleCount < l.cfg.idleSlots ∨ x.hasWork ∨ x.link.kept ≠ [] ∨ x.link.nak then h
  else h.sleepTx port)

/-- TX_WAKE (R427): a sleeping transmitter with something to send, or whose receiver has accepted a SEQUENCED block or entered the NAK state, wakes. -/
def execTxWake (port : Nat) : State → Out := atUnit port 264 <| onHw (fun _ h =>
  let x := h.port port
  if h.inLehr ∨ ¬ x.lanes.txAsleep ∨ ¬ (x.hasWork ∨ x.link.nak ∨ x.lanes.idleCount = 0) then h
  else (h.modLanes port (fun l => { l with txAsleep := false, idleCount := 0 })).countLane port 9)

/-- RX_WAKE (R427): the receive direction wakes with its kept settings; a channel below FOM_TARGET at the end of the WAKE frames starts a FAST retrain. -/
def execRxWake (port : Nat) : State → Out := atUnit port 264 <| onHw (fun _ h =>
  let l := (h.port port).lanes
  if h.inLehr ∨ ¬ l.rxAsleep then h
  else
    let h := h.modLanes port (fun l => { l with
      rxAsleep := false, sleepHeard := false, chans := l.chans.map (fun e => (e.1, { e.2 with los := false })) })
    if (List.range (chanCount l)).any (fun i => l.rxMap.getD i 7 < 4 ∧ (l.chan i).fom < fomTarget l) then h.fastRetrain port false else h)

/-! ### Lasers (R419 to R423) -/

/-- A module's input is lost: when both inputs of its PE are, every port of the PE becomes absent (R421). -/
def Hw.peLight (h : Hw) (m : Nat) (fault : Bool) : Hw :=
  let pe := m / 2
  if h.lasers.live.contains (2 * pe) ∨ h.lasers.live.contains (2 * pe + 1) then h
  else
    let h := if fault then h.report 0x907 1 (unitNo 15 (8 + pe)) 7 else h
    ((List.range 32).map (32 * pe + ·)).foldl (fun h p =>
      if (h.port p).lanes.state = 0 ∨ (h.port p).lanes.state = 4 then h else h.linkLost p 6) h

/-- LASER_INPUT_LIVE (R421): the input of an enabled module has held its power for 100 ms. -/
def execLaserInputLive (laser : Nat) : State → Out := atUnit laser 16 <| onHw (fun _ h =>
  if ¬ h.lasers.enabled.contains laser ∨ h.lasers.releasing.contains laser ∨ h.lasers.live.contains laser then h
  else ({ h with lasers := { h.lasers with live := h.lasers.live ++ [laser] } }).raise 0x0905 [w32 laser])

/-- LASER_NOT_READY (R421): an enabled module whose input has not become LIVE in 5 s. -/
def execLaserNotReady (laser : Nat) : State → Out := atUnit laser 16 <| onHw (fun _ h =>
  if ¬ h.lasers.enabled.contains laser ∨ h.lasers.releasing.contains laser ∨ h.lasers.live.contains laser then h else h.raise 0x0906 [w32 laser])

/-- LASER_INPUT_LOST (R421): the module is fenced and its LSRC_EN_N released; the other module carries the PE. -/
def execLaserInputLost (laser : Nat) : State → Out := atUnit laser 16 <| onHw (fun _ h =>
  if ¬ h.lasers.enabled.contains laser ∨ ¬ h.lasers.live.contains laser then h
  else ((h.report 0x906 1 (unitNo 8 laser) 3).fence (unitNo 8 laser) 0x906).peLight laser true)

/-! ### Lane commands (R428 to R431) -/

/-- The settings a LANE_CONFIG_SET names (Table 14.12). -/
def laneCfgOf (p : List Word) : LaneCfg := {
  enable := fld p 0 16 16 = 1, v16 := fld p 0 17 17 = 1, sleep := fld p 0 18 18 = 1, minWidth := fld p 0 20 19,
  fomTarget := fld p 1 7 0, preset := fld p 1 11 8, idleSlots := fld p 1 31 16, limitUs := fld p 2 15 0,
  timeoutMs := fld p 3 15 0, retryMs := fld p 3 31 16 }

def outside (v lo hi : Nat) : Bool := v ≠ 0 ∧ (v < lo ∨ hi < v)

def checkLaneConfig (p : List Word) : Option Fail :=
  let c := laneCfgOf p
  firstFail [failIf (263 < fld p 0 8 0) (bad 0), failIf (c.v16 ∧ fld p 0 8 0 < 256) (bad 0), failIf (c.minWidth = 3) (bad 0),
    failIf (outside c.fomTarget 16 224) (bad 4), failIf (c.sleep ∧ c.idleSlots = 0) (bad 4), failIf (outside c.limitUs 8 1000) (bad 8),
    failIf (outside c.timeoutMs 10 5000) (bad 12), failIf (outside c.retryMs 10 60000) (bad 12)]

/-- LANE_CONFIG_SET at its commit (R424, R430). -/
def applyLaneConfig (h : Hw) (p : List Word) : Hw :=
  let port := fld p 0 8 0
  let new := laneCfgOf p
  let l := (h.port port).lanes
  let old := l.cfg
  let now : LaneCfg := if l.state = 0 then new else { old with
    enable := new.enable, sleep := new.sleep, minWidth := new.minWidth, idleSlots := new.idleSlots, limitUs := new.limitUs }
  let h := h.modLanes port (fun l => { l with cfg := now, next := some new })
  if new.v16 ≠ old.v16 ∧ new.enable ∧ old.enable then h.linkLost port 4
  else if new.enable ∧ ¬ old.enable then (h.modLanes port (fun l => { l with stopTick := none })).blindBringUp port
  else if ¬ new.enable ∧ old.enable then h.modLanes port (fun l => { l with stopTick := some (h.time.tick + 1) })
  else h

/-- The lanes of a port that a commit disabled stop (R430). -/
def Hw.stopLanes (h : Hw) (p : Nat) : Hw :=
  (h.portAbsent p 1).modLanes p (fun l => { l.unready with state := 0, stopTick := none, cfg := l.next.getD l.cfg, next := none })

/-- What LANE_CONFIG_SET checks of its payload, beyond the envelope (R53). -/
def failLaneConfigSet (_fz : Fuses) (_h : Hw) (_ch : Nat) (p : List Word) (_bulk : List Byte) : Option Fail := checkLaneConfig p

/-- LANE_CONFIG_SET (R430). -/
def execLaneConfigSet (ch : Nat) : State → Out := atUnit ch 16 <| onHw (fun fz h => h.configure ch 0x0901 (failLaneConfigSet fz h ch))

def checkPortOnly (p : List Word) : Option Fail := failIf (263 < fld p 0 8 0) (bad 0)

/-- What LINK_TRAIN checks of its payload, beyond the envelope (R53). -/
def failLinkTrain (_fz : Fuses) (_h : Hw) (_ch : Nat) (p : List Word) (_bulk : List Byte) : Option Fail := checkPortOnly p

/-- LINK_TRAIN (R416, Table 14.13). -/
def execLinkTrain (ch : Nat) : State → Out := atUnit ch 16 <| onHw (fun fz h => h.configure ch 0x0902 (failLinkTrain fz h ch))

def applyLinkTrain (h : Hw) (p : List Word) : Hw :=
  let port := fld p 0 8 0
  if fld p 0 16 16 = 0 then h.fastRetrain port false else h.linkLost port 5

/-- What LOOPBACK_SET checks of its payload, beyond the envelope (R53). -/
def failLoopbackSet (_fz : Fuses) (_h : Hw) (_ch : Nat) (p : List Word) (_bulk : List Byte) : Option Fail :=
  firstFail [checkPortOnly p, failIf (fld p 0 17 16 = 3 ∧ fld p 0 18 18 = 1) (bad 0)]

/-- LOOPBACK_SET (R428). -/
def execLoopbackSet (ch : Nat) : State → Out := atUnit ch 16 <| onHw (fun fz h => h.configure ch 0x0903 (failLoopbackSet fz h ch))

def applyLoopback (h : Hw) (p : List Word) : Hw :=
  let port := fld p 0 8 0
  let mode := fld p 0 17 16
  if mode = 0 then h.modLanes port (fun l => { l with loopMode := 0, loopData := false, state := if l.state = 4 then 0 else l.state })
  else h.modLanes port (fun l => { l.unready with loopMode := mode, loopData := fld p 0 18 18 = 1, state := 4 })

/-- What LASER_CONTROL checks of its payload, beyond the envelope (R53). -/
def failLaserControl (_fz : Fuses) (h : Hw) (_ch : Nat) (p : List Word) (_bulk : List Byte) : Option Fail :=
  failIf (fld p 0 5 4 = 1 ∧ h.isFenced (unitNo 8 (fld p 0 3 0))) (some (stFenced, unitNo 8 (fld p 0 3 0)))

/-- LASER_CONTROL (R420). -/
def execLaserControl (ch : Nat) : State → Out := atUnit ch 16 <| onHw (fun fz h => h.configure ch 0x0904 (failLaserControl fz h ch))

def applyLaser (h : Hw) (p : List Word) : Hw :=
  let m := fld p 0 3 0
  let pe := fld p 0 10 8
  let h := if fld p 0 12 12 = 0 then h
    else { h with lasers := { h.lasers with high := if fld p 0 13 13 = 1 then (h.lasers.high.filter (· ≠ pe)) ++ [pe] else h.lasers.high.filter (· ≠ pe) } }
  match fld p 0 5 4 with
  | 0 => h
  | 1 => { h with lasers := { h.lasers with
      enabled := if h.lasers.enabled.contains m then h.lasers.enabled else h.lasers.enabled ++ [m], releasing := h.lasers.releasing.filter (· ≠ m) } }
  | _ =>
    let was := h.lasers.live.contains m
    let h := { h with lasers := { h.lasers with releasing := h.lasers.releasing.filter (· ≠ m) ++ [m], live := h.lasers.live.filter (· ≠ m) } }
    if was then h.peLight m false else h

/-- At slot 1 LSRC_EN_N of the modules that a commit disabled is released (Table 14.7). -/
def Hw.releaseLasers (h : Hw) : Hw :=
  { h with lasers := { h.lasers with enabled := h.lasers.enabled.filter (fun m => ! h.lasers.releasing.contains m), releasing := [] } }

/-- Pairs 0x0901 to 0x0903 on the state a set would make (Table 14.16). -/
def pairLanes (h : Hw) (op : Nat) (p : List Word) : Option Nat :=
  let l := (h.port (fld p 0 8 0)).lanes
  let cfg := l.next.getD l.cfg
  match op with
  | 0x0901 => if cfg.v16 ∧ cfg.sleep then some 0x0901 else if cfg.enable ∧ l.loopMode ≠ 0 then some 0x0902 else none
  | 0x0902 => if ¬ cfg.enable ∨ l.loopMode ≠ 0 then some 0x0902 else none
  | 0x0903 => if l.loopMode ≠ 0 ∧ cfg.enable then some 0x0902 else none
  | 0x0904 =>
    let o := fld p 0 3 0 ^^^ 1
    if fld p 0 5 4 = 2 ∧ ¬ (h.lasers.live.contains o ∧ ¬ h.isFenced (unitNo 8 o)) then some 0x0903 else none
  | _ => none

/-- The response of LANE_STATUS_GET (Table 14.15). The two powers measured at the PE's inputs are open values. (DESIGN CHOICE, log 65, safe.) -/
def Hw.laneStatus (h : Hw) (p a b : Nat) : List Word :=
  let l := (h.port p).lanes
  let up := decide (l.state = 2)
  let w0 := l.state + b2n l.txAsleep * 8 + b2n l.rxAsleep * 16 + b2n (h.isV16 p) * 32 + b2n (p < 256 && h.lasers.high.contains (p / 32)) * 64
    + (if up then mapWidth l.rxMap else 0) * 2 ^ 8 + (if up then mapWidth l.txMap else 0) * 2 ^ 12
  let pw := if p < 256 then a % 2 ^ 16 + b % 2 ^ 16 * 2 ^ 16 else 0
  [w32 w0, w32 (mapWord l.rxMap), w32 (mapWord l.txMap), w32 ((l.fenced.map (2 ^ ·)).sum), w32 pw]
  ++ (List.range 5).flatMap (fun i => [w32 ((l.chan i).fom + b2n (l.chan i).los * 256), w32 (l.chan i).corrected])
  ++ (List.range 10).map (fun j => w32 (tget 0 l.counters j))

/-- What a port's receivers have counted since the last read: codewords not corrected, symbols corrected, and errors in a near loop (R407, R428). No command tells how many: the
counts grow by open numbers. (DESIGN CHOICE, log 135, safe.) -/
def Hw.decodeLanes (h : Hw) (p : Nat) : Hw :=
  let l := (h.port p).lanes
  if l.state = 0 ∨ l.state = 5 then h
  else
    let (h, cw) := h.draw
    let h := h.countLane p 0 cw
    let h := if l.loopMode = 1 ∨ l.loopMode = 2 then (let (h, n) := h.draw; h.countLane p 5 n) else h
    (List.range (chanCount l)).foldl (fun h i =>
      let (h, n) := h.draw
      h.modLanes p (fun l => l.modChan i (fun c => { c with corrected := sat32 (c.corrected + n) }))) h

/-- LANE_STATUS_GET (R429): CLEAR zeroes the counters after the read. (DEDUCED, log 67, unsafe.) -/
def execLaneStatusGet (ch : Nat) : State → Out := atUnit ch 16 <| onHw (fun _ h => h.answer ch 0x0905 (fun p =>
  match checkPortOnly p with
  | some f => h.refuse f
  | none =>
    let port := fld p 0 8 0
    let (h, a) := h.draw
    let (h, b) := h.draw
    let h := h.decodeLanes port
    let out := h.laneStatus port a b
    let h := if fld p 0 16 16 = 1 then
        h.modLanes port (fun l => { l with counters := [], chans := l.chans.map (fun e => (e.1, { e.2 with corrected := 0 })) })
      else h
    (h, stOk, 0, out)))

end Sys2Proof.Machine
end

