-- ==== Sys2Proof/Machine/Pool.lean ====
section
/-!
DEFINITION. The buffer pool of a complex: geometry of the cell store, pointers and their checks, allocation, hand-off, freeing and promotion
(R123 to R131), and the work of egress queues: depth, marking, the resequencer and delivery (R134 to R140).
-/

namespace Sys2Proof.Machine
open Sys2Proof

/-! ### Geometry (Tables 5.3 to 5.5) -/

/-- The cell-store slices of a preset. -/
def presetSlices (p : Nat) : Nat := match p with | 0 => 16 | 1 => 12 | _ => 8

/-- Buffers of class Ck in one slice. -/
def perSlice (k : Nat) : Nat := match k with | 0 => 768 | 1 => 128 | 2 => 48 | 3 => 32 | 4 => 50 | _ => 0

/-- The stride of class Ck in units of 64 bytes. -/
def strideUnits (k : Nat) : Nat := match k with | 0 => 5 | 1 => 17 | 2 => 33 | 3 => 65 | _ => 129

/-- Where the area of class Ck begins in a cell-store slice, as a byte offset; at k = 5 the descriptor area (Table 5.3). -/
def areaBase (k : Nat) : Nat := match k with | 0 => 0 | 1 => 0x3C000 | 2 => 0x5E000 | 3 => 0x76C00 | 4 => 0x97400 | _ => 0xFC080

/-- Where the unused area of a slice begins, and where the slice ends. -/
def unusedBase : Nat := 0xFE090
def sliceBytes : Nat := 0x100000

/-- B_k of R124: the descriptor index of the first buffer of class Ck. -/
def descBase (k : Nat) : Nat := match k with | 0 => 0 | 1 => 768 | 2 => 896 | 3 => 944 | _ => 976

/-- The payload a buffer of class Ck holds. -/
def capacity (k : Nat) : Nat := 64 * (strideUnits k - 1)

/-- The smallest class that fits a payload (R125). -/
def fitClass (len : Nat) : Nat := if len ≤ 256 then 0 else if len ≤ 1024 then 1 else if len ≤ 2048 then 2 else if len ≤ 4096 then 3 else 4

/-- A buffer pointer (Table 5.5). -/
def mkPtr (c k slice idx : Nat) : Nat := c * 2 ^ 24 + k * 2 ^ 21 + slice * 2 ^ 16 + idx * strideUnits k

def ptrClass (p : Nat) : Nat := bits p 23 21
def ptrSlice (p : Nat) : Nat := bits p 19 16

/-- The byte offset, in its slice, of the buffer a pointer names (R123), the index of its descriptor, and the byte offset of that descriptor (R124). -/
def ptrOffset (p : Nat) : Nat := areaBase (ptrClass p) + 64 * bits p 13 0
def descIndex (p : Nat) : Nat := descBase (ptrClass p) + bits p 13 0 / strideUnits (ptrClass p)
def descOffset (p : Nat) : Nat := areaBase 5 + 8 * descIndex p

/-- The two words of a buffer's descriptor (Table 5.6). -/
def Buf.descriptor (b : Buf) : List Word := [b.pkt.trailer, w32 (b.cls * 2 ^ 29 + b.state * 2 ^ 27 + b.refs * 2 ^ 19 + b.owner * 2 ^ 13)]

/-- The range and alignment checks of R129 at a complex with `n` cell-store slices. -/
def ptrInRange (c n p : Nat) : Bool :=
  bits p 31 24 = c ∧ ptrClass p ≤ 4 ∧ bits p 20 20 = 0 ∧ ptrSlice p < n ∧ bits p 15 14 = 0
  ∧ bits p 13 0 % strideUnits (ptrClass p) = 0 ∧ bits p 13 0 / strideUnits (ptrClass p) < perSlice (ptrClass p)

def Complex.slices (x : Complex) : Nat := presetSlices x.preset

/-- TOTAL of a class (Table 5.4). -/
def Complex.total (x : Complex) (k : Nat) : Nat := perSlice k * x.slices

/-- The ingress reserve of a class (R131). -/
def Complex.reserveOf (x : Complex) (k : Nat) : Nat := x.total k * x.share / 16

/-- The relay reserve: 21 buffers of C4 (R168). -/
def relayReserve : Nat := 21

/-- Buffers of a class in use, of the ingress reserve or of the shared part; a CULLET buffer stays out of the part it came from. -/
def Complex.used (x : Complex) (k : Nat) (reserve : Bool) : Nat :=
  (x.bufs.filter (fun e => e.2.cls = k ∧ e.2.reserve = reserve ∧ e.2.relay = none)).length

/-- Free buffers of a class in the part an allocation draws from. -/
def Complex.free (x : Complex) (k : Nat) (reserve : Bool) : Nat :=
  if reserve then x.reserveOf k - x.used k true
  else x.total k - x.reserveOf k - (if k = 4 then relayReserve else 0) - x.used k false

/-- FREE of each class as the stored buffers leave it: after a change of the partition or a wipe. -/
def Complex.recount (x : Complex) : Complex :=
  { x with freeCount := (List.range 5).map (fun k => x.total k - (x.bufs.filter (fun e => e.2.cls = k)).length) }

/-- Take a pointer's buffer: FREE of its class falls by one. -/
def Complex.take (x : Complex) (p : Nat) (b : Buf) : Complex :=
  { x with bufs := tput x.bufs p { b with cls := ptrClass p }, freeCount := lmod 0 x.freeCount (ptrClass p) (· - 1) }

/-- Give a pointer's buffer back: FREE of its class rises by one. -/
def Complex.giveBack (x : Complex) (p : Nat) : Complex :=
  { x with bufs := tdel x.bufs p, freeCount := lmod 0 x.freeCount (ptrClass p) (· + 1) }

/-- The slices in which buffers may be allocated: those that are not leaving the cell store (R148). -/
def Complex.openSlices (x : Complex) : Nat := min x.slices (x.drainTo.elim 16 presetSlices)

/-- The lowest free pointer of a class in the open slices; which free buffer is taken is the model's choice. (DESIGN CHOICE, log 13, unsafe.) -/
def Complex.freePtr (x : Complex) (c k : Nat) : Option Nat :=
  let n := x.openSlices
  ((List.range (n * perSlice k)).find? (fun i => (tget? x.bufs (mkPtr c k (i / perSlice k) (i % perSlice k))).isNone)).map
    (fun i => mkPtr c k (i / perSlice k) (i % perSlice k))

/-- The pointer an allocation takes (R125): the smallest class that fits and has a free buffer in its part. -/
def Complex.pick (x : Complex) (c len : Nat) (reserve : Bool) : Option Nat :=
  ((List.range 5).filter (fitClass len ≤ ·)).findSome? (fun k => if 0 < x.free k reserve then x.freePtr c k else none)

/-- Take a buffer of a part for a packet, with its descriptor. -/
def Hw.alloc (h : Hw) (c : Nat) (b : Buf) : Option (Hw × Nat) :=
  (Complex.pick (h.cx c) c b.pkt.len b.reserve).map (fun p =>
    (h.modCx c (fun x => x.take p b), p))

def Hw.buf? (h : Hw) (c p : Nat) : Option Buf := tget? (h.cx c).bufs p
def Hw.modBuf (h : Hw) (c p : Nat) (f : Buf → Buf) : Hw :=
  h.modCx c (fun x => match tget? x.bufs p with | some b => { x with bufs := tput x.bufs p (f b) } | none => x)

/-! ### Pointer checks, the cullet list and freeing (R126, R128 to R130) -/

/-- Write a pointer to the cullet list of a complex, or count it when the list is full. -/
def Complex.toCullet (x : Complex) (p : Nat) : Complex :=
  if x.cullet.length < 256 then { x with cullet := x.cullet ++ [p] } else { x with culletOver := sat32 (x.culletOver + 1) }

/-- The checks of R129 on a use of a pointer. -/
def Hw.ptrOk (h : Hw) (c p : Nat) : Bool :=
  ptrInRange c (h.cx c).slices p && (match h.buf? c p with | some b => decide (b.cls = ptrClass p ∧ b.state = 1) | none => false)

/-- A pointer that fails its checks: it is listed, BUF_POINTER_BAD counts as one strike against the complex, the buffer it names goes to CULLET, and
the packet it carried counts at the port of its entry. -/
def Hw.badPtr (h : Hw) (c p : Nat) (port : Option Nat) : Hw :=
  let h := (h.modBuf c p (fun b => { b with state := 2, refs := 0 })).modCx c (fun x => x.toCullet p)
  let h := match port with | some q => h.count q 33 | none => h
  h.strikeReport 0x201 (unitNo 4 c) [w32 c, w32 p]

/-- The owner code of combine core i, 0 to 8 (Table 5.6), and of the core that does a home's built-in work, which is the model's choice. (DESIGN CHOICE, log 126, unsafe.) -/
def coreOwner (i : Nat) : Nat := if i < 7 then 8 + i else 9 + i
def homeUnit : Nat := coreOwner 0

/-- Whether a unit may free a buffer (R128): code 6 matches every port engine of the complex. -/
def ownerMatches (owner by_ : Nat) : Bool := owner = by_ ∨ (owner = 6 ∧ (by_ = 4 ∨ by_ = 5 ∨ by_ = 0x0F))

/-- The packet that moves into a freed reserve buffer of class Cj (R126): the one of a larger class with the lowest pointer that fits and whose
injection has not begun. (DESIGN CHOICE, log 14, unsafe.) -/
def Complex.promotee (x : Complex) (j : Nat) : Option (Nat × Buf) :=
  x.bufs.find? (fun e => e.2.reserve ∧ e.2.state = 1 ∧ j < e.2.cls ∧ fitClass e.2.pkt.len ≤ j ∧ ¬ e.2.begun)

/-- Give a freed reserve buffer to a packet of a larger class, and the larger buffer in turn to another: the complex, and which pointer became which. A buffer in a
slice that is leaving the cell store takes nothing (R148). -/
def Complex.promote : Nat → Complex → Nat → List (Nat × Nat) → Complex × List (Nat × Nat)
  | 0, x, _, l => (x, l)
  | n + 1, x, p, l =>
    match (if ptrSlice p < x.openSlices then x.promotee (ptrClass p) else none) with
    | some (q, b) =>
      Complex.promote n { (x.giveBack q).take p b with
        promotions := sat32 (x.promotions + 1),
        inject := x.inject.map (fun e => if e.ptr = some q then { e with ptr := some p } else e),
        handoff := x.handoff.map (fun e => if e.1 = q then (p, e.2) else e) } q (l ++ [(q, p)])
    | none => (x, l)

/-- Early contributions held in the reserve of a complex follow their packet to its new buffer. -/
def Hw.renameEarly (h : Hw) (c : Nat) (m : Nat × Nat) : Hw :=
  let move (e : Early) : Early := if e.cx = c ∧ e.ptr = m.1 then { e with ptr := m.2 } else e
  { h with groups := h.groups.map (fun (g : Nat × Group) => (g.1, { g.2 with early := g.2.early.map move })) }

/-- Free a buffer whose last reference has dropped. -/
def Hw.release (h : Hw) (c p : Nat) (b : Buf) : Hw :=
  let y := (h.cx c).giveBack p
  let (z, moves) := if b.reserve then Complex.promote 5 y p [] else (y, [])
  moves.foldl (fun h m => h.renameEarly c m) (h.setCx c z)

/-- Whether a buffer waits to be handed to ports of its own complex (R127). -/
def Complex.waits (x : Complex) (p : Nat) : Bool := x.handoff.any (fun e => e.1 = p)

/-- A unit drops one reference of a buffer; the last one frees it, in that unit's name, unless the buffer still waits for its hand-off. -/
def Hw.dropRef (h : Hw) (c p by_ : Nat) (port : Option Nat := none) : Hw :=
  if ¬ h.ptrOk c p then h.badPtr c p port
  else match h.buf? c p with
    | none => h
    | some b =>
      if 1 < b.refs ∨ (h.cx c).waits p then h.modBuf c p (fun b => { b with refs := b.refs - 1 })
      else if ownerMatches b.owner by_ then h.release c p b
      else (h.modCx c (fun x => ({ x with bufs := tput x.bufs p { b with state := 2, refs := 0 } }).toCullet p)).strikeReport 0x202 (unitNo 4 c) [w32 c, w32 p]

/-! ### Egress queues (R134 to R136) -/

/-- The egress queue of a packet at a port (R134); a glean message goes to queue 48 whatever the map says (R190). -/
def Port.queueOf (x : Port) (q : Pkt) : Nat := if q.ptype = 5 then 48 else 16 * q.cls + tget 0 x.jobQueue q.job % 16

/-- The packet a queue entry names. -/
def Hw.entryPkt (h : Hw) (c : Nat) (e : QEntry) : Option Pkt := (h.buf? c e.ptr).map (·.pkt)

/-- A queue's depth in cells: its queued packets and those held for it in the resequencer (R135). -/
def Hw.depth (h : Hw) (p q : Nat) : Nat :=
  let x := h.port p
  let c := h.home p
  let held := x.flows.flatMap (fun f => f.held.filter (fun d => match h.entryPkt c d.entry with
    | some k => x.queueOf k = q
    | none => false))
  ((x.queue q).entries.map (·.cells)).sum + (held.map (·.entry.cells)).sum

/-- Whether a packet fits under MAX_DEPTH of its queue at a port. -/
def Hw.roomFor (h : Hw) (p : Nat) (k : Pkt) : Bool :=
  let q := (h.port p).queueOf k
  h.depth p q + k.cells ≤ ((h.port p).queue q).maxDepth

/-- Enqueue an entry whose pointer passes its checks (R129), marking a TC0 packet above ECN_THRESHOLD (R136). -/
def Hw.enqueue (h : Hw) (p : Nat) (e : QEntry) : Hw :=
  let c := h.home p
  match (if h.ptrOk c e.ptr then h.entryPkt c e else none) with
  | none => h.badPtr c e.ptr (some p)
  | some k =>
    let qn := (h.port p).queueOf k
    let q := (h.port p).queue qn
    let mark := decide (k.cls = 0 ∧ q.ecnEnable ∧ q.ecnThresh < h.depth p qn)
    let h := if mark then (h.modBuf c e.ptr (fun b => { b with pkt := b.pkt.setCe })).count p 26 else h
    h.modPort p (fun x => x.modQueue qn (fun q => { q with entries := q.entries ++ [{ e with glean := e.glean || decide (k.ptype = 5) }] }))

/-! ### The resequencer (R137 to R140) -/

/-- The flow key of a packet: job, source rank, class, and the sheaf of a multicast. -/
def flowKey (k : Pkt) : Nat := ((k.job * 2 ^ 16 + k.src) * 4 + k.cls) * 2 ^ 17 + (if k.mcast then 2 ^ 16 + k.sheaf else 0)

def seqDelta (s e : Nat) : Nat := (s + 2 ^ 16 - e) % 2 ^ 16

/-- The count of slot starts since reset. -/
def Hw.slotCount (h : Hw) : Nat := h.time.tick * 128 + h.time.slot

def Port.flow? (x : Port) (key : Nat) : Option Flow := x.flows.find? (·.key = key)
def Port.setFlow (x : Port) (f : Flow) : Port := { x with flows := x.flows.map (fun g => if g.key = f.key then f else g) }

/-- Deliver held packets of a flow while they continue its sequence; two held with one number are both delivered. -/
def Hw.runOn : Nat → Hw → Nat → Nat → Hw
  | 0, h, _, _ => h
  | n + 1, h, p, key =>
    match (h.port p).flow? key with
    | none => h
    | some f =>
      match f.held.filter (fun d => d.seq = f.expected) with
      | [] => h
      | due =>
        let f' := { f with held := f.held.filter (fun d => d.seq ≠ f.expected), expected := (f.expected + 1) % 2 ^ 16 }
        Hw.runOn n (due.foldl (fun h d => h.enqueue p d.entry) (h.modPort p (·.setFlow f'))) p key

/-- Release a flow's gap (R139): EXPECTED moves to the held packet with the smallest delta. -/
def Hw.releaseGap (h : Hw) (p key : Nat) : Hw :=
  match (h.port p).flow? key with
  | none => h
  | some f =>
    match f.held with
    | [] => h
    | d0 :: _ =>
      let least := f.held.foldl (fun m d => min m (seqDelta d.seq f.expected)) (seqDelta d0.seq f.expected)
      let h := (h.count p 27).count p 28 least
      Hw.runOn 513 (h.modPort p (·.setFlow { f with expected := (f.expected + least) % 2 ^ 16 })) p key

/-- The packets a port's resequencer holds. -/
def Port.heldCount (x : Port) : Nat := (x.flows.map (·.held.length)).sum

/-- The flow with the oldest held packet. -/
def Port.oldestFlow (x : Port) : Option Flow :=
  x.flows.foldl (fun b f => match f.held, b with
    | [], _ => b
    | d :: _, some g => (match g.held with | e :: _ => if d.slot < e.slot then some f else b | [] => some f)
    | _ :: _, none => some f) none

/-- Deliver an arriving entry at a port (R137, R138). -/
def Hw.deliver (h : Hw) (p : Nat) (e : QEntry) : Hw :=
  let x := h.port p
  match (if h.ptrOk (h.home p) e.ptr then h.entryPkt (h.home p) e else none) with
  | none => h.badPtr (h.home p) e.ptr (some p)
  | some k =>
    if ¬ x.reseq ∨ (k.ptype ≠ 1 ∧ k.ptype ≠ 4) then h.enqueue p e
    else
      let key := flowKey k
      let now := h.slotCount
      match x.flow? key with
      | none =>
        if 4096 ≤ x.flows.length then (h.enqueue p e).count p 30
        else (h.modPort p (fun x => { x with flows := x.flows ++ [{ key := key, expected := (k.seq + 1) % 2 ^ 16, lastSlot := now }] })).enqueue p e
      | some f =>
        let f := { f with lastSlot := now }
        let h := h.modPort p (·.setFlow f)
        let d := seqDelta k.seq f.expected
        if d = 0 then
          let h := (h.modPort p (·.setFlow { f with expected := (k.seq + 1) % 2 ^ 16 })).enqueue p e
          Hw.runOn 513 h p key
        else if d < 512 then
          let h := if 512 ≤ x.heldCount then (match x.oldestFlow with | some g => h.releaseGap p g.key | none => h) else h
          match (h.port p).flow? key with
          | none => h.enqueue p e
          | some f =>
            let d' := seqDelta k.seq f.expected
            if d' = 0 ∨ 512 ≤ d' then
              let h := if d' = 0 then h.modPort p (·.setFlow { f with expected := (k.seq + 1) % 2 ^ 16 }) else h.count p 29
              Hw.runOn 513 (h.enqueue p e) p key
            else h.modPort p (·.setFlow { f with held := f.held ++ [{ entry := e, seq := k.seq, slot := now }] })
        else if d < 32768 then
          let due := f.held.mergeSort (fun a b => decide (seqDelta a.seq f.expected ≤ seqDelta b.seq f.expected))
          let kinds := (due.map (·.seq)).dedup.filter (fun s => seqDelta s f.expected < d)
          let h := (h.count p 27).count p 28 (d - kinds.length)
          let h := h.modPort p (·.setFlow { f with held := [], expected := (k.seq + 1) % 2 ^ 16 })
          (due.foldl (fun h g => h.enqueue p g.entry) h).enqueue p e
        else (h.enqueue p e).count p 29

/-- RESEQ_GAP_RELEASE (R139): every flow of the port whose oldest held packet has waited two slot starts is released. -/
def execReseqGapRelease (port : Nat) : State → Out := atUnit port 264 <| onHw (fun _ h =>
    let late := (h.port port).flows.filter (fun f => match f.held with | d :: _ => decide (d.slot + 2 ≤ h.slotCount) | [] => false)
    late.foldl (fun h f => h.releaseGap port f.key) h)

/-- RESEQ_ENTRY_EXPIRE (R140): entries with nothing held and no arrival for 128 slot starts are freed. -/
def execReseqEntryExpire (port : Nat) : State → Out := atUnit port 264 <| onHw (fun _ h =>
  h.modPort port (fun x => { x with flows := x.flows.filter (fun f => f.held ≠ [] ∨ h.slotCount < f.lastSlot + 128) }))

/-! ### Glean messages from firmware (R144, R190, R436) -/

/-- Store a packet that firmware makes in the shared part of a port's home and queue it at the port; with no buffer it is dropped and counted. Firmware reaches the home through
a CD attachment in service (R16). (DESIGN CHOICE, log 131, unsafe.) -/
def Hw.firmwareSend (h : Hw) (p : Nat) (k : Pkt) : Hw :=
  if (h.cdRouter (cxHalf (h.home p))).isNone then h
  else if ¬ h.roomFor p k then h.count p 25
  else match h.alloc (h.home p) { pkt := k, cls := 0, owner := egressOwner p, refs := 1, epoch := h.mesh.injEpoch } with
    | none => h.count p 24
    | some (h, ptr) => h.enqueue p { ptr := ptr, cells := k.cells, glean := true }

end Sys2Proof.Machine
end

