-- ==== Sys2Proof/Machine/Discovery.lean ====
section
/-!
DEFINITION. Coordinates, the neighbour plan, glean, the rank table and job admission (R433 to R452).
-/

namespace Sys2Proof.Machine
open Sys2Proof

/-! ### Glean messages (R436, Table 4.5) -/

/-- The coordinates as a message carries them. -/
def Disc.coord (d : Disc) : Nat := d.plane * 2 ^ 24 + d.tier * 2 ^ 16 + d.position

/-- The glean message of a port: its state and what it last heard. -/
def Hw.gleanWords (uid : List Byte) (h : Hw) (p : Nat) : List Word :=
  let g := (h.port p).glean
  let d := h.disc
  let heard := g.last.getD []
  [w32 (2 ^ 24 + 2 ^ 16 + g.state * 2 ^ 8), w32 d.fabric, w32 d.coord, w32 p] ++ beWords ((uid ++ List.replicate 16 0).take 16)
  ++ [w32 d.serial, w32 (wnat heard 1), w32 (wnat heard 2), w32 (fld heard 3 15 0 + b2n g.last.isSome * 2 ^ 16), w32 g.seqOut, w32 (wnat heard 12), 0, 0]

/-- Firmware sends a glean message on a port that is up: through queue 48 as a GLEAN packet of job zero (R190, R436). -/
def Hw.sendGlean (uid : List Byte) (h : Hw) (p : Nat) : Hw :=
  if ¬ (h.port p).link.up then h
  else
    let k := mkPkt [w32 (2 ^ 28 + 3 * 2 ^ 26 + 5 * 2 ^ 22 + 64)] ((h.gleanWords uid p).flatMap beBytes)
    (h.firmwareSend p k).modGlean p (fun g => { g with seqOut := (g.seqOut + 1) % 2 ^ 32, sentTick := h.time.tick, sendNow := false })

/-! ### Comparison with the plan (R437, R438, R442) -/

/-- A port's plan entry; an entry never loaded expects nothing. -/
def Disc.entry (d : Disc) (p : Nat) : List Word := tget [] d.plan p

def expectOf (e : List Word) : Nat := fld e 0 1 0

/-- The identity in a message: kind, coordinates, port and UID. -/
def identityOf (m : List Word) : List Nat :=
  [fld m 0 23 16, wnat m 1, wnat m 2, fld m 3 15 0, wnat m 4, wnat m 5, wnat m 6, wnat m 7]

def uidZero (m : List Word) (i : Nat) : Bool := (List.range 4).all (fun j => wnat m (i + j) = 0)

/-- A message carries its UID most significant word first, a plan entry least significant word first (R8, R9). -/
def uidEqual (m e : List Word) : Bool := (List.range 4).all (fun j => wnat m (4 + j) = wnat e (7 - j))

/-- Whether the identity in a message matches a plan entry (Table 15.3, row 3). -/
def planMatches (m e : List Word) : Bool :=
  let kind := fld m 0 23 16
  if kind = 2 then expectOf e = 2 ∧ (fld e 0 3 3 = 1 ∨ uidEqual m e)
  else expectOf e = 1 ∧ wnat m 1 = wnat e 1 ∧ wnat m 2 = wnat e 2 ∧ fld m 3 15 0 = fld e 3 8 0 ∧ (uidZero e 4 ∨ uidEqual m e)

/-- The outcome of a comparison (Table 15.3): the state, the cause and the other port. -/
def Disc.outcome (d : Disc) (p : Nat) (m : List Word) : Nat × Nat × Nat :=
  if uidZero m 4 then (4, 1, 0)
  else if d.serial = 0 then (4, 2, 0)
  else if planMatches m (d.entry p) then (3, 0, 0)
  else match (List.range 264).find? (fun q => q ≠ p ∧ planMatches m (d.entry q)) with
    | some q => (4, 3, q)
    | none => if expectOf (d.entry p) = 0 then (4, 4, 0) else (4, 5, 0)

/-- A port becomes missing (R441): told once. -/
def Hw.goMissing (h : Hw) (p : Nat) : Hw :=
  if (h.port p).glean.missing then h
  else (h.modGlean p (fun g => { g with missing := true })).raise 0x0A03 [w32 p, w32 h.disc.serial]

/-- A port takes a glean state, keeping the tick in which it leaves PLANNED. -/
def Hw.setGlean (h : Hw) (p st cause other : Nat) : Hw :=
  h.modGlean p (fun g => { g with
    state := st, cause := cause, other := other,
    hold := if st = 3 ∧ g.state = 3 then g.hold else 0,
    missing := if st = 3 then false else g.missing,
    since := if g.state = 3 ∧ st ≠ 3 then h.time.tick else g.since,
    heardTick := if st = 2 ∧ g.state ≠ 2 then h.time.tick else g.heardTick,
    sendNow := g.sendNow || (st ≠ g.state) })

/-- Compare a port's partner with its plan entry and take the outcome (R438, R440, R442). -/
def Hw.comparePort (h : Hw) (p : Nat) : Hw :=
  let g := (h.port p).glean
  match g.last with
  | none => h
  | some m =>
    let (st, cause, q) := h.disc.outcome p m
    let h := h.setGlean p st cause q
    if st = 3 then (if g.state = 3 then h else h.raise 0x0A01 [w32 p, w32 (wnat m 7)])
    else
      let h := if g.state = 4 ∧ g.cause = cause ∧ g.other = q then h
        else h.raise 0x0A02 [w32 (p + cause * 2 ^ 16 + q * 2 ^ 23), w32 (wnat m 7)]
      if cause = 3 then (if (h.port q).glean.state = 3 then h else h.goMissing q)
      else if cause = 5 then h.goMissing p
      else h

/-- Whether a valid message is two-way: it repeats this W20's own identity and port (R437). -/
def Hw.twoWay (h : Hw) (p : Nat) (m : List Word) : Bool :=
  fld m 11 16 16 = 1 ∧ wnat m 9 = h.disc.fabric ∧ wnat m 10 = h.disc.coord ∧ fld m 11 15 0 = p

/-- A glean message reaches firmware (R437, R438). A new ECHO_GLEAN_SEQ alone is no change of what this W20 sends, and a message that is not two-way takes only a port in SEEKING to
HEARD. (DEDUCED, log 139, unsafe.) -/
def Hw.takeGlean (uid : List Byte) (h : Hw) (p : Nat) (q : Pkt) : Hw :=
  let m := beWords q.payload
  if q.payload.length ≠ 64 ∨ fld m 0 31 24 ≠ 1 ∨ fld m 0 23 16 = 0 ∨ 3 < fld m 0 23 16 then h.count p 13
  else
    let g := (h.port p).glean
    let two := h.twoWay p m
    let before := g.last
    let peer (w : Option (List Word)) : Option (Nat × Nat × Nat) := w.map (fun w => (wnat w 1, wnat w 2, fld w 3 15 0))
    let h := h.modGlean p (fun g => { g with
      last := some m, twoWay := two, lastTick := h.time.tick, messages := sat32 (g.messages + 1), silent := 0,
      sendNow := g.sendNow || (peer before ≠ peer (some m)) })
    let h := if two then
        (if g.state = 1 ∨ g.state = 2 ∨ (g.state = 4 ∧ g.cause = 6) ∨ before.map identityOf ≠ some (identityOf m) then h.comparePort p else h)
      else if g.state = 1 then h.setGlean p 2 0 0
      else h
    if (h.port p).glean.sendNow then h.sendGlean uid p else h

/-- A GLEAN packet received whole (R118): it reaches firmware through a CD attachment in service (R16). (DESIGN CHOICE, log 131, unsafe.) -/
def Hw.recvGlean (uid : List Byte) (h : Hw) (p : Nat) (q : Pkt) : Hw :=
  let h := match h.linkCheck p q with
    | some c => h.count p c
    | none => if (h.cdRouter (cxHalf (h.home p))).isSome then h.takeGlean uid p q else h
  h.freeCells p q.cls q.cells

/-- GLEAN_RECEIVE (R437): a GLEAN packet arrives at a port that is up. -/
def execGleanReceive (port : Nat) (pkt : Pkt) : State → Out := atUnit port 264 <| onHw (fun fz h =>
  if h.inLehr ∨ ¬ (h.port port).link.up ∨ pkt.ptype ≠ 5 then h else (h.arrive port pkt).recvGlean fz.deviceUid port pkt)

/-- A partner that has not echoed by the first E4 at which MISSING_TICKS have passed (Table 15.2). -/
def Hw.noEcho (h : Hw) (p : Nat) : Hw :=
  let g := (h.port p).glean
  if g.state ≠ 2 ∨ h.time.tick < g.heardTick + h.disc.missingTicks then h
  else (h.setGlean p 4 6 0).raise 0x0A02 [w32 (p + 6 * 2 ^ 16), w32 (wnat (g.last.getD []) 7)]

/-- GLEAN_NO_ECHO: its step of E4, which TICK_EDGE takes; in slot 0 the row takes it. (DEDUCED, log 125, unsafe.) -/
def execGleanNoEcho (port : Nat) : State → Out := atUnit port 264 <| atEdge (fun _ h => h.noEcho port)

/-- A port with a planned partner that has not been PLANNED by the first E4 at which MISSING_TICKS have passed (R441). -/
def Hw.notFound (h : Hw) (p : Nat) : Hw :=
  let g := (h.port p).glean
  if expectOf (h.disc.entry p) = 0 ∨ g.state = 3 ∨ h.time.tick < max h.disc.planTick g.since + h.disc.missingTicks then h
  else h.goMissing p

/-- NEIGHBOUR_MISSING: its step of E4, which TICK_EDGE takes; in slot 0 the row takes it. (DEDUCED, log 125, unsafe.) -/
def execNeighbourMissing (port : Nat) : State → Out := atUnit port 264 <| atEdge (fun _ h => h.notFound port)

/-- A PLANNED port that has heard nothing for 4,096 ticks or 256 ms, whichever is longer, goes back to SEEKING and is missing (R441). -/
def Hw.fallSilent (h : Hw) (p : Nat) : Hw :=
  let g := (h.port p).glean
  if g.state ≠ 3 ∨ g.silent < max 4096 (cdiv 40960 h.time.mult) then h
  else (h.setGlean p 1 0 0).goMissing p

/-- GLEAN_SILENCE (R441): firmware notices at E4 of TICK_EDGE at the latest. (DEDUCED, log 125, unsafe.) -/
def execGleanSilence (port : Nat) : State → Out := atUnit port 264 <| onHw (fun _ h => h.fallSilent port)

/-- What firmware finds of the partners at E4 (R437, R441). -/
def Hw.gleanEdge (h : Hw) : Hw := (List.range 264).foldl (fun h p => ((h.fallSilent p).noEcho p).notFound p) h

/-- Whether a port is fenced, absent or beside a neighbour in quarantine, or its committed ENABLE is zero (R119, R430). (DEDUCED, log 38, unsafe.) -/
def Hw.winnowBad (h : Hw) (p : Nat) : Bool :=
  let x := h.port p
  decide (x.glean.state ≠ 3) || x.absent || x.glean.missing || ! x.lanes.cfg.enable || x.lanes.stopTick.isSome
  || ! (decide (x.lanes.state = 2) || decide (x.lanes.state = 3))

/-- Whether a port may have its winnow bit clear (R119, R439): nothing sets the bit, no loopback, and PLANNED through the hold. -/
def Hw.mayOpen (h : Hw) (p : Nat) : Bool :=
  let x := h.port p
  ! h.winnowBad p && decide (x.lanes.loopMode = 0) && decide (max 1 h.disc.rejoinHold ≤ x.glean.hold)

/-- The winnow bit of a port is cleared. -/
def Hw.openPort (h : Hw) (p : Nat) : Hw := h.modMesh (fun m => { m with winnow := m.winnow &&& ~~~(BitVec.ofNat 264 (2 ^ p)) })

/-- REJOIN_HOLD_END (R439): at the E4 of the tick whose E1 completes the hold the port's winnow bit is cleared, a step of TICK_EDGE too. (DEDUCED, log 125, unsafe.) -/
def execRejoinHoldEnd (port : Nat) : State → Out := atUnit port 264 <| atEdge (fun _ h => if h.mayOpen port then h.openPort port else h)

/-! ### At the tick edge (R436, R439, R443) -/

/-- E1: a latch in PLANNED counts toward the hold, and a tick without a message toward silence. -/
def Glean.latch (g : Glean) (awake : Bool) : Glean :=
  { g with hold := if g.state = 3 then g.hold + 1 else g.hold, silent := if awake then g.silent + 1 else g.silent }

/-- Messages due at a tick (R436): at once after a change, each tick while SEEKING or HEARD, every 1,024 ticks otherwise. -/
def Hw.gleanDue (h : Hw) (p : Nat) : Bool :=
  let g := (h.port p).glean
  (h.port p).link.up ∧ (g.sendNow ∨ g.state = 1 ∨ g.state = 2 ∨ g.sentTick + 1024 ≤ h.time.tick)

def Hw.gleanTick (uid : List Byte) (h : Hw) : Hw := (h.ports.map (·.1)).foldl (fun h p => if h.gleanDue p then h.sendGlean uid p else h) h

/-- The live fraction (R443): uplinks with a clear winnow bit per thousand. -/
def Hw.livePermille (h : Hw) : Option Nat :=
  let ups := (List.range 264).filter (fun p => fld (h.disc.entry p) 0 2 2 = 1)
  if ups = [] then none else some ((ups.filter (fun p => ¬ h.winnowed p)).length * 1000 / ups.length)

/-- The degraded check of E4 (R443). -/
def Hw.degradedCheck (h : Hw) : Hw :=
  let f := h.livePermille.getD 0
  let bad := decide (h.livePermille.isSome ∧ f < h.disc.minUplink)
  let h' := { h with disc := { h.disc with degraded := bad, livePermille := f } }
  if bad = h.disc.degraded then h' else h'.raise 0x0A04 [w32 (b2n bad + f * 2 ^ 16)]

/-! ### Commands (Tables 15.7 to 15.13) -/

/-- What COORDINATES_SET checks of its payload, beyond the envelope (R53). -/
def failCoordinatesSet (_fz : Fuses) (_h : Hw) (_ch : Nat) (p : List Word) (_bulk : List Byte) : Option Fail := failIf (wnat p 0 = 0) (bad 0)

/-- COORDINATES_SET (R433). -/
def execCoordinatesSet (ch : Nat) : State → Out := atUnit ch 16 <| onHw (fun fz h => h.configure ch 0x0A01 (failCoordinatesSet fz h ch))

def applyCoordinates (h : Hw) (p : List Word) : Hw :=
  let h := { h with disc := { h.disc with
    fabric := wnat p 0, plane := fld p 1 31 24, tier := fld p 1 23 16, position := fld p 1 15 0, switchNo := fld p 2 11 0 } }
  (h.ports.map (·.1)).foldl (fun h q => if (h.port q).link.up then h.modGlean q (fun g => { g with sendNow := true }) else h) h

def checkPlanEntry (p : List Word) (i : Nat) : Option Fail :=
  let b := 4 + 8 * i
  if fld p b 1 0 = 3 then bad (4 * b)
  else if fld p b 1 0 = 2 ∧ fld p b 3 3 = 0 ∧ uidZero p (b + 4) then bad (4 * b + 16)
  else none

/-- What NEIGHBOUR_PLAN_LOAD checks of its payload, beyond the envelope (R53). -/
def failNeighbourPlanLoad (_fz : Fuses) (_h : Hw) (_ch : Nat) (p : List Word) (_bulk : List Byte) : Option Fail :=
  firstFail ([failIf (wnat p 0 = 0) (bad 0), failIf (1000 < fld p 1 9 0) (bad 4),
    failIf (263 < fld p 3 8 0 ∨ 127 < fld p 3 22 16 ∨ 264 < fld p 3 8 0 + fld p 3 22 16) (bad 12)]
    ++ (List.range (fld p 3 22 16)).map (checkPlanEntry p))

/-- NEIGHBOUR_PLAN_LOAD (R435). -/
def execNeighbourPlanLoad (ch : Nat) : State → Out := atUnit ch 16 <| onHw (fun fz h => h.configure ch 0x0A02 (failNeighbourPlanLoad fz h ch))

/-- One piece of a plan at its commit. -/
def applyPlan (h : Hw) (p : List Word) : Hw :=
  let first := fld p 3 8 0
  { h with disc := { h.disc with
    serial := wnat p 0, minUplink := fld p 1 9 0, missingTicks := if fld p 2 15 0 = 0 then 256 else fld p 2 15 0, rejoinHold := fld p 2 31 16,
    planTick := h.time.tick,
    plan := (List.range (fld p 3 22 16)).foldl (fun t i => tput t (first + i) ((p.drop (4 + 8 * i)).take 8)) h.disc.plan } }

/-- After a set with a plan has applied (R438, R444): ports whose last valid message was two-way are compared again, each port at which
another's partner stands is missing unless it is PLANNED itself (R442), and PLAN_APPLIED is raised. A port that was missing stays so while the plan expects a partner there.
(DEDUCED, log 139, unsafe.) -/
def Hw.planApplied (h : Hw) : Hw :=
  let h := (h.ports.map (·.1)).foldl (fun h p =>
    let g := (h.port p).glean
    let h := h.modGlean p (fun g => { g with sendNow := true })
    if g.twoWay ∧ (g.state = 3 ∨ (g.state = 4 ∧ g.cause ≠ 6)) then h.comparePort p else h) h
  let h := (List.range 264).foldl (fun h p =>
    if expectOf (h.disc.entry p) = 0 ∧ (h.port p).glean.missing then h.modGlean p (fun g => { g with missing := false }) else h) h
  let h := (h.ports.map (·.2.glean)).foldl (fun h g =>
    if g.state = 4 ∧ g.cause = 3 ∧ (h.port g.other).glean.state ≠ 3 then h.goMissing g.other else h) h
  h.raise 0x0A05 [w32 h.disc.serial, w32 ((h.ports.filter (fun e => e.2.glean.state = 3)).length)]

/-- Pair 0x0A01 over a whole set: equal plan-wide values, and a changed serial loaded for all 264 ports. -/
def pairPlan (before : Hw) (set : List Staged) : Option Nat :=
  let pieces := (set.filter (·.opcode = 0x0A02)).map (·.words)
  match pieces with
  | [] => none
  | p :: rest =>
    let loaded := pieces.flatMap (fun q => (List.range (fld q 3 22 16)).map (fld q 3 8 0 + ·))
    if rest.any (fun q => q.take 3 ≠ p.take 3) then some 0x0A01
    else if wnat p 0 ≠ before.disc.serial ∧ ¬ (List.range 264).all (loaded.contains ·) then some 0x0A01
    else none

/-- Pair 0x0A03: a changed SWITCH_NUMBER and the forwarding entries at the new number. -/
def pairCoordinates (before after : Hw) (p : List Word) : Option Nat :=
  let n := fld p 2 11 0
  let used (e : Nat) : Bool := (tget (0, 0) after.mesh.fwd (e * 4096 + n)).1 ≠ 0
  if n ≠ before.disc.switchNo ∧ (used 0 ∨ used 1) then some 0x0A03 else none

/-- GLEAN_STATUS_GET (R450, Table 15.11). -/
def execGleanStatusGet (ch : Nat) : State → Out := atUnit ch 16 <| onHw (fun _ h => h.answer ch 0x0A03 (fun p =>
  match checkPortOnly p with
  | some f => h.refuse f
  | none =>
    let port := fld p 0 8 0
    let g := (h.port port).glean
    let w0 := g.state + b2n g.missing * 8 + b2n (h.winnowed port) * 16 + b2n h.disc.degraded * 32 + g.cause * 2 ^ 8 + g.other * 2 ^ 16
    let out := [w32 w0, w32 h.disc.serial, w32 g.hold, w32 h.disc.livePermille] ++ le64 g.lastTick
      ++ [w32 g.messages, w32 (tget 0 (h.port port).counters 13)]
      ++ leWords (((g.last.getD (List.replicate 16 0)) ++ List.replicate 16 0).take 16 |>.flatMap beBytes)
    (h, stOk, 0, out)))

/-! ### Ranks and admission (R446 to R449) -/

/-- Entries of the rank table's pool. -/
def rankPool : Nat := 4194304

/-- The word of entry i of a loaded table: from BAR2, or inline after the fixed words over MCTP. -/
def entryWord (ch : Nat) (p : List Word) (bulk : List Byte) (fixed i : Nat) : Nat :=
  if 12 ≤ ch then wnat p (fixed + i) else leNat ((bulk.drop (4 * i)).take 4)

/-- The payload offset that names a bad entry. -/
def entryOffset (ch fixed i : Nat) : Nat := if 12 ≤ ch then 4 * (fixed + i) else 4 * (fixed - 1)

/-- Regions of the rank table after a command. -/
def rankApply (r : Tbl RankRegion) (ch : Nat) (p : List Word) (bulk : List Byte) : Tbl RankRegion :=
  let job := fld p 0 11 0
  let load (g : RankRegion) : RankRegion :=
    { g with entries := (List.range (fld p 3 16 0)).foldl (fun t i => tput t (fld p 2 15 0 + i) (entryWord ch p bulk 5 i)) g.entries }
  match fld p 0 17 16 with
  | 2 => tdel r job
  | 1 =>
    let span := fld p 1 16 0
    let old := tget { span := 0 } r job
    tput r job (load { span := span, entries := old.entries.filter (fun e => e.1 < span) })
  | _ => match tget? r job with
    | some g => tput r job (load g)
    | none => r

/-- The regions as the staging set of a channel leaves them. -/
def Hw.stagedRanks (h : Hw) (ch : Nat) : Tbl RankRegion :=
  ((h.chan ch).staging.filter (·.opcode = 0x0A04)).foldl (fun r s => rankApply r ch s.words s.bulk) h.disc.ranks

def spansUsed (r : Tbl RankRegion) : Nat := (r.map (·.2.span)).sum

def checkRankTable (h : Hw) (ch : Nat) (p : List Word) (bulk : List Byte) : Option Fail :=
  let op := fld p 0 17 16
  let span := fld p 1 16 0
  let n := fld p 3 16 0
  firstFail ([failIf (fld p 0 11 0 = 0 ∨ op = 3) (bad 0), failIf (op = 1 ∧ (span = 0 ∨ 65536 < span)) (bad 4), failIf (op ≠ 1 ∧ span ≠ 0) (bad 4),
    failIf (op = 1 ∧ span < fld p 2 15 0 + n) (bad 12), failIf (12 ≤ ch ∧ 1015 < n) (bad 12), failIf (12 ≤ ch ∧ wnat p 4 ≠ 0) (bad 16)]
    ++ (if op = 2 then [] else (List.range n).map (fun i =>
      let w := entryWord ch p bulk 5 i
      failIf (bits w 30 28 ≠ 0 ∨ bits w 15 9 ≠ 0 ∨ (if bits w 27 16 = h.disc.switchNo then 263 < bits w 8 0 else bits w 8 0 ≠ 0)) (bad (entryOffset ch 5 i))))
    ++ [failIf (op = 1 ∧ rankPool < spansUsed (rankApply (h.stagedRanks ch) ch p bulk)) (some (stNoResource, 1))])

/-- What RANK_TABLE_LOAD checks of its payload, beyond the envelope (R53). -/
def failRankTableLoad (_fz : Fuses) (h : Hw) (ch : Nat) (p : List Word) (bulk : List Byte) : Option Fail := checkRankTable h ch p bulk

/-- What the response of RANK_TABLE_LOAD carries. -/
def outRankTableLoad (h : Hw) (ch : Nat) (p : List Word) : List Word := [w32 (rankPool - spansUsed (rankApply (h.stagedRanks ch) ch p []))]

/-- RANK_TABLE_LOAD (R446); the response gives POOL_FREE after the set as staged. -/
def execRankTableLoad (ch : Nat) : State → Out := atUnit ch 16 <| onHw (fun fz h => h.configure ch 0x0A04 (failRankTableLoad fz h ch) (outRankTableLoad h ch))

def applyRankTable (h : Hw) (ch : Nat) (s : Staged) : Hw := { h with disc := { h.disc with ranks := rankApply h.disc.ranks ch s.words s.bulk } }

/-- Pair 0x0A02: a LOAD and the region it loads into. -/
def pairRanks (after : Hw) (p : List Word) : Option Nat :=
  if fld p 0 17 16 ≠ 0 then none
  else match tget? after.disc.ranks (fld p 0 11 0) with
    | some g => if fld p 2 15 0 + fld p 3 16 0 ≤ g.span then none else some 0x0A02
    | none => some 0x0A02

/-- The rank table's entry of a rank (R446): the switch and port, or none. -/
def Hw.rankEntry (h : Hw) (job rank : Nat) : Option (Nat × Nat) :=
  match tget? h.disc.ranks job with
  | none => none
  | some g =>
    let w := tget 0 g.entries rank
    if rank < g.span ∧ w.testBit 31 then some (bits w 27 16, bits w 8 0) else none

/-- Whether a job is admitted at a port (R448). -/
def Hw.admits (h : Hw) (p job : Nat) : Bool := tget false (h.port p).admitted job

/-- What JOB_ADMIT checks of its payload, beyond the envelope (R53). -/
def failJobAdmit (_fz : Fuses) (_h : Hw) (ch : Nat) (p : List Word) (bulk : List Byte) : Option Fail :=
  let op := fld p 0 17 16
  firstFail [failIf (263 < fld p 0 8 0 ∧ fld p 0 8 0 ≠ 0x1FF) (bad 0), failIf (op = 3) (bad 0), failIf (12 ≤ ch ∧ op = 2) (bad 0),
    failIf (op < 2 ∧ fld p 1 11 0 = 0) (bad 4), failIf (op = 2 ∧ fld p 1 11 0 ≠ 0) (bad 4),
    failIf (op = 2 ∧ (bulk.getD 0 0).getLsbD 0) (bad 8)]

/-- JOB_ADMIT (R448). -/
def execJobAdmit (ch : Nat) : State → Out := atUnit ch 16 <| onHw (fun fz h => h.configure ch 0x0A05 (failJobAdmit fz h ch))

def applyJobAdmit (h : Hw) (s : Staged) : Hw :=
  let p := s.words
  let job := fld p 1 11 0
  let ports := if fld p 0 8 0 = 0x1FF then List.range 264 else [fld p 0 8 0]
  let f (t : Tbl Bool) : Tbl Bool := match fld p 0 17 16 with
    | 0 => tput t job true
    | 1 => tdel t job
    | _ => ((List.range 4096).filter (fun j => (s.bulk.getD (j / 8) 0).getLsbD (j % 8))).map (fun j => (j, true))
  ports.foldl (fun h q => h.modPort q (fun x => { x with admitted := f x.admitted })) h

end Sys2Proof.Machine
end

