-- ==== Sys2Proof/Machine/Mesh.lean ====
section
/-!
DEFINITION. The package mesh: addresses, mesh packets, the two regimes, routes with their detours, multicast, injection, flits and relays
(R154 to R179).
-/

namespace Sys2Proof.Machine
open Sys2Proof

/-! ### Addresses (R160, R161) -/

/-- The identity location of an address map entry: router and attachment (Table 6.4). -/
def identityLoc (n : Nat) : Nat × Nat :=
  if n < 128 then (n, 0)
  else if n < 132 then (cxAt (4 + (n - 128)) 0, 3)
  else if n < 136 then (cxAt (8 + (n - 132)) 7, 3)
  else if n = 136 then (cxAt 0 3, 3) else (cxAt 0 4, 3)

/-- The location of an address in an epoch. -/
def Hw.locate (h : Hw) (e n : Nat) : Nat × Nat := (tget? h.mesh.amap (e * 4096 + n)).getD (identityLoc n)

/-- The complex or tiller at a location. -/
def locCx (l : Nat × Nat) : Nat := if l.2 = 1 ∨ l.2 = 2 then 128 + 2 * cxScd l.1 + (l.2 - 1) else l.1

/-- The attachment code of a complex or tiller. -/
def attachOf (c : Nat) : Nat := if c < 128 then 0 else 1 + (c - 128) % 2

/-- The state of the attachment at a location (R174); a memory or CD node is lost with its router alone. -/
def Hw.locState (h : Hw) (l : Nat × Nat) : Attach :=
  if l.2 = 3 then (if h.routerOut l.1 then .detached else .serving) else (h.cx (locCx l)).attach

/-- The drain counter of the epoch that injections do not use, as latched. -/
def Mesh.drainCount (m : Mesh) : Nat := if m.injEpoch = 0 then m.drains.2 else m.drains.1

/-- The address at which a complex or tiller serves: its own router, or the address a tiller stands in for. -/
def Hw.cxAddress (h : Hw) (c : Nat) : Nat := if c < 128 then c else (h.cx c).tillerOf.getD (cxRouter c)

/-- Where memory node n (0 to 7) is reached in an epoch (R16): at the location its entry names or, while that router is fenced, at the next router eastward of the stack's group
that is in service, wrapping; nowhere with none in service, or once the entries of a lost stack are unmapped. -/
def Hw.nodeLocation (h : Hw) (e n : Nat) : Option (Nat × Nat) :=
  let r := (h.locate e (128 + n)).1
  let west := if n < 4 then 4 else 8
  if h.mesh.unmapped.contains (128 + n) then none
  else ((List.range 4).map (fun i => cxAt (west + (r % 16 + i - west) % 4) (r / 16))).find? (fun q => ! h.routerOut q) |>.map (fun q => (q, 3))

/-- A table of one epoch copied into the other. -/
def copyEpoch {α : Type} (t : Tbl α) (e : Nat) : Tbl α :=
  (t.filter (fun a => a.1 / 4096 = e)).foldl (fun u a => tput u ((1 - e) * 4096 + a.1 % 4096) a.2) (t.filter (fun a => a.1 / 4096 = e))

/-- Firmware's own flip (R178, R476, R490): every table of the injection epoch is copied into the other, with changes to the address map and the sheaves, and the flip waits for a tick. -/
def Hw.firmwareFlip (h : Hw) (tick : Nat) (amap : Tbl (Nat × Nat) → Tbl (Nat × Nat) := id) (sheaves : Tbl Sheaf → Tbl Sheaf := id) : Hw :=
  let e := h.mesh.injEpoch
  h.modMesh (fun m => { m with
    amap := amap (copyEpoch m.amap e), fwd := copyEpoch m.fwd e, nexthop := copyEpoch m.nexthop e, sheaves := sheaves (copyEpoch m.sheaves e),
    flipNext := some (1 - e), flipAt := tick, slowTicks := 64, copying := [1 - e] })

/-- Whether reason FLIP is set (Table 6.5). -/
def Mesh.flipping (m : Mesh) : Bool := m.reasons.getLsbD 1

/-! ### Routes -/

/-- The x direction and the y direction of R161. -/
def xDir (xs xd : Nat) : Nat := if (xd + 16 - xs) % 16 ≤ 8 then 0 else 1
def yDir (ys yd : Nat) : Nat := if (yd + 8 - ys) % 8 ≤ 4 then 3 else 2

/-- The next direction of dimension order, or none at the destination. -/
def nextDir (r dest : Nat) : Option Nat :=
  if r % 16 ≠ dest % 16 then some (xDir (r % 16) (dest % 16))
  else if r / 16 ≠ dest / 16 then some (yDir (r / 16) (dest / 16))
  else none

/-- Whether a hop crosses its ring's dateline (R162). -/
def crossesDateline (r d : Nat) : Bool :=
  match d with
  | 0 => r % 16 = 15
  | 1 => r % 16 = 0
  | 2 => r / 16 = 0
  | _ => r / 16 = 7

/-- The routers a unicast visits by dimension order, its source left out. -/
def dimPath : Nat → Nat → Nat → List Nat
  | 0, _, _ => []
  | n + 1, r, dest => match nextDir r dest with
    | some d => stepDir r d :: dimPath n (stepDir r d) dest
    | none => []

/-! ### Mesh packets (R158, Table 6.3) -/

/-- Flits of a part with n payload bytes. -/
def partFlits (n : Nat) : Nat := if n ≤ 448 then 1 else max 2 (cdiv n 512)

/-- The mesh header (Table 6.3) as sixteen words, its MH_PARITY as the packet carries it. A part of one flit has the form SHORT. -/
def MeshPkt.words (m : MeshPkt) : List Word :=
  [w32 (m.kind * 2 ^ 29 + m.cls * 2 ^ 27 + m.epoch * 2 ^ 26 + m.rule * 2 ^ 25 + b2n (m.flits ≠ 1) * 2 ^ 24 + m.flits * 2 ^ 20 + m.part * 2 ^ 19 + b2n m.lastPart * 2 ^ 18
      + b2n m.toPort * 2 ^ 17 + m.dest * 2 ^ 8 + m.src), m.pkt.trailer]
  ++ (List.range 4).map (fun i => w32 (m.mask.toNat >>> (32 * (3 - i))))
  ++ [w32 (m.sweepLen * 2 ^ 28 + b2n m.sweepWest * 2 ^ 27 + m.detour * 2 ^ 24 + m.creditCls * 2 ^ 22 + m.attach * 2 ^ 20 + m.ports.toNat >>> 256)]
  ++ (List.range 8).map (fun i => w32 (m.ports.toNat >>> (32 * (7 - i)))) ++ [w32 m.mhParity]

/-- The mesh packet with MH_PARITY computed (R159). -/
def MeshPkt.seal (m : MeshPkt) : MeshPkt := { m with mhParity := hdrParity m.words }

/-- Whether MH_PARITY is right and no field has a value that Table 6.3 marks as an error (R159). -/
def MeshPkt.headerOk (m : MeshPkt) : Bool :=
  decide (1 ≤ m.kind ∧ m.kind ≤ 5 ∧ 1 ≤ m.flits ∧ m.flits ≤ 8) && decide (m.mhParity = hdrParity m.words)

/-- The mesh packets that carry one packet as `base` says. -/
def meshParts (base : MeshPkt) : List MeshPkt :=
  let n := base.pkt.len
  if n ≤ 4096 then [({ base with part := 0, lastPart := true, flits := partFlits n } : MeshPkt).seal]
  else [({ base with part := 0, lastPart := false, flits := partFlits 4096 } : MeshPkt).seal, ({ base with part := 1, lastPart := true, flits := partFlits (n - 4096) } : MeshPkt).seal]

/-- A mesh packet for a packet, from a router, with no target yet. -/
def meshBase (k : Pkt) (epoch src job ingress : Nat) : MeshPkt :=
  { kind := 1, cls := k.cls, epoch := epoch, dest := src, src := src, pkt := k, job := job, ingress := ingress }

/-- A unicast to a location, for a function or for ports. -/
def meshUnicast (b : MeshPkt) (l : Nat × Nat) (ports : BitVec 264) (toPort : Bool) : MeshPkt :=
  { b with kind := 1, dest := l.1, attach := l.2, ports := ports, toPort := toPort }

def maskOf (l : List Nat) : BitVec 128 := l.foldl (fun m r => m ||| BitVec.ofNat 128 (2 ^ r)) 0
def portMask (l : List Nat) : BitVec 264 := l.foldl (fun m p => m ||| BitVec.ofNat 264 (2 ^ p)) 0
def portsOf (m : BitVec 264) : List Nat := natsWhere 264 (fun p => m.getLsbD p)
def routersOf (m : BitVec 128) : List Nat := natsWhere 128 (fun r => m.getLsbD r)

/-- Where a packet for a port is sent now: its home, or the home it is moving to (R145). -/
def Hw.sendHome (h : Hw) (p : Nat) : Nat :=
  match (h.port p).move with
  | .orderly _ toAlt => if toAlt then alternateHome p else primaryHome p
  | _ => h.home p

/-! ### Injections (R143, R166, R167, R169) -/

/-- The sweep over a row's targets from column xs (R167): its length and whether it runs west. -/
def sweepOf (xs : Nat) (cols : List Nat) : Nat × Bool :=
  let e := cols.foldl (fun m x => max m ((x + 16 - xs) % 16)) 0
  let w := cols.foldl (fun m x => max m ((xs + 16 - x) % 16)) 0
  if e ≤ w then (e, false) else (w, true)

/-- Whether a target home is served by a unicast substitute (R169). -/
def Hw.substituted (h : Hw) (c e : Nat) (tree : Bool) (t : Nat) : Bool :=
  h.locate e t ≠ identityLoc t ∨ h.locState (h.locate e t) ≠ .serving
  ∨ (tree ∧ h.mesh.fenced.contains (cxAt (t % 16) (cxRouter c / 16)))

/-- The injections of a packet for the ports of M away from complex c: each the mesh packets of one entry, with the relay credit it needs; and the
number of unicast substitutes. -/
def Hw.injections (h : Hw) (c : Nat) (b : MeshPkt) (m : BitVec 264) (multicast line : Bool) : List InjEntry × Nat :=
  let e := b.epoch
  let ports := (portsOf m).filter (fun p => h.sendHome p ≠ c)
  let homes := (ports.map h.sendHome).dedup
  let at_ (t : Nat) : BitVec 264 := portMask (ports.filter (fun p => h.sendHome p = t))
  let uni (t : Nat) : InjEntry := { ptr := none, parts := meshParts (meshUnicast b (h.locate e t) (at_ t) true) }
  let tree (ts : List Nat) : InjEntry :=
    { ptr := none, parts := meshParts { b with kind := 2, mask := maskOf ts, ports := m, toPort := true } }
  if ¬ multicast then (homes.map uni, 0)
  else
    let line := line && decide (c < 128)
    let subs := homes.filter (h.substituted c e (!line))
    let rest := homes.filter (fun t => ¬ subs.contains t)
    let xs := cxRouter c % 16
    let ys := cxRouter c / 16
    let asTree (y : Nat) : Bool := let turn := cxAt xs y; decide (h.locState (h.locate e turn) ≠ .serving ∨ h.locate e turn ≠ identityLoc turn)
    let main := if rest = [] then []
      else if ¬ line then [tree rest]
      else (rest.map (· / 16)).dedup.flatMap (fun y =>
        let ts := rest.filter (fun t => t / 16 = y)
        let (n, west) := sweepOf xs (ts.map (· % 16))
        let turn := cxAt xs y
        let b' := { b with mask := maskOf ts, ports := m, toPort := true, sweepLen := n, sweepWest := west }
        if y = ys then [{ ptr := none, parts := meshParts { b' with kind := 4 } }]
        else if asTree y then
          let (off, on) := ts.partition (h.substituted c e true)
          off.map uni ++ (if on = [] then [] else [tree on])
        else [{ ptr := none, parts := meshParts { b' with kind := 3, dest := turn }, needs := some (y, b.cls) }])
    let more := if line then (rest.filter (fun t => decide (t / 16 ≠ ys) && asTree (t / 16) && h.substituted c e true t)).length else 0
    (subs.map uni ++ main, subs.length + more)

/-! ### Moves through a router (R155, R157, R161 to R166, R176) -/

/-- Where a hop leads: out by a direction, or to the attachment of a code. -/
inductive Hop where
  | out (dir : Nat) (mp : MeshPkt)
  | eject (attach : Nat) (mp : MeshPkt)
  | drop (mp : MeshPkt)
  deriving DecidableEq, Repr

/-- The detour steps round a fenced router met in direction d: straight past it, or turning at it into direction d2. -/
def detourSteps (d : Nat) (turn : Option Nat) : List Nat :=
  match turn with
  | some d2 => [d2, d]
  | none => if d < 2 then [3, d, d, 2] else [0, d, d, 1]

/-- One hop of a copy in direction d, with the detour of R176 when the next router is in FENCED_ROUTERS; a router being discarded toward (R175), one
of a pair whose separation is lost (R177), or a fenced router that is the destination itself drops the copy. -/
def Hw.hopOut (h : Hw) (r d : Nat) (turn : Option Nat) (mp : MeshPkt) : Hop :=
  let f := stepDir r d
  let last := decide (mp.kind ≠ 2 ∧ mp.kind ≠ 4 ∧ f = mp.dest)
  if h.mesh.discarding.contains f ∨ h.mesh.separation.any (fun s => s.1 = f ∨ s.2 = f) then .drop mp
  else if h.mesh.fenced.contains f then
    match (if last then [] else detourSteps d turn) with
    | d0 :: rest => .out d0 { mp with detour := 1, detourPath := rest }
    | [] => .drop mp
  else .out d mp

/-- The hops of a TREE copy at a router toward targets (R166): its own complex; on row ys of the injecting router the y branches of this column and the x branches on; off
that row the y branch on. Directions are those of R161 from the injecting router. -/
def Hw.treeHops (h : Hw) (r : Nat) (mp : MeshPkt) (ts : List Nat) : List Hop :=
  let xs := mp.dest % 16
  let ys := mp.dest / 16
  let toward (ds : List Nat) (dirOf : Nat → Nat) (l : List Nat) (hop : Nat → List Nat → List Hop) : List Hop :=
    ds.flatMap (fun d => match l.filter (fun t => dirOf t = d) with
      | [] => []
      | g => hop d g)
  let copy (l : List Nat) : MeshPkt := { mp with mask := maskOf l }
  let yOf (t : Nat) : Nat := yDir ys (t / 16)
  let own := if ts.contains r then [Hop.eject 0 (copy [r])] else []
  let col := ts.filter (fun t => t % 16 = r % 16 ∧ t ≠ r)
  let yHops := toward [2, 3] yOf col (fun d l => [h.hopOut r d none (copy l)])
  if r / 16 ≠ ys then own ++ yHops
  else
    own ++ yHops ++ toward [0, 1] (fun t => xDir xs (t % 16)) (ts.filter (fun t => t % 16 ≠ r % 16)) (fun d l =>
      let f := stepDir r d
      if h.mesh.fenced.contains f then
        let turns := l.filter (fun t => t % 16 = f % 16)
        let on := l.filter (fun t => t % 16 ≠ f % 16)
        toward [2, 3] yOf turns (fun dy tl => [h.hopOut r d (some dy) (copy tl)]) ++ (if on = [] then [] else [h.hopOut r d none (copy on)])
      else [h.hopOut r d none (copy l)])

/-- The hops of a LINE_SWEEP at a router toward targets (R167): its own complex, and on along the row while the sweep's length lasts. -/
def Hw.sweepHops (h : Hw) (r : Nat) (mp : MeshPkt) (ts : List Nat) : List Hop :=
  let d := if mp.sweepWest then 1 else 0
  let gone := if mp.sweepWest then (mp.src % 16 + 16 - r % 16) % 16 else (r % 16 + 16 - mp.src % 16) % 16
  let rest := ts.filter (· ≠ r)
  (if ts.contains r then [Hop.eject 0 { mp with mask := maskOf [r] }] else [])
  ++ (if rest = [] ∨ mp.sweepLen ≤ gone then [] else [h.hopOut r d none { mp with mask := maskOf rest }])

/-- The hops a mesh packet at router r still needs. A copy for targets whose attachments are DETACHED at this moment is dropped here (R170); nothing is copied or ejected in
a detour (R176). -/
def Hw.hopsOf (h : Hw) (r : Nat) (mp : MeshPkt) : List Hop :=
  match mp.detourPath with
  | d :: rest =>
    let f := stepDir r d
    if h.mesh.discarding.contains f ∨ h.mesh.fenced.contains f then [.drop mp]
    else [.out d { mp with detour := mp.detour + 1, detourPath := rest }]
  | [] =>
    let mp := { mp with detour := 0 }
    if mp.kind = 2 ∨ mp.kind = 4 then
      let (dead, ts) := (routersOf mp.mask).partition (fun t => decide (h.locState (t, 0) = .detached))
      (if dead = [] then [] else [.drop { mp with mask := maskOf dead }]) ++ (if mp.kind = 2 then h.treeHops r mp ts else h.sweepHops r mp ts)
    else match nextDir r mp.dest with
      | none => [.eject (if mp.kind = 3 ∨ mp.kind = 5 then 0 else mp.attach) mp]
      | some d =>
        let f := stepDir r d
        [h.hopOut r d (if d < 2 ∧ f % 16 = mp.dest % 16 ∧ f ≠ mp.dest then some (yDir (r / 16) (mp.dest / 16)) else none) mp]

/-- The routers that the copies of a mesh packet visit from router r, with its detours. -/
def Hw.visits (h : Hw) : Nat → Nat → MeshPkt → List Nat
  | 0, _, _ => []
  | n + 1, r, mp => (h.hopsOf r mp).flatMap (fun q => match q with
    | .out d k => stepDir r d :: h.visits n (stepDir r d) k
    | _ => [])

/-! ### Links (R154 to R156, R180) -/

/-- The flits that may be under way on the link into a router from a direction: the allowance of L5, greater on a seam link with its crossing FIFO. -/
def linkWindow (r d : Nat) : Nat := if r / 64 ≠ stepDir r d / 64 then 8 else 4

/-- Whether a mesh packet may start on VC v of an input (R155): 8 credits held and no mesh packet allocated; at a local port the buffer is empty. -/
def Hw.vcFree (h : Hw) (r input v : Nat) : Bool :=
  if input < 4 then let i := h.linkIn r input; decide (i.held v = 8) && ! i.transfers.any (·.vc = v) else (tget? (h.router r).vcs (8 * input + v)).isNone

/-- The output that feeds a link sends flits of its oldest copy while the link has room and the flits are there (R155): each spends a credit and is kept for a resend. -/
def Hw.sendFlits : Nat → Hw → Nat → Nat → Hw
  | 0, h, _, _ => h
  | n + 1, h, r, d =>
    let i := h.linkIn r d
    let s := stepDir r d
    match i.transfers with
    | [] => h
    | t :: rest =>
      match tget? (h.router s).vcs t.src with
      | none => h
      | some b =>
        if linkWindow r d ≤ i.wire.length ∨ b.got ≤ t.sent then h
        else
          let f : Flit := { fseq := i.seq, vc := t.vc, idx := t.sent, mp := t.mp }
          let last := decide (t.mp.flits ≤ t.sent + 1)
          let h := h.modIn r d (fun i => { i with
            wire := i.wire ++ [f], kept := (i.kept ++ [f]).drop (i.kept.length + 1 - 32), seq := (i.seq + 1) % 32,
            credits := tput i.credits t.vc (i.held t.vc - 1), transfers := if last then rest else { t with sent := t.sent + 1 } :: rest })
          let h := h.countRouter s (d ^^^ 1)
          Hw.sendFlits n (if last then h.copySent s t.src else h) r d

/-- A flit enters its VC buffer: the first takes the buffer. A later one whose mesh packet has been discarded returns its credit. -/
def Hw.storeFlit (h : Hw) (r d : Nat) (f : Flit) : Hw :=
  let key := 8 * d + f.vc
  if f.idx = 0 then h.modRouter r (fun x => { x with vcs := tput x.vcs key { mp := f.mp }, order := x.order ++ [key] })
  else if (tget? (h.router r).vcs key).isSome then h.modVc r key (fun b => { b with got := b.got + 1 })
  else h.modIn r d (fun i => { i with credits := tput i.credits f.vc (i.held f.vc + 1) })

/-- MESH_FLIT_RECEIVE (R156): the next flit on the link into a router from a direction arrives. One that fails a check is discarded, with every later one until it arrives
again: the output resends from it, up to three times; the third resend that fails too fences the receiving router. -/
def execMeshFlitReceive (router dir : Nat) (parityOk : Bool) : State → Out := atUnit router 128 <| onHw (fun _ h =>
  if 4 ≤ dir then h
  else
    let h := h.sendFlits 8 router dir
    let i := h.linkIn router dir
    match i.wire with
    | [] => h
    | f :: rest =>
      let h := h.modIn router dir (fun i => { i with wire := rest })
      if i.nak.any (· ≠ f.fseq) then h
      else if ¬ parityOk then
        if i.resent < 3 then
          ((h.modIn router dir (fun i => { i with
            nak := some f.fseq, resent := i.resent + 1, wire := rest ++ i.kept.dropWhile (fun k => k.fseq ≠ f.fseq) })).countRouter router 12).report
            0x301 0 (unitNo 5 router) 1
        else (h.report 0x302 1 (unitNo 5 router) 2).fence (unitNo 5 router) 0x302
      else
        let h := h.modIn router dir (fun i => { i with expect := (f.fseq + 1) % 32, nak := none, resent := 0 })
        (h.storeFlit router dir f).sendFlits 8 router dir)

/-! ### Hops -/

/-- The VC a copy takes at the next router, with its rule, or none while it must wait (R162 to R164). -/
def Hw.nextVc (h : Hw) (r input vc d : Nat) (mp : MeshPkt) : Option (Nat × MeshPkt) :=
  let nr := stepDir r d
  let inp := d ^^^ 1
  let entering := decide (input ≠ d ^^^ 1 ∨ mp.detour ≠ 0)
  let rule := if entering then b2n h.mesh.regimeBubble else mp.rule
  let a := 2 * mp.cls
  let mp := { mp with rule := rule }
  if rule = 0 then
    let v := if crossesDateline r d then a + 1 else if entering then a else a + vc % 2
    if h.vcFree nr inp v then some (v, mp) else none
  else if entering then (if h.vcFree nr inp a ∧ h.vcFree nr inp (a + 1) then some (a, mp) else none)
  else if h.vcFree nr inp a then some (a, mp)
  else if h.vcFree nr inp (a + 1) then some (a + 1, mp) else none

/-- Whether the attachment can take an ejected mesh packet now: two of a class wait at most, and TC3 never waits (R135). (DESIGN CHOICE, log 15, unsafe.) -/
def Hw.canEject (h : Hw) (r attach : Nat) (mp : MeshPkt) : Bool :=
  let two (l : List MeshPkt) : Bool := mp.cls = 3 || decide ((l.filter (·.cls = mp.cls)).length < 2)
  if attach = 3 then two (tget [] h.mesh.nodes r)
  else
    let x := h.cx (locCx (r, attach))
    if mp.kind = 3 then true else if mp.kind = 5 then true else if mp.toPort then two x.arrivals else two x.work

/-- Whether a hop of the mesh packet in a VC buffer can be made now: a copy may leave once the head is there, an ejection and a drop need the tail. -/
def Hw.hopReady (h : Hw) (r input vc : Nat) (b : VcBuf) : Hop → Bool
  | .out d mp => (h.nextVc r input vc d mp).isSome
  | .eject a mp => decide (b.mp.flits ≤ b.got) && (h.locState (r, a) = .detached || h.canEject r a mp)
  | .drop _ => b.mp.flits ≤ b.got

/-- The output a hop uses: 0 to 3, 4 the complex, 5 the other local port, 6 none. -/
def Hop.output : Hop → Nat
  | .out d _ => d
  | .eject a _ => if a = 0 then 4 else 5
  | .drop _ => 6

/-- The ports that a multicast copy was to serve: those of PORT_MASK whose homes its COMPLEX_MASK names. -/
def Hw.branchPorts (h : Hw) (mp : MeshPkt) : List Nat := (portsOf mp.ports).filter (fun p => mp.mask.getLsbD (h.home p))

/-- A copy is dropped at a router (R144, R170): MESH_DROPPED_FENCED, and for a multicast SHORT_DELIVERY at each port of the branch. -/
def Hw.dropCopy (h : Hw) (r : Nat) (mp : MeshPkt) : Hw :=
  let h := h.meshDrop r
  if 2 ≤ mp.kind ∧ mp.kind ≤ 4 then (h.branchPorts mp).foldl (fun h p => h.count p 23) h else h

/-- Deliver an ejected mesh packet to the attachment of a router. -/
def Hw.ejectTo (h : Hw) (r attach : Nat) (mp : MeshPkt) : Hw :=
  if h.locState (r, attach) = .detached then h.dropCopy r mp
  else
    let h := h.countRouter r 5 mp.flits
    if attach = 3 then h.modMesh (fun m => { m with nodes := tmod [] m.nodes r (· ++ [mp]) })
    else h.modCx (locCx (r, attach)) (fun x =>
      if mp.kind = 3 then { x with relayIn := x.relayIn ++ [mp] }
      else if mp.kind = 5 then { x with creditsIn := x.creditsIn ++ [mp] }
      else if mp.toPort then { x with arrivals := x.arrivals ++ [mp] }
      else { x with work := x.work ++ [mp] })

/-- Make one hop that is ready, from the VC buffer of an input. A copy that leaves has MH_PARITY recomputed (R159). -/
def Hw.makeHop (h : Hw) (r input vc : Nat) : Hop → Hw
  | .drop mp => h.dropCopy r mp
  | .eject a mp => (h.ejectTo r a mp).modRouter r (fun x => { x with rr := tput x.rr (Hop.eject a mp).output input })
  | .out d mp =>
    match h.nextVc r input vc d mp with
    | none => h
    | some (v, mp) =>
      let key := 8 * input + vc
      let h := if mp.rule = 0 ∧ crossesDateline r d then h.countRouter r 8 else h
      let h := if mp.detour = 1 then h.countRouter r 9 else h
      let h := if mp.kind = 2 ∧ (tget? (h.router r).vcs key).any (·.sent) then h.countRouter r 6 else h
      let h := (h.modRouter r (fun x => { x with rr := tput x.rr d input })).modVc r key (fun b => { b with busy := b.busy + 1, sent := true })
      (h.modIn (stepDir r d) (d ^^^ 1) (fun i => { i with transfers := i.transfers ++ [{ mp := mp.seal, vc := v, src := key }] })).sendFlits 8 (stepDir r d) (d ^^^ 1)

/-- Whether another buffer of the router goes first on an output (R157): TC2 before the rest, then the inputs in turn; within an input and class the one that arrived first,
ready or not. -/
def Hw.beaten (h : Hw) (r key : Nat) (mp : MeshPkt) (o : Nat) : Bool :=
  let x := h.router r
  let turn (k : Nat) : Nat := (k / 8 + 11 - tget 5 x.rr o) % 6
  x.vcs.any (fun e =>
    e.1 ≠ key && ! e.2.done
    && (let mine := (h.hopsOf r e.2.mp).filter (fun q => decide (q.output = o))
        if e.1 / 8 = key / 8 ∧ e.2.mp.cls = mp.cls then decide (mine ≠ []) && decide (x.order.idxOf e.1 < x.order.idxOf key)
        else mine.any (fun q => h.hopReady r (e.1 / 8) (e.1 % 8) e.2 q)
          && (if (e.2.mp.cls = 2) ≠ (mp.cls = 2) then decide (e.2.mp.cls = 2) else decide (turn e.1 < turn key))))

/-- What remains of a mesh packet once some of its hops are made: a tree or sweep keeps the targets it still serves. -/
def remainder (mp : MeshPkt) (left : List Hop) : MeshPkt :=
  { mp with mask := left.foldl (fun m q => match q with
      | .out _ k => m ||| k.mask
      | .eject _ k => m ||| k.mask
      | .drop k => m ||| k.mask) 0 }

/-- MESH_PACKET_ROUTE (R161, R166, R170, R176): the mesh packet in one VC buffer moves on by every hop that is ready and that no other buffer
precedes; the buffer is free when no hop is left and the tail of every copy has left. A bad header is discarded (R159). -/
def execMeshPacketRoute (router input vc : Nat) : State → Out := atUnit router 128 <| onHw (fun _ h =>
  let key := 8 * input + vc
  match tget? (h.router router).vcs key with
  | none => h
  | some b =>
    if 8 ≤ vc ∨ b.done then h
    else if ¬ b.mp.headerOk then
      if b.mp.flits ≤ b.got then ((h.freeVc router key).countRouter router 11).report 0x303 0 (unitNo 5 router) else h
    else
      let (h, stay) := (h.hopsOf router b.mp).foldl (fun (a : Hw × List Hop) q =>
        if a.1.hopReady router input vc b q ∧ ¬ a.1.beaten router key b.mp q.output then (a.1.makeHop router input vc q, a.2) else (a.1, a.2 ++ [q])) (h, [])
      if stay ≠ [] then h.modVc router key (fun b => { b with mp := (if b.mp.kind = 2 ∨ b.mp.kind = 4 then (remainder b.mp stay).seal else b.mp) })
      else if (tget? (h.router router).vcs key).any (fun b => decide (b.busy = 0)) then h.freeVc router key
      else h.modVc router key (fun b => { b with done := true }))

/-! ### Injection (R143, R175) -/

/-- Whether the injecting complex discards a mesh packet (R175): its path, detours included, would pass through a router fenced by a fault before the next E3. -/
def Hw.injectDiscard (h : Hw) (mp : MeshPkt) : Bool :=
  h.mesh.discarding ≠ [] && ((h.modMesh (fun m => { m with discarding := [], separation := [] })).visits 32 mp.src mp).any (fun r => h.mesh.discarding.contains r)

/-- The free local VC of a router's input for a class. -/
def Hw.localVc (h : Hw) (r input cls : Nat) : Option Nat :=
  if h.vcFree r input (2 * cls) then some (2 * cls) else if h.vcFree r input (2 * cls + 1) then some (2 * cls + 1) else none

/-- Whether the first mesh packet of an entry can be injected now: a local VC, and the relay credit of a LINE_LEG. -/
def Hw.entryReady (h : Hw) (c input : Nat) (e : InjEntry) : Bool :=
  match e.parts with
  | [] => true
  | mp :: _ => h.injectDiscard mp || ((h.localVc (cxRouter c) input mp.cls).isSome
      && (match e.needs with | some n => ¬ (h.cx c).relayCredits.contains n | none => true))

/-- The credit of a LINE_LEG is spent when its first part is injected. -/
def Complex.spend (x : Complex) (e : InjEntry) : Complex :=
  match e.needs with
  | some n => { x with relayCredits := x.relayCredits ++ [n] }
  | none => x

/-- A buffer whose last injection has ended, and which no hand-off still names, leaves the ingress complex: its last reference drops, and an ingress
packet's cells are freed for credit return (R113, R128). A relay buffer returns its credit (R168). -/
def Hw.dropInjected (h : Hw) (c p by_ : Nat) (port : Option Nat := none) : Hw :=
  match h.buf? c p with
  | none => h.badPtr c p port
  | some b =>
    let h := h.dropRef c p by_ port
    if (h.buf? c p).isSome then h
    else
      let h := if b.ingress < 264 then h.freeCells b.ingress b.pkt.cls b.pkt.cells else h
      match b.relay with
      | some (src, cls) =>
        let mp := MeshPkt.seal { meshBase (mkPkt [] []) b.epoch (cxRouter c) 0 511 with kind := 5, cls := 3, creditCls := cls, dest := src }
        h.modCx c (fun x => { x with inject := x.inject ++ [{ ptr := none, parts := [mp] }] })
      | none => h

/-- A mesh packet enters a VC of a local port of a router whole: FLITS_INJECTED. -/
def Hw.enterLocal (h : Hw) (r input v : Nat) (mp : MeshPkt) : Hw :=
  (h.modRouter r (fun x => { x with vcs := tput x.vcs (8 * input + v) { mp := mp, got := mp.flits }, order := x.order ++ [8 * input + v] })).countRouter r 4 mp.flits

/-- A memory node puts the first of its mesh packets that can go into its router (R378). -/
def Hw.nodeInject (h : Hw) (cx : Nat) : Hw :=
  let r := cxRouter cx
  match (tget [] h.mesh.nodeOut r).find? (fun mp => h.injectDiscard mp || (h.localVc r 5 mp.cls).isSome) with
  | none => h
  | some mp =>
    let h := h.modMesh (fun m => { m with nodeOut := tmod [] m.nodeOut r (·.erase mp) })
    if h.injectDiscard mp then h.meshDrop r
    else match h.localVc r 5 mp.cls with
      | none => h
      | some v => h.enterLocal r 5 v mp

/-- MESH_INJECT (R143, R158): unless the attachment is DETACHED or the W20 is in the safe state (R174, R467), the first injection entry that can go puts its next mesh packet into the router; the entry ends with its last. Numbers 144 to 151 are the memory nodes. (DEDUCED, log 97, safe.) -/
def execMeshInject (cx : Nat) : State → Out := atUnit cx 152 <| onHw (fun _ h =>
  let x := h.cx cx
  let input := if cx < 128 then 4 else 5
  if 144 ≤ cx ∧ h.faults.state ≠ .safe then h.nodeInject cx
  else if 144 ≤ cx ∨ x.attach = .detached ∨ h.faults.state = .safe then h
  else match x.inject.find? (h.entryReady cx input) with
    | none => h
    | some e =>
      let r := cxRouter cx
      let i := x.inject.idxOf e
      let setE (f : List InjEntry → List InjEntry) (h : Hw) : Hw := h.modCx cx (fun x => { x with inject := f x.inject })
      let port := (e.parts.head?.map (·.ingress)).filter (· < 264)
      if e.ptr.any (fun p => ! h.ptrOk cx p) then (setE (fun l => l.eraseIdx i) h).badPtr cx (e.ptr.getD 0) port
      else
      let (h, rest) := match e.parts with
        | [] => (h, [])
        | mp :: rest =>
          let h := match e.ptr with
            | some p => h.modBuf cx p (fun b => { b with begun := true, owner := 3 })
            | none => h
          if h.injectDiscard mp then (h.meshDrop r, rest)
          else match h.localVc r input mp.cls with
            | none => (h, rest)
            | some v => ((h.modCx cx (fun x => x.spend e)).enterLocal r input v mp, rest)
      if rest ≠ [] then setE (fun l => l.set i { e with parts := rest, needs := if (e.parts.head?.any h.injectDiscard) then e.needs else none }) h
      else
        let h := setE (fun l => l.eraseIdx i) h
        match e.ptr with
        | some p => h.dropInjected cx p 3 port
        | none => h)

/-! ### Relays (R167, R168) -/

/-- Whether the parts of the packet at the head of a list are all there. -/
def wholeIn (l : List MeshPkt) (mp : MeshPkt) : Bool :=
  if mp.part = 0 ∧ mp.lastPart then true
  else l.any (fun q => q.pkt = mp.pkt ∧ q.src = mp.src ∧ q.part = 0) && l.any (fun q => q.pkt = mp.pkt ∧ q.src = mp.src ∧ q.part = 1)

/-- RELAY_SWEEP (R167): the turn complex stores a LINE_LEG in its relay buffer, serves its own ports in M, and injects the LINE_SWEEP from it. -/
def execRelaySweep (cx : Nat) : State → Out := atUnit cx 144 <| onHw (fun _ h =>
  let x := h.cx cx
  match x.relayIn.find? (wholeIn x.relayIn) with
  | none => h
  | some mp =>
    if 128 ≤ cx ∨ x.attach = .detached then h
    else
      let own := (portsOf mp.ports).filter (fun p => h.sendHome p = cx)
      let sweep := maskOf ((routersOf mp.mask).filter (· ≠ cx))
      let base := { mp with kind := 4, mask := sweep, src := cx, dest := cx, part := 0, lastPart := true }
      match x.freePtr cx 4 with
      | none => h
      | some p =>
        let buf : Buf := { pkt := mp.pkt, cls := 4, owner := 3, refs := b2n (sweep ≠ 0), epoch := mp.epoch, relay := some (mp.src, mp.cls), begun := true }
        let h := h.modCx cx (fun x => { x.take p buf with
          relayIn := x.relayIn.filter (fun q => ¬ (q.pkt = mp.pkt ∧ q.src = mp.src)),
          inject := if sweep = 0 then x.inject else x.inject ++ [{ ptr := some p, parts := meshParts base }],
          handoff := if own = [] then x.handoff else x.handoff ++ [(p, portMask own)] })
        let h := h.countRouter cx 14
        if sweep = 0 ∧ own = [] then h.dropInjected cx p 3 else h)

/-- RELAY_CREDIT_RECEIVE (R168): a relay credit comes back to the injecting complex. -/
def execRelayCreditReceive (cx : Nat) : State → Out := atUnit cx 144 <| onHw (fun _ h =>
  h.modCx cx (fun x => match x.creditsIn with
    | [] => x
    | mp :: rest => { x with creditsIn := rest, relayCredits := x.relayCredits.erase (mp.src / 16, mp.creditCls) }))

/-! ### Drain counters (R172) -/

/-- The packets of an epoch whose injections have not all ended, those that wait for a buffer or to be injected among them, and its mesh packets in routers, crossings and
relay buffers, or waiting where they were ejected. (DEDUCED, log 132, unsafe.) -/
def Hw.drain (h : Hw) (e : Nat) : Nat :=
  let early (c p : Nat) : Bool := h.groups.any (fun (g : Nat × Group) => g.2.early.any (fun y => decide (y.cx = c ∧ y.ptr = p)))
  let cxs := h.cxs.map (fun q =>
    let x := q.2
    (x.bufs.filter (fun b => decide (b.2.epoch = e ∧ b.2.relay = none) && (x.inject.any (fun i => i.ptr = some b.1) || early q.1 b.1))).length
    + (x.bufs.filter (fun b => b.2.epoch = e ∧ b.2.relay ≠ none)).length
    + (x.inject.filter (fun i => i.ptr = none ∧ i.parts.any (·.epoch = e))).length + (x.outbox.filter (·.base.epoch = e)).length
    + (x.arrivals.filter (·.epoch = e)).length + (x.work.filter (·.epoch = e)).length + (x.relayIn.filter (·.epoch = e)).length + (x.creditsIn.filter (·.epoch = e)).length)
  let rs := h.mesh.routers.map (fun q =>
    (q.2.vcs.filter (fun v => v.2.mp.epoch = e)).length
    + (q.2.inputs.map (fun i => (i.2.wire.filter (fun f => decide (f.mp.epoch = e) && decide (f.mp.flits ≤ f.idx + 1))).length)).sum)
  let ns := (h.mesh.nodes ++ h.mesh.nodeOut).map (fun q => (q.2.filter (·.epoch = e)).length)
  cxs.sum + rs.sum + ns.sum + (h.ports.map (fun p => (p.2.movedWait.filter (·.epoch = e)).length)).sum

end Sys2Proof.Machine
end

