-- ==== Sys2Proof/Machine/Datapath.lean ====
section
/-!
DEFINITION. The forwarding lookup, multicast, forwarding from the ingress complex, the egress store and hand-off, moves of ports, and the datapath
and mesh commands (R117 to R153, R171 to R188).
-/

namespace Sys2Proof.Machine
open Sys2Proof

/-! ### Lookup (R120 to R122, R142) -/

/-- The flow hash of R122 over a set of L live members. -/
def flowMember (job src dst seed live : Nat) : Nat :=
  let c := crc32 (natBytes 2 job ++ natBytes 2 src ++ natBytes 2 dst ++ natBytes 2 seed)
  bits c 31 16 * live / 65536

/-- The next live member after the one chosen last, in member order. -/
def sprayNext (members : List Nat) (live : Nat → Bool) (last : Nat) : Option Nat :=
  let idx := (List.range members.length).filter (fun i => live (nth members i))
  (idx.find? (fun i => last ≤ i)).or idx.head?

/-- The port of a next-hop set for a packet entering at a port, or none: TC0 and TC1 are sprayed, TC2 and TC3 hashed (R122). A packet
that complex c sends itself enters as 300 + c and is sprayed by a pointer of that complex. -/
def Hw.nextHop (h : Hw) (epoch ingress set : Nat) (k : Pkt) : Hw × Option Nat :=
  let s := tget {} h.mesh.nexthop (epoch * 4096 + set)
  let live (p : Nat) : Bool := ¬ h.winnowed p
  if k.cls < 2 then
    let c := if ingress < 264 then h.home ingress else ingress - 300
    let key := (if ingress < 264 then ingressOwner ingress else 3) * 8192 + epoch * 4096 + set
    match sprayNext s.members live (tget 0 (h.cx c).pointers key) with
    | some i => (h.modCx c (fun x => { x with pointers := tput x.pointers key (i + 1) }), some (nth s.members i))
    | none => (h, none)
  else
    let l := s.members.filter live
    if l = [] then (h, none)
    else (h, some (nth l (flowMember k.job k.src (if k.mcast then k.sheaf else k.dst) s.seed l.length)))

/-- Where a unicast packet goes (R121): the counter of its drop, or its port. -/
def Hw.route (h : Hw) (epoch ingress : Nat) (k : Pkt) : Hw × (Nat ⊕ Nat) :=
  let local_ (p : Nat) : Nat ⊕ Nat := if h.winnowed p then .inl 20 else .inr p
  match h.rankEntry k.job k.dst with
  | none => (h, .inl 19)
  | some (s, q) =>
    if s = h.disc.switchNo then (h, local_ q)
    else match tget (0, 0) h.mesh.fwd (epoch * 4096 + s) with
      | (1, p) => (h, local_ p)
      | (2, n) => match h.nextHop epoch ingress n k with
        | (h, some p) => (h, .inr p)
        | (h, none) => (h, .inl 19)
      | _ => (h, .inl 19)

/-- The effective mask of a multicast (R142), with WINNOWED counted at each port it removes; or the counter of its drop. A sheaf never loaded is empty and has no job to
differ: ZERO_DEST. (DESIGN CHOICE, log 127, unsafe.) -/
def Hw.sheafMask (h : Hw) (epoch ingress : Nat) (k : Pkt) : Hw × (Nat ⊕ (BitVec 264 × Bool)) :=
  match tget? h.mesh.sheaves (epoch * 4096 + k.sheaf) with
  | none => (h, .inl 21)
  | some s =>
    if k.sheaf = 0 ∨ 4096 ≤ k.sheaf then (h, .inl 21)
    else if s.job ≠ k.job then (h, .inl 34)
    else
      let m := s.ports &&& ~~~(portMask [ingress])
      let cut := m &&& h.mesh.winnow
      let h' := (portsOf cut).foldl (fun h p => h.count p 22) h
      let m := m &&& ~~~h.mesh.winnow
      if m = 0 then (h', .inl 21) else (h', .inr (m, s.line))

/-! ### Forwarding from a buffer (R127, R143) -/

/-- Make the entries that carry a stored packet to the ports of M: mesh injections for ports homed elsewhere, a hand-off for ports homed here. REFCOUNT is the number of
injections (R143): a hand-off that waits is none of the four kinds of R127. -/
def Hw.forward (h : Hw) (c ptr : Nat) (b : MeshPkt) (m : BitVec 264) (multicast line : Bool) : Hw :=
  let (es, subs) := h.injections c b m multicast line
  let own := (portsOf m).filter (fun p => h.sendHome p = c)
  let h := if subs = 0 then h else h.countRouter (cxRouter c) 15 subs
  let h := h.modCx c (fun x => { x with
    inject := x.inject ++ es.map (fun e => { e with ptr := some ptr }),
    handoff := if own = [] then x.handoff else x.handoff ++ [(ptr, portMask own)] })
  h.modBuf c ptr (fun k => { k with refs := es.length, owner := if es = [] then k.owner else 3 })

/-- Inject a packet that holds no buffer, from a complex, toward the function at a location. -/
def Hw.injectFunction (h : Hw) (c : Nat) (b : MeshPkt) (l : Nat × Nat) : Hw :=
  h.modCx c (fun x => { x with inject := x.inject ++ [{ ptr := none, parts := meshParts (meshUnicast b l 0 false) }] })

/-! ### The egress store (R135, R144) -/

/-- The owner code of a copy kept for ports of one complex (Table 5.6). -/
def copyOwner (ports : List Nat) : Nat :=
  match (ports.map egressOwner).dedup with
  | [o] => o
  | _ => 6

/-- Remove the ports whose winnow bit is set, counting SHORT_DELIVERY, and the V16-compatible ports for a TC1 packet, counting V16_TC1_DROP. A glean message that a move
sends on goes to a winnowed port too (R144). -/
def Hw.keepPorts (h : Hw) (ports : List Nat) (k : Pkt) : Hw × List Nat :=
  let cut := if k.ptype = 5 then [] else ports.filter h.winnowed
  let v16 := (ports.filter (fun p => ¬ cut.contains p)).filter (fun p => h.isV16 p ∧ k.cls = 1)
  let h' := cut.foldl (fun h p => h.count p 23) h
  let h' := v16.foldl (fun h p => h.countLane p 6) h'
  (h', ports.filter (fun p => ¬ cut.contains p ∧ ¬ v16.contains p))

/-- The ports a TC3 packet is stored for (R135): dropped at each queue without room. -/
def Hw.tc3Ports (h : Hw) (ports : List Nat) (k : Pkt) : Hw × List Nat :=
  if k.cls ≠ 3 then (h, ports)
  else ((ports.filter (fun p => ¬ h.roomFor p k)).foldl (fun h p => h.count p 25) h, ports.filter (fun p => h.roomFor p k))

/-- Deliver a complete copy to its ports. -/
def Hw.deliverAll (h : Hw) (c ptr : Nat) (ports : List Nat) (k : Pkt) : Hw :=
  let h := h.modBuf c ptr (fun b => { b with refs := ports.length, owner := copyOwner ports })
  ports.foldl (fun h p => h.deliver p { ptr := ptr, cells := k.cells }) h

/-- Whether two mesh packets are parts of one packet. -/
def samePacket (a b : MeshPkt) : Bool := a.src = b.src ∧ a.pkt = b.pkt

/-- A part joins its packet; the packet is delivered when both parts are there. -/
def Hw.joinPart (h : Hw) (c : Nat) (mp : MeshPkt) (a : Assembly) : Hw :=
  let a := { a with have0 := a.have0 || decide (mp.part = 0), have1 := a.have1 || decide (mp.part = 1 ∨ mp.lastPart) }
  let rest (x : Complex) : List Assembly := x.assembling.filter (fun b => ¬ samePacket b.mp mp)
  if a.have0 ∧ a.have1 then
    let h := h.modCx c (fun x => { x with assembling := rest x })
    match a.ptr with
    | some ptr => h.deliverAll c ptr (portsOf a.ports) mp.pkt
    | none => h
  else h.modCx c (fun x => { x with assembling := rest x ++ [a] })

/-- The ports here that a mesh packet still serves: those at home here, and those on their way here, or behind packets that waited for such a port, which wait (R145). -/
def Hw.portsHere (h : Hw) (c : Nat) (mp : MeshPkt) : List Nat × List Nat :=
  let l := (portsOf mp.ports).filter (fun p => h.sendHome p = c ∨ h.home p = c)
  let waits (p : Nat) : Bool := decide (h.sendHome p = c) && (decide (h.home p ≠ c) || (decide ((h.port p).movedWait ≠ []) && ! mp.reinjected))
  (l.filter (fun p => ! waits p), l.filter waits)

/-- Whether packets that a move of a port sends on to its home have not all been stored there (R145). -/
def Hw.reinjecting (h : Hw) (p : Nat) : Bool :=
  let mine (mp : MeshPkt) : Bool := mp.reinjected && mp.ports.getLsbD p
  let at_ (c : Nat) : Bool :=
    let x := h.cx c
    x.inject.any (fun i => i.parts.any mine) || x.outbox.any (fun o => mine o.base) || x.arrivals.any mine || x.assembling.any (fun a => mine a.mp)
  at_ (primaryHome p) || at_ (alternateHome p)
  || h.mesh.routers.any (fun r => r.2.vcs.any (fun v => mine v.2.mp) || r.2.inputs.any (fun i => i.2.transfers.any (fun t => mine t.mp) || i.2.wire.any (fun f => mine f.mp)))

/-- Whether an arrival can be taken now: TC3 always; else a shared buffer fits and every queue has room, or nothing is to be stored (R135). -/
def Hw.canStore (h : Hw) (c : Nat) (mp : MeshPkt) : Bool :=
  let x := h.cx c
  if mp.cls = 3 ∨ ¬ mp.headerOk ∨ x.assembling.any (fun a => samePacket a.mp mp) then true
  else
    let (here, _) := h.portsHere c mp
    let ports := (h.keepPorts here mp.pkt).2
    ports = [] || ((Complex.pick x c mp.pkt.len false).isSome && ports.all (fun p => h.roomFor p mp.pkt))

/-- Take one arrival. -/
def Hw.storeArrival (h : Hw) (c : Nat) (mp : MeshPkt) : Hw :=
  if ¬ mp.headerOk then (h.countRouter (cxRouter c) 11).report 0x303 0 (unitNo 5 (cxRouter c))
  else match (h.cx c).assembling.find? (fun a => samePacket a.mp mp) with
    | some a => h.joinPart c mp a
    | none =>
      let (here, coming) := h.portsHere c mp
      let h := coming.foldl (fun h p => h.modPort p (fun x => { x with movedWait := x.movedWait ++ [{ mp with ports := portMask [p] }] })) h
      let (h, ports) := h.keepPorts here mp.pkt
      let none_ : Assembly := { src := mp.src, mp := mp, ports := 0, ptr := none }
      if ports = [] then h.joinPart c mp none_
      else
        match h.alloc c { pkt := mp.pkt, cls := 0, owner := copyOwner ports, epoch := mp.epoch } with
        | none => (ports.foldl (fun h p => h.count p 24) h).joinPart c mp none_
        | some (h', ptr) =>
          let (h', left) := h'.tc3Ports ports mp.pkt
          if left = [] then (h.tc3Ports ports mp.pkt).1.joinPart c mp none_
          else h'.joinPart c mp { none_ with ports := portMask left, ptr := some ptr }

/-- Mesh packets that waited for a moved port go on once those queued at its old home have been injected again (R145). -/
def Hw.releaseMoved (h : Hw) (c : Nat) : Hw :=
  let ps := h.ports.filter (fun e => e.2.movedWait ≠ [] ∧ e.2.move = .none ∧ h.home e.1 = c)
  ps.foldl (fun h e =>
    if h.reinjecting e.1 then h
    else (h.modCx c (fun x => { x with arrivals := x.arrivals ++ e.2.movedWait })).modPort e.1 (fun x => { x with movedWait := [] })) h

/-- Whether nothing of the same class from the same router is ahead of an arrival in its virtual channel. -/
def aheadOf (l : List MeshPkt) (mp : MeshPkt) : Bool := decide (l.find? (fun a => a.cls = mp.cls ∧ a.src = mp.src) = some mp)

/-- EGRESS_STORE (R135): the first arrival that can be taken is stored with one entry for each port, or dropped as its class says; the others of TC0 to
TC2 stay, and what is behind them in their virtual channels. -/
def execEgressStore (cx : Nat) : State → Out := atUnit cx 144 <| onHw (fun _ h =>
  let h := h.releaseMoved cx
  match (h.cx cx).arrivals.find? (fun mp => aheadOf (h.cx cx).arrivals mp && h.canStore cx mp) with
  | none => h
  | some mp => (h.modCx cx (fun x => { x with arrivals := x.arrivals.erase mp })).storeArrival cx mp)

/-- The unit that holds a buffer while it waits for its hand-off (R128): the mesh injector after an injection, the port engine of an ingress packet, a core. -/
def Buf.holder (b : Buf) : Nat := if b.begun then 3 else if b.ingress < 264 then ingressOwner b.ingress else homeUnit

/-- LOCAL_HANDOFF (R127): a buffer whose injections have all ended passes to its ports homed here, in the shared part of its class, when that has a free
buffer and the queues have room, those of one port and class in order; its cells are freed for credit return. A TC3 packet does not wait: with no free buffer it is dropped
for every port, as at a full queue (R135). A port on its way here takes nothing until it has come and what its move sends on has been stored (R145). -/
def execLocalHandoff (cx : Nat) : State → Out := atUnit cx 144 <| onHw (fun _ h =>
  let x := h.cx cx
  let coming (p : Nat) : Bool := decide (h.sendHome p = cx) && (decide (h.home p ≠ cx) || decide ((h.port p).movedWait ≠ []) || h.reinjecting p)
  let full (b : Buf) : Bool := b.reserve && decide (x.free b.cls false = 0)
  let ready (e : Nat × BitVec 264) : Bool :=
    ¬ x.inject.any (fun i => i.ptr = some e.1) && ! (portsOf e.2).any coming && (match h.buf? cx e.1 with
      | none => true
      | some b => b.pkt.cls = 3 || (! full b && (h.keepPorts (portsOf e.2) b.pkt).2.all (fun p => h.roomFor p b.pkt)))
  let line (e : Nat × BitVec 264) : Option (Nat × Nat) := (h.buf? cx e.1).map (fun b => (b.pkt.cls, b.ingress))
  let ahead (e : Nat × BitVec 264) : Bool := decide (x.handoff.find? (fun f => line f = line e) = some e)
  match x.handoff.find? (fun e => ahead e && ready e) with
  | none => h
  | some e =>
    let h := h.modCx cx (fun x => { x with handoff := x.handoff.erase e })
    if ¬ h.ptrOk cx e.1 then h.badPtr cx e.1 (portsOf e.2).head?
    else match h.buf? cx e.1 with
      | none => h
      | some b =>
        let (h, ports) := h.keepPorts (portsOf e.2) b.pkt
        let (h, ports) := if full b then (ports.foldl (fun h p => h.count p 24) h, []) else h.tc3Ports ports b.pkt
        if ports = [] then h.dropInjected cx e.1 b.holder
        else
          let h := if b.ingress < 264 then h.freeCells b.ingress b.pkt.cls b.pkt.cells else h
          (h.modBuf cx e.1 (fun b => { b with reserve := false, ingress := 511 })).deliverAll cx e.1 ports b.pkt)

/-! ### Moves (R145, R146) -/

/-- The buffers of a port's queues and held packets, in queue order. -/
def Port.stored (x : Port) : List QEntry :=
  x.queues.flatMap (fun q => q.2.entries) ++ x.flows.flatMap (fun f => f.held.map (·.entry))

/-- What a port has queued or held is discarded as at any winnowed port (R144): SHORT_DELIVERY for each. -/
def Hw.dropStoredAll (h : Hw) (p : Nat) : Hw :=
  let c := h.home p
  let h := (h.port p).stored.foldl (fun h e => (if (h.buf? c e.ptr).isSome then h.dropInjected c e.ptr (egressOwner p) (some p) else h).count p 23) h
  h.modPort p (fun x => { x with flows := [], queues := x.queues.map (fun q => (q.1, { q.2 with entries := [], deficit := 0, fresh := true })) })

/-- The settings of a queue with its bucket full and its deficit zero (R195). -/
def Queue.refreshed (q : Queue) : Queue := { q with entries := [], tokens := q.shaper.burst * 65536, deficit := 0, fresh := true }

/-- One queued packet of a moving port is injected again toward its new home (R145): its entry becomes a mesh-injection entry; a buffer that other ports' entries name too
stays with them, and a copy goes. (DEDUCED, log 129, unsafe.) -/
def Hw.reinject (h : Hw) (port old new ptr : Nat) : Hw :=
  match h.buf? old ptr with
  | none => h.badPtr old ptr (some port)
  | some b =>
    let base := { meshUnicast (meshBase b.pkt b.epoch (cxRouter old) b.pkt.job 511) (h.locate b.epoch new) (portMask [port]) true with reinjected := true }
    let entry (p : Nat) : InjEntry := { ptr := some p, parts := meshParts base }
    if b.refs ≤ 1 then
      (h.modBuf old ptr (fun b => { b with owner := 3 })).modCx old (fun c => { c with inject := c.inject ++ [entry ptr] })
    else
      let h := h.dropRef old ptr (egressOwner port) (some port)
      match h.alloc old { pkt := b.pkt, cls := 0, owner := 3, epoch := b.epoch } with
      | some (h, p) => h.modCx old (fun c => { c with inject := c.inject ++ [entry p] })
      | none => h.modCx old (fun c => { c with outbox := c.outbox ++ [{ base := base, ports := portMask [port] }] })

/-- One packet that the resequencer of a moving port holds passes to a buffer of the new home's shared part (R145); with none free it is injected again, and the resequencer
takes it there. The entry at the new home is given back. (DEDUCED, log 129, unsafe.) -/
def Hw.passHeld (h : Hw) (port old new : Nat) (d : HeldPkt) : Hw × Option HeldPkt :=
  match h.buf? old d.entry.ptr with
  | none => (h.badPtr old d.entry.ptr (some port), none)
  | some b => match h.alloc new { pkt := b.pkt, cls := 0, owner := egressOwner port, epoch := b.epoch } with
    | some (h, p) => (h.dropRef old d.entry.ptr (egressOwner port) (some port), some { d with entry := { d.entry with ptr := p } })
    | none => (h.reinject port old new d.entry.ptr, none)

/-- The flows of a moving port pass with what they hold. -/
def Hw.passFlows (h : Hw) (port old new : Nat) : Hw :=
  let (h, fs) := (h.port port).flows.foldl (fun (a : Hw × List Flow) f =>
    let (h, l) := f.held.foldl (fun (a : Hw × List HeldPkt) d => let (h, d) := a.1.passHeld port old new d; (h, a.2 ++ d.toList)) (a.1, [])
    (h, a.2 ++ [{ f with held := l }])) (h, [])
  h.modPort port (fun x => { x with flows := fs })

/-- Packets that wait at the old home for their hand-off to a moved port go to the new home over the mesh. -/
def Hw.passHandoffs (h : Hw) (port old new : Nat) : Hw :=
  ((h.cx old).handoff.filter (fun e => e.2.getLsbD port)).foldl (fun h e =>
    let left := e.2 &&& ~~~(portMask [port])
    match h.buf? old e.1 with
    | none => h
    | some b =>
      let base := { meshUnicast (meshBase b.pkt b.epoch (cxRouter old) b.pkt.job b.ingress) (h.locate b.epoch new) (portMask [port]) true with reinjected := true }
      (h.modCx old (fun c => { c with
        inject := c.inject ++ [{ ptr := some e.1, parts := meshParts base }],
        handoff := if left = 0 then c.handoff.erase e else c.handoff.map (fun f => if f = e then (e.1, left) else f) })).modBuf old e.1 (fun b => { b with refs := b.refs + 1, owner := 3 })) h

/-- The orderly handover (R145): the queued packets are injected again in queue order, held ones and the flow table pass, and LINK_PARAMS with the new limits is sent. -/
def Hw.handoverOrderly (h : Hw) (port : Nat) (toAlt : Bool) : Hw :=
  let old := h.home port
  let new := if toAlt then alternateHome port else primaryHome port
  let before := h.advertised port
  let queued := (h.port port).queues.flatMap (fun q => q.2.entries)
  let h := queued.foldl (fun h e => h.reinject port old new e.ptr) h
  let h := (h.passFlows port old new).passHandoffs port old new
  let h := h.modPort port (fun x => { x with
    atAlt := toAlt, move := .none, window := true, withhold := false,
    queues := x.queues.map (fun q => (q.1, { q.2 with entries := [] })),
    glean := { x.glean with sendNow := true },
    link := { x.link with paramsEchoed := false } })
  let h := if before = h.advertised port then h else h.modLink port Link.newParams
  h.sendParams port

/-- The packets a port loses with the home it leaves (R146): ingress packets whose injections have not all ended, early ones among them, with their buffers; queued and held
ones; those selected and not yet sent whole, and those of kept blocks. -/
def Hw.moveLosses (h : Hw) (port : Nat) : List (Nat × Buf) × List Pkt :=
  let x := h.port port
  let c := h.cx (h.home port)
  let ingress := c.bufs.filter (fun b => decide (b.2.ingress = port ∧ b.2.state = 1) && ! (c.waits b.1 && ! c.inject.any (fun i => i.ptr = some b.1)))
  let kept := lostKept x.link
  let sending := ((x.link.txPkts.filter (·.started)).map (·.pkt)).filter (fun k => ! kept.contains k && decide (k.ptype ≠ 5 ∧ k.ptype ≠ 6))
  (ingress, ingress.map (·.2.pkt) ++ x.stored.filterMap (h.entryPkt (h.home port)) ++ sending ++ x.link.unstarted ++ kept)

/-- The handover with state loss (R146): everything of the port at the old home is lost and counted, and the link comes up afresh at the new one. -/
def Hw.handoverLossy (h : Hw) (port : Nat) (toAlt : Bool) : Hw :=
  let x := h.port port
  let old := h.home port
  let (ingress, lost) := h.moveLosses port
  let gone := ingress.map (·.1)
  let h := if lost = [] then h else h.count port 31 lost.length
  let h := { h with groups := h.groups.map (fun (g : Nat × Group) => (g.1, { g.2 with early := g.2.early.filter (fun e => ! (e.cx = old && gone.contains e.ptr)) })) }
  let h := h.modCx old (fun c => ({ c with
    bufs := c.bufs.filter (fun b => ! gone.contains b.1),
    inject := c.inject.filter (fun i => ! i.ptr.any gone.contains),
    handoff := c.handoff.filter (fun i => ! gone.contains i.1) } : Complex).recount)
  let h := x.stored.foldl (fun h e => if (h.buf? old e.ptr).isSome then h.dropRef old e.ptr (egressOwner port) (some port) else h) h
  let h := h.passHandoffs port old (if toAlt then alternateHome port else primaryHome port)
  let h := h.modPort port (fun x => { x with
    atAlt := toAlt, move := .none, window := true, withhold := false, link := {}, flows := [],
    queues := x.queues.map (fun q => (q.1, q.2.refreshed)), classDeficit := (0, 0), classFresh := (true, true),
    meters := x.meters.map (fun m => (m.1, { m.2 with tc := m.2.cfg.cbs * 65536, tp := m.2.cfg.pbs * 65536 })) })
  (h.report 0x203 1 (unitNo 14 port) 3 [w32 port]).blindBringUp port

/-- At E4 of the tick after a move began the port passes to its other home (R145, R146). -/
def Hw.moveHandover (h : Hw) (port : Nat) : Hw :=
  match (h.port port).move with
  | .none => h
  | .orderly start toAlt => if h.time.tick < start + 1 then h else h.handoverOrderly port toAlt
  | .lossy start toAlt =>
    if h.time.tick < start + 1 then h
    else if ¬ h.homeServes (if toAlt then alternateHome port else primaryHome port) then h.modPort port (fun x => { x with move := .none })
    else h.handoverLossy port toAlt

/-- PORT_MOVE_HANDOVER (R145, R146): a step of E4, which TICK_EDGE takes too; in slot 0 the row takes it for one port. (DEDUCED, log 125, unsafe.) -/
def execPortMoveHandover (port : Nat) : State → Out := atUnit port 264 <| atEdge (fun _ h => h.moveHandover port)

/-! ### Datapath commands (Tables 5.7 to 5.18) -/

/-- What PORT_CONFIG_SET checks of its payload, beyond the envelope (R53). -/
def failPortConfigSet (_fz : Fuses) (h : Hw) (ch : Nat) (p : List Word) (_bulk : List Byte) : Option Fail :=
  let port := fld p 0 8 0
  let home := if fld p 0 17 17 = 1 then alternateHome port else primaryHome port
  firstFail [checkPortOnly p, failIf (¬ h.homeServes home) (some (stFenced, unitNo 4 home)),
    failIf (wnat p 2 ≠ 0 ∧ (wnat p 2 ≠ 2048 ∨ 12 ≤ ch)) (bad 8)]

/-- PORT_CONFIG_SET (R21, R134). -/
def execPortConfigSet (ch : Nat) : State → Out := atUnit ch 16 <| onHw (fun fz h => h.configure ch 0x0201 (failPortConfigSet fz h ch))

def applyPortConfig (h : Hw) (s : Staged) : Hw :=
  let p := s.words
  h.modPort (fld p 0 8 0) (fun x => { x with
    reseq := fld p 0 16 16 = 1, homeAlt := fld p 0 17 17 = 1, reHome := decide (fld p 0 17 17 = 1) && (x.reHome || ! x.homeAlt),
    jobQueue := if wnat p 2 = 0 then x.jobQueue
      else ((List.range 4096).filterMap (fun j =>
        let b := (s.bulk.getD (j / 2) 0).toNat
        let n := if j % 2 = 0 then b % 16 else b / 16
        if n = 0 then none else some (j, n))) })

/-- A load into the injection epoch is refused at staging (R150). -/
def Hw.epochBad (h : Hw) (p : List Word) : Option Fail := failIf (fld p 0 0 0 = h.mesh.injEpoch) (bad 0)

def checkFwd (h : Hw) (ch : Nat) (p : List Word) (bulk : List Byte) : Option Fail :=
  let n := fld p 2 12 0
  firstFail ([h.epochBad p, failIf (4096 < fld p 1 11 0 + n ∨ (12 ≤ ch ∧ 1016 < n)) (bad 8), failIf (12 ≤ ch ∧ wnat p 3 ≠ 0) (bad 12)]
    ++ (List.range n).map (fun i =>
      let w := entryWord ch p bulk 4 i
      failIf (bits w 31 30 = 3 ∨ bits w 29 9 ≠ 0 ∨ (bits w 31 30 = 1 ∧ 263 < bits w 8 0) ∨ (bits w 31 30 = 2 ∧ 255 < bits w 8 0)) (bad (entryOffset ch 4 i))))

/-- What FWD_TABLE_LOAD checks of its payload, beyond the envelope (R53). -/
def failFwdTableLoad (_fz : Fuses) (h : Hw) (ch : Nat) (p : List Word) (bulk : List Byte) : Option Fail := checkFwd h ch p bulk

/-- FWD_TABLE_LOAD (R150). -/
def execFwdTableLoad (ch : Nat) : State → Out := atUnit ch 16 <| onHw (fun fz h => h.configure ch 0x0202 (failFwdTableLoad fz h ch))

def applyFwd (h : Hw) (ch : Nat) (s : Staged) : Hw :=
  let p := s.words
  h.modMesh (fun m => { m with
   fwd := (List.range (fld p 2 12 0)).foldl (fun t i =>
    let w := entryWord ch p s.bulk 4 i
    let key := fld p 0 0 0 * 4096 + fld p 1 11 0 + i
    if bits w 31 30 = 0 then tdel t key else tput t key (bits w 31 30, bits w 8 0)) m.fwd })

/-- The members of a next-hop set command (Table 5.10). -/
def membersOf (p : List Word) : List Nat :=
  (List.range (fld p 0 22 16)).map (fun m => if m % 2 = 0 then fld p (2 + m / 2) 15 0 else fld p (2 + m / 2) 31 16)

/-- What NEXTHOP_SET_LOAD checks of its payload, beyond the envelope (R53). -/
def failNexthopSetLoad (_fz : Fuses) (h : Hw) (_ch : Nat) (p : List Word) (_bulk : List Byte) : Option Fail :=
  let n := fld p 0 22 16
  let ms := membersOf p
  firstFail ([h.epochBad p, failIf (64 < n) (bad 0)]
    ++ (List.range (min n 64)).map (fun m => failIf (263 < nth ms m ∨ (ms.take m).contains (nth ms m)) (bad (8 + 4 * (m / 2))))
    ++ (List.range 64).map (fun m => failIf (n ≤ m ∧ (if m % 2 = 0 then fld p (2 + m / 2) 15 0 else fld p (2 + m / 2) 31 16) ≠ 0) (bad (8 + 4 * (m / 2)))))

/-- NEXTHOP_SET_LOAD (R122). -/
def execNexthopSetLoad (ch : Nat) : State → Out := atUnit ch 16 <| onHw (fun fz h => h.configure ch 0x0203 (failNexthopSetLoad fz h ch))

def applyNexthop (h : Hw) (p : List Word) : Hw :=
  h.modMesh (fun m => { m with nexthop := tput m.nexthop (fld p 0 0 0 * 4096 + fld p 0 15 8) { members := membersOf p, seed := fld p 1 15 0 } })

/-- What QUEUE_CONFIG_SET checks of its payload, beyond the envelope (R53). -/
def failQueueConfigSet (_fz : Fuses) (_h : Hw) (_ch : Nat) (p : List Word) (_bulk : List Byte) : Option Fail :=
  firstFail [checkPortOnly p, failIf (fld p 1 23 0 = 0) (bad 4), failIf (fld p 2 31 31 = 1 ∧ 16 ≤ fld p 0 21 16) (bad 8)]

/-- QUEUE_CONFIG_SET (R136). -/
def execQueueConfigSet (ch : Nat) : State → Out := atUnit ch 16 <| onHw (fun fz h => h.configure ch 0x0204 (failQueueConfigSet fz h ch))

def applyQueueConfig (h : Hw) (p : List Word) : Hw :=
  h.modPort (fld p 0 8 0) (fun x => x.modQueue (fld p 0 21 16) (fun q => { q with
    maxDepth := fld p 1 23 0, ecnThresh := fld p 2 23 0, ecnEnable := fld p 2 31 31 = 1 }))

/-- What BUFFER_LIMITS_SET checks of its payload, beyond the envelope (R53). -/
def failBufferLimitsSet (_fz : Fuses) (_h : Hw) (_ch : Nat) (p : List Word) (_bulk : List Byte) : Option Fail :=
  let bad3 (v : Nat) : Bool := 1 ≤ v ∧ v ≤ 7
  firstFail [checkPortOnly p, failIf (bad3 (fld p 4 13 0) ∨ bad3 (fld p 4 29 16)) (bad 16)]

/-- BUFFER_LIMITS_SET (R133). -/
def execBufferLimitsSet (ch : Nat) : State → Out := atUnit ch 16 <| onHw (fun fz h => h.configure ch 0x0205 (failBufferLimitsSet fz h ch))

/-- The larger of two lists of limits, class by class. -/
def maxLimits (a b : List Nat) : List Nat := (List.range 4).map (fun t => max (nth a t) (nth b t))

/-- Changed limits are advertised with a new PARAMS_SEQ where the link layer runs; the reserve limits never fall (R133). -/
def applyLimits (h : Hw) (p : List Word) : Hw :=
  let port := fld p 0 8 0
  let tc3 (t v : Nat) : Nat := if t = 3 ∧ v = 0 then 8 else v
  let cr := (List.range 4).map (fun t => tc3 t (fld p (1 + t) 13 0))
  let mv := (List.range 4).map (fun t => tc3 t (fld p (1 + t) 29 16))
  let x := h.port port
  let same := decide (x.limits.credit = cr ∧ x.limits.moved = mv)
  let h := h.modPort port (fun x => { x with
    limits := { credit := cr, moved := mv, reserveCredit := maxLimits x.limits.reserveCredit cr, reserveMoved := maxLimits x.limits.reserveMoved mv } })
  if same ∨ ¬ (x.link.up ∨ x.lanes.state = 3) then h
  else
    let h := h.modLink port Link.newParams
    if x.link.up then h.sendParams port else h

/-- D_k of the reserve check at a complex (R131), with the reserve limits in place of those in force. -/
def Hw.demand (h : Hw) (c k : Nat) : Nat :=
  let m := nth [1, 2, 5, 9, 17] k
  let need (l : List Nat) : Nat := (l.map (· / m)).sum
  let pr := (List.range 264).filter (fun p => primaryHome p = c)
  let al := (List.range 264).filter (fun p => alternateHome p = c)
  (pr.map (fun p => need (h.port p).limits.reserveCredit)).sum + (al.map (fun p => need (h.port p).limits.reserveMoved)).sum + pr.length + al.length

/-- The lowest k at which the reserve check of a complex fails. -/
def Hw.reserveFails (h : Hw) (c : Nat) : Option Nat :=
  (List.range 5).find? (fun k => (((List.range 5).filter (k ≤ ·)).map ((h.cx c).reserveOf)).sum < h.demand c k)

/-- The complexes a SLICE_PARTITION_SET names. (DEDUCED, log 26, unsafe.) -/
def partitionCxs (p : List Word) : List Nat := if fld p 0 7 0 = 0xFF then List.range 144 else [fld p 0 7 0]

/-- What SLICE_PARTITION_SET checks of its payload, beyond the envelope (R53). -/
def failSlicePartitionSet (_fz : Fuses) (_h : Hw) (_ch : Nat) (p : List Word) (_bulk : List Byte) : Option Fail :=
  firstFail [failIf (144 ≤ fld p 0 7 0 ∧ fld p 0 7 0 ≠ 0xFF) (bad 0), failIf (fld p 0 9 8 = 3) (bad 0), failIf (fld p 0 19 16 = 0) (bad 0)]

/-- SLICE_PARTITION_SET (R148). -/
def execSlicePartitionSet (ch : Nat) : State → Out := atUnit ch 16 <| onHw (fun fz h => h.configure ch 0x0206 (failSlicePartitionSet fz h ch))

/-- DRAIN_REMAINING for a preset: allocated buffers in the slices that would leave the cell store. -/
def Complex.leaving (x : Complex) (preset : Nat) : Nat :=
  (x.bufs.filter (fun b => b.2.state = 1 ∧ presetSlices preset ≤ ptrSlice b.1)).length

def applyPartition (h : Hw) (p : List Word) : Hw :=
  (partitionCxs p).foldl (fun h c => h.modCx c (fun x =>
    if fld p 0 10 10 = 1 then { x with drainTo := some (fld p 0 9 8), share := fld p 0 19 16 }
    else
      let stay (q : Nat) : Bool := ptrSlice q < presetSlices (fld p 0 9 8)
      ({ x with
        preset := fld p 0 9 8, drainTo := none, share := fld p 0 19 16,
        bufs := x.bufs.filter (fun b => stay b.1), cullet := x.cullet.filter stay } : Complex).recount)) h

/-- What SHEAF_LOAD checks of its payload, beyond the envelope (R53). -/
def failSheafLoad (_fz : Fuses) (h : Hw) (_ch : Nat) (p : List Word) (_bulk : List Byte) : Option Fail :=
  firstFail [h.epochBad p, failIf (fld p 0 27 16 = 0) (bad 0)]

/-- SHEAF_LOAD (R141). -/
def execSheafLoad (ch : Nat) : State → Out := atUnit ch 16 <| onHw (fun fz h => h.configure ch 0x0207 (failSheafLoad fz h ch))

def applySheaf (h : Hw) (p : List Word) : Hw :=
  let m := (List.range 9).foldl (fun a i => a + wnat p (2 + i) * 2 ^ (32 * i)) 0
  let s : Sheaf := { job := fld p 1 11 0, line := fld p 0 1 1 = 1, ports := BitVec.ofNat 264 m }
  h.modMesh (fun k => { k with sheaves := tput k.sheaves (fld p 0 0 0 * 4096 + fld p 0 27 16) s })

/-- PORT_COUNTERS_READ (R151). -/
def execPortCountersRead (ch : Nat) : State → Out := atUnit ch 16 <| onHw (fun _ h => h.answer ch 0x0208 (fun p =>
  let first := fld p 1 7 0
  let n := fld p 1 15 8
  match firstFail [checkPortOnly p, failIf (35 < first + n) (bad 4)] with
  | some f => h.refuse f
  | none =>
    let port := fld p 0 8 0
    let idx := (List.range n).map (first + ·)
    let out := le64 h.time.tick ++ idx.flatMap (fun i => le64 (tget 0 (h.port port).counters i))
    let h := if fld p 0 16 16 = 1 then h.modPort port (fun x => { x with counters := idx.foldl (fun t i => tdel t i) x.counters }) else h
    (h, stOk, 0, out)))

/-- CULLET_LIST_READ (R130, Table 5.17). -/
def execCulletListRead (ch : Nat) : State → Out := atUnit ch 16 <| onHw (fun _ h => h.answer ch 0x0209 (fun p =>
  let first := fld p 1 15 0
  let n := fld p 1 31 16
  match firstFail [failIf (144 ≤ fld p 0 7 0) (bad 0), failIf (256 < first + n) (bad 4)] with
  | some f => h.refuse f
  | none =>
    let x := h.cx (fld p 0 7 0)
    let out := [w32 x.cullet.length, w32 x.culletOver, w32 x.promotions, w32 (x.drainTo.elim 0 x.leaving)]
      ++ (List.range n).map (fun i => w32 (nth x.cullet (first + i)))
    (h, stOk, 0, out)))

/-! ### Mesh commands (Tables 6.7 to 6.14) -/

/-- Whether an address map entry may lie at a location (Table 6.4). -/
def allowedLoc (n r a : Nat) : Bool :=
  if n < 128 then
    (r = n ∧ a = 0) ∨ (a = 1 ∧ r = tileCx (cxScd n) 5) ∨ (a = 2 ∧ r = tileCx (cxScd n) 10)
  else if n < 132 then a = 3 ∧ r / 16 = 0 ∧ 4 ≤ r % 16 ∧ r % 16 ≤ 7
  else if n < 136 then a = 3 ∧ r / 16 = 7 ∧ 8 ≤ r % 16 ∧ r % 16 ≤ 11
  else a = 3 ∧ (r = cxAt 0 3 ∨ r = cxAt 0 4)

/-- What MESH_ROUTE_LOAD checks of its payload, beyond the envelope (R53). -/
def failMeshRouteLoad (_fz : Fuses) (h : Hw) (_ch : Nat) (p : List Word) (_bulk : List Byte) : Option Fail :=
  let first := fld p 1 7 0
  let n := fld p 1 15 8
  firstFail ([h.epochBad p, failIf (fld p 0 1 1 = 1 ∧ (first ≠ 0 ∨ n ≠ 0)) (bad 4), failIf (138 < first + n) (bad 4)]
    ++ (List.range n).map (fun i => failIf (¬ allowedLoc (first + i) (fld p (2 + i) 7 0) (fld p (2 + i) 9 8)) (bad (8 + 4 * i))))

/-- MESH_ROUTE_LOAD (R160, R185). -/
def execMeshRouteLoad (ch : Nat) : State → Out := atUnit ch 16 <| onHw (fun fz h => h.configure ch 0x0301 (failMeshRouteLoad fz h ch))

def applyMeshRoute (h : Hw) (p : List Word) : Hw :=
  let e := fld p 0 0 0
  h.modMesh (fun m => { m with
    amap := if fld p 0 1 1 = 1 then m.amap.filter (fun a => a.1 / 4096 ≠ e)
    else (List.range (fld p 1 15 8)).foldl (fun t i => tput t (e * 4096 + fld p 1 7 0 + i) (fld p (2 + i) 7 0, fld p (2 + i) 9 8)) m.amap })

/-- Pair 0x0301 (Table 6.14): no attachment named twice, none behind a fenced router, no fenced tiller. -/
def pairMap (h : Hw) (e : Nat) : Option Nat :=
  let locs := (List.range 138).map (h.locate e)
  let cxs := (locs.filter (fun l => l.2 ≠ 3)).map locCx
  if cxs.dedup.length ≠ cxs.length ∨ locs.any (fun l => h.mesh.fenced.contains l.1)
    ∨ cxs.any (fun c => 128 ≤ c ∧ h.isFenced (unitNo 4 c)) then some 0x0301 else none

/-- What EPOCH_FLIP checks of its payload, beyond the envelope (R53). -/
def failEpochFlip (_fz : Fuses) (h : Hw) (_ch : Nat) (p : List Word) (_bulk : List Byte) : Option Fail := h.epochBad p

/-- EPOCH_FLIP (R173). -/
def execEpochFlip (ch : Nat) : State → Out := atUnit ch 16 <| onHw (fun fz h => h.configure ch 0x0302 (failEpochFlip fz h ch))

def applyFlip (h : Hw) (p : List Word) : Hw :=
  h.modMesh (fun m => { m with
    flipNext := some (fld p 0 0 0), flipAt := h.time.tick, slowTicks := if fld p 0 15 8 = 0 then 64 else fld p 0 15 8,
    reasons := if fld p 0 1 1 = 1 then m.reasons ||| 32 else m.reasons &&& ~~~32 })

/-- EPOCH_STATUS_GET (R171, Table 6.11). -/
def execEpochStatusGet (ch : Nat) : State → Out := atUnit ch 16 <| onHw (fun _ h => h.answer ch 0x0303 (fun _ =>
  let m := h.mesh
  let detached := natsWhere 128 (fun n => (h.cx n).attach = .detached)
  let bitsOf (l : List Nat) : List Word := (List.range 4).map (fun i => w32 ((maskOf l).toNat >>> (32 * i)))
  let out := [w32 (m.injEpoch + b2n m.regimeBubble * 2 + b2n m.flipping * 4 + m.reasons.toNat * 2 ^ 8)] ++ le64 m.flipTick ++ [w32 m.drainCount]
    ++ le64 m.drainDone ++ bitsOf m.fenced ++ bitsOf detached
  (h, stOk, 0, out)))

/-- What ROUTER_FENCE checks of its payload, beyond the envelope (R53). -/
def failRouterFence (_fz : Fuses) (h : Hw) (_ch : Nat) (p : List Word) (_bulk : List Byte) : Option Fail :=
  let r := fld p 0 7 0
  firstFail [failIf (127 < r) (bad 0), failIf (h.mesh.fenced.contains r ∨ h.isFenced (unitNo 5 r)) (some (stFenced, unitNo 5 r))]

/-- ROUTER_FENCE (R179). -/
def execRouterFence (ch : Nat) : State → Out := atUnit ch 16 <| onHw (fun fz h => h.configure ch 0x0304 (failRouterFence fz h ch))

def applyRouterFence (h : Hw) (p : List Word) : Hw :=
  h.modMesh (fun m => { m with joinFenced := m.joinFenced ++ [(fld p 0 7 0, true)] })

/-- Pairs 0x0302 and 0x0303 of ROUTER_FENCE (R177, R179). -/
def pairRouterFence (h : Hw) (r : Nat) : Option Nat :=
  if (List.range 138).any (fun n => (h.locate h.mesh.injEpoch n).1 = r) ∨ (List.range 264).any (fun p => h.home p = r) then some 0x0302
  else if h.mesh.fenced.any (fun a => routerDistance a r < 3) ∨ h.mesh.joinFenced.any (fun a => a.1 ≠ r ∧ routerDistance a.1 r < 3) then some 0x0303
  else none

/-- Seam routers: rows 0, 3, 4 and 7 (R15). -/
def seamRouter (r : Nat) : Bool := [0, 3, 4, 7].contains (r / 16)

/-- BUBBLE_WAIT_CYCLES and SEAM_STALL_CYCLES count cycles, of which the model has none: since the last read they have risen by free values.
(DESIGN CHOICE, log 34, safe.) -/
def Hw.waitCycles (h : Hw) (r : Nat) : Hw :=
  let (h, a) := h.draw
  let (h, b) := h.draw
  let h := h.countRouter r 7 a
  if seamRouter r then h.countRouter r 13 b else h

/-- MESH_COUNTERS_READ (R186). -/
def execMeshCountersRead (ch : Nat) : State → Out := atUnit ch 16 <| onHw (fun _ h => h.answer ch 0x0305 (fun p =>
  let r := fld p 0 7 0
  let first := fld p 1 7 0
  let n := fld p 1 15 8
  match firstFail [failIf (127 < r) (bad 0), failIf (17 < first + n) (bad 4)] with
  | some f => h.refuse f
  | none =>
    let h := h.waitCycles r
    let idx := (List.range n).map (first + ·)
    let out := le64 h.time.tick ++ idx.flatMap (fun i => le64 (tget 0 (h.router r).counters i))
    let h := if fld p 0 16 16 = 1 then h.modRouter r (fun x => { x with counters := idx.foldl (fun t i => tdel t i) x.counters }) else h
    (h, stOk, 0, out)))

/-- The regime follows its reasons, at E3 (R164, R165): bubble while any is set. (DEDUCED, log 45, unsafe.) -/
def Hw.settleRegime (h : Hw) : Hw :=
  let b := decide (h.mesh.reasons ≠ 0)
  if b = h.mesh.regimeBubble then h
  else (h.modMesh (fun m => { m with regimeBubble := b })).raise 0x0304 [w32 (b2n b + h.mesh.reasons.toNat * 2 ^ 8)]

/-- A step of E3 (R173): at a tick after the flip's whose E1 read the old epoch's drain counter as zero, FLIP clears and the old epoch is free. -/
def Hw.drained (h : Hw) : Hw :=
  let m := h.mesh
  if ¬ m.flipping ∨ h.time.tick ≤ m.flipTick ∨ m.drainCount ≠ 0 then h
  else (h.modMesh (fun m => { m with reasons := m.reasons &&& ~~~2, drainDone := h.time.tick })).raise 0x0302 [w32 (1 - m.injEpoch + (h.time.tick - m.flipTick) * 2 ^ 8)]

/-- EPOCH_DRAINED: its step of E3, which TICK_EDGE takes too; in slot 0 the row takes it. (DEDUCED, log 125, unsafe.) -/
def execEpochDrained : State → Out := atEdge (fun _ h => h.drained.settleRegime)

/-- A drain that has lasted SLOW_TICKS is told once (R173). -/
def Hw.drainSlow (h : Hw) : Hw :=
  let m := h.mesh
  if ¬ m.flipping ∨ h.time.tick < m.flipTick + m.slowTicks ∨ m.drainCount = 0 ∨ m.slowTold then h
  else (h.modMesh (fun m => { m with slowTold := true })).raise 0x0303 [w32 (1 - m.injEpoch + m.drainCount * 2 ^ 8)]

/-- EPOCH_DRAIN_SLOW: firmware's reading of the latched counter, at E3 of TICK_EDGE or by this row in slot 0. (DEDUCED, log 125, unsafe.) -/
def execEpochDrainSlow : State → Out := atEdge (fun _ h => h.drainSlow)

/-- Whether a complex or tiller does not serve and its address still waits for one that does (R178). -/
def Hw.wantsTiller (h : Hw) (cx : Nat) : Bool :=
  let x := h.cx cx
  let addr := h.cxAddress cx
  decide (x.attach ≠ .serving) && ! (decide (128 ≤ cx) && x.tillerOf.isNone) && decide (locCx (h.locate h.mesh.injEpoch addr) = cx) && ! h.mesh.unmapped.contains addr

/-- A free tiller of a complex's SCD: tiller 0 before tiller 1. -/
def Hw.freeTiller (h : Hw) (cx : Nat) : Option Nat :=
  [0, 1].find? (fun i => let y := h.cx (128 + 2 * cxScd cx + i); decide (y.attach = .serving) && y.tillerOf.isNone)

/-- With no tiller free the address stays unmapped, and the loss is spare exhaustion (R178, R281). -/
def Hw.leaveUnmapped (h : Hw) (cx : Nat) : Hw :=
  if h.wantsTiller cx ∧ (h.freeTiller cx).isNone then
    (h.modMesh (fun m => { m with unmapped := m.unmapped ++ [h.cxAddress cx] })).tellExhausted 3 (cxScd cx)
  else h

/-- TILLER_SUBSTITUTE (R178): for a fenced complex or tiller whose address no tiller serves yet, firmware waits until FLIP is clear, copies the injection epoch's tables, names a
free tiller of the SCD there and flips at the first eligible tick. (DEDUCED, log 98, unsafe.) -/
def execTillerSubstitute (cx : Nat) : State → Out := atUnit cx 144 <| onHw (fun _ h =>
  let h := h.leaveUnmapped cx
  if ¬ h.wantsTiller cx ∨ h.mesh.flipping ∨ h.mesh.flipNext.isSome then h
  else match h.freeTiller cx with
    | none => h
    | some i =>
      let k := cxScd cx
      let addr := h.cxAddress cx
      let loc := (if i = 0 then tileCx k 5 else tileCx k 10, 1 + i)
      (h.firmwareFlip (h.firstEligible h.slotNow) (fun t => tput t ((1 - h.mesh.injEpoch) * 4096 + addr) loc)).modCx (128 + 2 * k + i) (fun x => { x with tillerOf := some addr }))

end Sys2Proof.Machine
end

