-- ==== Sys2Proof/Machine/Crypto.lean ====
section
/-!
DEFINITION. SHA-384 and ECDSA P-384, which the image checks (R62) and the life-cycle tokens (R68) use. The spec names the algorithms; their text is
that of FIPS 180-4 and FIPS 186-4.
-/

namespace Sys2Proof.Machine
open Sys2Proof

/-! ### SHA-384 -/

/-- The round constants. -/
def shaK : List Nat := [0x428a2f98d728ae22, 0x7137449123ef65cd, 0xb5c0fbcfec4d3b2f, 0xe9b5dba58189dbbc]
  ++ [0x3956c25bf348b538, 0x59f111f1b605d019, 0x923f82a4af194f9b, 0xab1c5ed5da6d8118]
  ++ [0xd807aa98a3030242, 0x12835b0145706fbe, 0x243185be4ee4b28c, 0x550c7dc3d5ffb4e2]
  ++ [0x72be5d74f27b896f, 0x80deb1fe3b1696b1, 0x9bdc06a725c71235, 0xc19bf174cf692694]
  ++ [0xe49b69c19ef14ad2, 0xefbe4786384f25e3, 0x0fc19dc68b8cd5b5, 0x240ca1cc77ac9c65]
  ++ [0x2de92c6f592b0275, 0x4a7484aa6ea6e483, 0x5cb0a9dcbd41fbd4, 0x76f988da831153b5]
  ++ [0x983e5152ee66dfab, 0xa831c66d2db43210, 0xb00327c898fb213f, 0xbf597fc7beef0ee4]
  ++ [0xc6e00bf33da88fc2, 0xd5a79147930aa725, 0x06ca6351e003826f, 0x142929670a0e6e70]
  ++ [0x27b70a8546d22ffc, 0x2e1b21385c26c926, 0x4d2c6dfc5ac42aed, 0x53380d139d95b3df]
  ++ [0x650a73548baf63de, 0x766a0abb3c77b2a8, 0x81c2c92e47edaee6, 0x92722c851482353b]
  ++ [0xa2bfe8a14cf10364, 0xa81a664bbc423001, 0xc24b8b70d0f89791, 0xc76c51a30654be30]
  ++ [0xd192e819d6ef5218, 0xd69906245565a910, 0xf40e35855771202a, 0x106aa07032bbd1b8]
  ++ [0x19a4c116b8d2d0c8, 0x1e376c085141ab53, 0x2748774cdf8eeb99, 0x34b0bcb5e19b48a8]
  ++ [0x391c0cb3c5c95a63, 0x4ed8aa4ae3418acb, 0x5b9cca4f7763e373, 0x682e6ff3d6b2b8a3]
  ++ [0x748f82ee5defb2fc, 0x78a5636f43172f60, 0x84c87814a1f0ab72, 0x8cc702081a6439ec]
  ++ [0x90befffa23631e28, 0xa4506cebde82bde9, 0xbef9a3f7b2c67915, 0xc67178f2e372532b]
  ++ [0xca273eceea26619c, 0xd186b8c721c0c207, 0xeada7dd6cde0eb1e, 0xf57d4f7fee6ed178]
  ++ [0x06f067aa72176fba, 0x0a637dc5a2c898a6, 0x113f9804bef90dae, 0x1b710b35131c471b]
  ++ [0x28db77f523047d84, 0x32caab7b40c72493, 0x3c9ebe0a15c9bebc, 0x431d67c49c100d4c]
  ++ [0x4cc5d4becb3e42b6, 0x597f299cfc657e2a, 0x5fcb6fab3ad6faec, 0x6c44198c4a475817]

/-- The initial hash value of SHA-384. -/
def shaInit : List Nat :=
  [0xcbbb9d5dc1059ed8, 0x629a292a367cd507, 0x9159015a3070dd17, 0x152fecd8f70e5939,
   0x67332667ffc00b31, 0x8eb44a8768581511, 0xdb0c2e0d64f98fa7, 0x47b5481dbefa4fa4]

def m64 (n : Nat) : Nat := n % 2 ^ 64
def rotr64 (x n : Nat) : Nat := (x >>> n) ||| m64 (x <<< (64 - n))

/-- The message schedule, newest word first: each step adds one word from the last sixteen. -/
def shaExpand : Nat → List Nat → List Nat
  | 0, w => w
  | n + 1, w =>
    let s0 := let x := nth w 14; rotr64 x 1 ^^^ rotr64 x 8 ^^^ (x >>> 7)
    let s1 := let x := nth w 1; rotr64 x 19 ^^^ rotr64 x 61 ^^^ (x >>> 6)
    shaExpand n (m64 (s1 + nth w 6 + s0 + nth w 15) :: w)

/-- One round with its constant and word. -/
def shaRound (v : List Nat) (kw : Nat × Nat) : List Nat :=
  match v with
  | [a, b, c, d, e, f, g, h] =>
    let s1 := rotr64 e 14 ^^^ rotr64 e 18 ^^^ rotr64 e 41
    let ch := (e &&& f) ^^^ ((2 ^ 64 - 1 - e) &&& g)
    let t1 := h + s1 + ch + kw.1 + kw.2
    let s0 := rotr64 a 28 ^^^ rotr64 a 34 ^^^ rotr64 a 39
    let maj := (a &&& b) ^^^ (a &&& c) ^^^ (b &&& c)
    [m64 (t1 + s0 + maj), a, b, c, m64 (d + t1), e, f, g]
  | _ => v

/-- One block of 128 bytes. -/
def shaBlock (hv : List Nat) (blk : List Byte) : List Nat :=
  let w := (List.range 16).map (fun i => beNat ((blk.drop (8 * i)).take 8))
  let sched := (shaExpand 64 w.reverse).reverse
  let v := (shaK.zip sched).foldl shaRound hv
  (hv.zip v).map (fun p => m64 (p.1 + p.2))

/-- SHA-384 of a byte string, 48 bytes. (PRESUMED, log 11, unsafe.) -/
def sha384 (msg : List Byte) : List Byte :=
  let n := msg.length
  let pad := msg ++ [0x80#8] ++ List.replicate ((239 - n % 128) % 128) 0 ++ natBytes 16 (8 * n)
  let hv := (List.range (pad.length / 128)).foldl (fun hv i => shaBlock hv ((pad.drop (128 * i)).take 128)) shaInit
  (hv.take 6).flatMap (natBytes 8)

/-! ### SHA-256 (R393) -/

def m32 (n : Nat) : Nat := n % 2 ^ 32
def rotr32 (x n : Nat) : Nat := (x >>> n) ||| m32 (x <<< (32 - n))

/-- The round constants: the upper halves of the first 64 of the longer hash. -/
def sha256K : List Nat := (shaK.take 64).map (· / 2 ^ 32)

def sha256Init : List Nat := [0x6a09e667, 0xbb67ae85, 0x3c6ef372, 0xa54ff53a, 0x510e527f, 0x9b05688c, 0x1f83d9ab, 0x5be0cd19]

/-- The message schedule, newest word first. -/
def sha256Expand : Nat → List Nat → List Nat
  | 0, w => w
  | n + 1, w =>
    let s0 := let x := nth w 14; rotr32 x 7 ^^^ rotr32 x 18 ^^^ (x >>> 3)
    let s1 := let x := nth w 1; rotr32 x 17 ^^^ rotr32 x 19 ^^^ (x >>> 10)
    sha256Expand n (m32 (s1 + nth w 6 + s0 + nth w 15) :: w)

/-- One round with its constant and word. -/
def sha256Round (v : List Nat) (kw : Nat × Nat) : List Nat :=
  match v with
  | [a, b, c, d, e, f, g, h] =>
    let s1 := rotr32 e 6 ^^^ rotr32 e 11 ^^^ rotr32 e 25
    let ch := (e &&& f) ^^^ ((2 ^ 32 - 1 - e) &&& g)
    let t1 := h + s1 + ch + kw.1 + kw.2
    let s0 := rotr32 a 2 ^^^ rotr32 a 13 ^^^ rotr32 a 22
    let maj := (a &&& b) ^^^ (a &&& c) ^^^ (b &&& c)
    [m32 (t1 + s0 + maj), a, b, c, m32 (d + t1), e, f, g]
  | _ => v

/-- One block of 64 bytes. -/
def sha256Block (hv : List Nat) (blk : List Byte) : List Nat :=
  let w := (List.range 16).map (fun i => beNat ((blk.drop (4 * i)).take 4))
  let sched := (sha256Expand 48 w.reverse).reverse
  let v := (sha256K.zip sched).foldl sha256Round hv
  (hv.zip v).map (fun p => m32 (p.1 + p.2))

/-- SHA-256 of a byte string, 32 bytes. -/
def sha256 (msg : List Byte) : List Byte :=
  let n := msg.length
  let pad := msg ++ [0x80#8] ++ List.replicate ((119 - n % 64) % 64) 0 ++ natBytes 8 (8 * n)
  ((List.range (pad.length / 64)).foldl (fun hv i => sha256Block hv ((pad.drop (64 * i)).take 64)) sha256Init).flatMap (natBytes 4)

/-! ### P-384 -/

def p384 : Nat := 2 ^ 384 - 2 ^ 128 - 2 ^ 96 + 2 ^ 32 - 1
def p384n : Nat := 0xffffffffffffffffffffffffffffffffffffffffffffffffc7634d81f4372ddf581a0db248b0a77aecec196accc52973
def p384b : Nat := 0xb3312fa7e23ee7e4988e056be3f82d19181d9c6efe8141120314088f5013875ac656398d8a2ed19d2a85c8edd3ec2aef
def p384G : Nat × Nat :=
  (0xaa87ca22be8b05378eb1c71ef320ad746e1d3b628ba79b9859f741e082542a385502f25dbf55296c3a545e3872760ab7,
   0x3617de4a96262c6f5d9e98bf9292dc29f8f41dbd289a147ce9da3113b5f0b8c00a60b1ce1d7e819d7a431d7c90ea0e5f)

/-- x to the power e modulo m, for e of at most 384 bits. -/
def powMod (m x e : Nat) : Nat :=
  (List.range 384).foldl (fun acc i => let sq := acc * acc % m; if e.testBit (383 - i) then sq * x % m else sq) 1

/-- The inverse modulo a prime. -/
def invMod (m x : Nat) : Nat := powMod m (x % m) (m - 2)

/-- A point: none is the point at infinity. -/
abbrev EcPoint := Option (Nat × Nat)

/-- Addition on the curve y² = x³ − 3x + b. -/
def ecAdd (a b : EcPoint) : EcPoint :=
  match a, b with
  | none, q => q
  | q, none => q
  | some (x1, y1), some (x2, y2) =>
    if x1 = x2 ∧ (y1 + y2) % p384 = 0 then none
    else
      let l := if x1 = x2 then (3 * x1 * x1 + p384 - 3) * invMod p384 (2 * y1) % p384
        else (y2 + p384 - y1) * invMod p384 (x2 + p384 - x1) % p384
      let x := (l * l + 2 * p384 - x1 - x2) % p384
      some (x, (l * (x1 + p384 - x) + p384 - y1) % p384)

/-- A point (X, Y, Z) that stands for (X/Z², Y/Z³); Z = 0 is the point at infinity. -/
abbrev EcJac := Nat × Nat × Nat

/-- Twice a point: no inverse is needed. A point of the curve's prime order never has Y = 0. -/
def jacDouble (q : EcJac) : EcJac :=
  let (x, y, z) := q
  let d := z * z % p384
  let g := y * y % p384
  let b := x * g % p384
  let a := 3 * (x + p384 - d) * (x + d) % p384
  let x' := (a * a + 8 * p384 - 8 * b) % p384
  (x', (a * (4 * b + p384 - x') + 8 * p384 - 8 * (g * g % p384)) % p384, 2 * y * z % p384)

/-- A point plus an affine one. -/
def jacAdd (q : EcJac) (r : Nat × Nat) : EcJac :=
  let (x, y, z) := q
  if z = 0 then (r.1, r.2, 1)
  else
    let zz := z * z % p384
    let h := (r.1 * zz + p384 - x) % p384
    let t := (r.2 * zz % p384 * z + p384 - y) % p384
    if h = 0 then (if t = 0 then jacDouble q else (1, 1, 0))
    else
      let hh := h * h % p384
      let h3 := h * hh % p384
      let v := x * hh % p384
      let x' := (t * t + 3 * p384 - h3 - 2 * v) % p384
      (x', (t * (v + p384 - x') + p384 - y * h3 % p384) % p384, z * h % p384)

/-- k times a point, the bits of k from the most significant down. -/
def ecMul (k : Nat) : EcPoint → EcPoint
  | none => none
  | some q =>
    let (x, y, z) := (List.range 384).foldl (fun acc i => let d := jacDouble acc; if k.testBit (383 - i) then jacAdd d q else d) ((1, 1, 0) : EcJac)
    if z = 0 then none
    else
      let i := invMod p384 z
      let ii := i * i % p384
      some (x * ii % p384, y * (ii * i % p384) % p384)

/-- Whether coordinates lie on the curve. -/
def onCurve (x y : Nat) : Bool := x < p384 ∧ y < p384 ∧ y * y % p384 = (x * x * x + (p384 - 3) * x + p384b) % p384

/-- ECDSA verification of a signature (r, s) over a digest. -/
def ecdsaVerify (key : Nat × Nat) (digest : List Byte) (r s : Nat) : Bool :=
  if ¬ onCurve key.1 key.2 ∨ r = 0 ∨ s = 0 ∨ p384n ≤ r ∨ p384n ≤ s then false
  else
    let w := invMod p384n s
    match ecAdd (ecMul (beNat digest * w % p384n) (some p384G)) (ecMul (r * w % p384n) (some key)) with
    | some (x, _) => x % p384n = r
    | none => false

/-- The public keys under which a signature over a digest verifies: at most four, recovered from it. (DEDUCED, log 12, unsafe.) -/
def ecdsaKeys (digest : List Byte) (r s : Nat) : List (Nat × Nat) :=
  [r, r + p384n].flatMap (fun x =>
    if p384 ≤ x ∨ r = 0 then []
    else
      let y := powMod p384 ((x * x * x + (p384 - 3) * x + p384b) % p384) ((p384 + 1) / 4)
      [y, p384 - y].filterMap (fun y =>
        if ¬ onCurve x y then none
        else
          let ri := invMod p384n r
          let q := ecAdd (ecMul (s * ri % p384n) (some (x, y))) (ecMul ((p384n - beNat digest % p384n) * ri % p384n) (some p384G))
          q.filter (fun k => ecdsaVerify k digest r s)))

/-- A public key as the 96 bytes that the fused hash covers. -/
def keyBytes (k : Nat × Nat) : List Byte := natBytes 48 k.1 ++ natBytes 48 k.2

/-- Whether a signature is made with the key of a fused hash. The fuses hold hashes alone, so the keys it verifies under are recovered from it. -/
def signedBy (hash digest : List Byte) (r s : Nat) : Bool := (ecdsaKeys digest r s).any (fun k => sha384 (keyBytes k) = hash)

end Sys2Proof.Machine
end

