-- ==== Sys2Proof/Machine/Firmware.lean ====
section
/-!
DEFINITION. The envelope commands, firmware images and their replacement, and the life-cycle commands (R57 to R71).
-/

namespace Sys2Proof.Machine
open Sys2Proof

/-! ### Envelope and event commands -/

/-- GET_VERSION (Table 2.13). -/
def execGetVersion (ch : Nat) : State → Out := atUnit ch 16 <| onHw (fun fz h => h.answer ch 0x0001 (fun _ =>
  (h, stOk, 0, [w32 (1 + Config.dciMinor.toNat * 2 ^ 8 + 0x7020 * 2 ^ 16), w32 h.ctl.fwVersion, w32 h.ctl.secVersion,
    w32 (8 + 8 * 2 ^ 4 + 2 * 2 ^ 8 + 128 * 2 ^ 16 + 16 * 2 ^ 24), w32 (1024 + 256 * 2 ^ 16), w32 (8192 + 16896 * 2 ^ 16), w32 4194304,
    w32 (16 + 8 * 2 ^ 8 + 2 * 2 ^ 16 + fz.lc.code * 2 ^ 24), w32 192])))

/-- COMMIT (R57, R58): the staging set is set for its tick; an empty set completes at once with the current tick. -/
def execCommit (ch : Nat) : State → Out := atUnit ch 16 <| onHw (fun _ h => h.withRequest ch 0x0002 (fun r =>
  let set := (h.chan ch).staging
  if set = [] then h.reply ch stOk 0 (w32 0 :: le64 h.time.tick)
  else match h.commitTick r.arrived r.target set with
    | .inr (s, d) => h.reply ch s d
    | .inl t => h.modChan ch (fun x => { x with
        due := some { tick := t, dryRun := fld r.payload 0 0 0 = 1, named := decide (r.target ≠ 0) }, cur := x.cur.map (fun r => { r with waiting := false }) })))

/-- DISCARD_STAGED (R57): the set is emptied; one already due can no longer be discarded. -/
def execDiscardStaged (ch : Nat) : State → Out := atUnit ch 16 <| onHw (fun _ h => h.answer ch 0x0003 (fun _ =>
  let x := h.chan ch
  if x.due.isSome then h.refuse (stTickPassed, 0)
  else (h.modChan ch (fun x => { x with staging := [] }), stOk, 0, [w32 x.staging.length])))

/-- EVENT_SUBSCRIBE (R61): one subscription, the last one written. -/
def execEventSubscribe (ch : Nat) : State → Out := atUnit ch 16 <| onHw (fun _ h => h.answer ch 0x0004 (fun p =>
  if fld p 0 8 8 = 1 ∧ fld p 0 7 0 = 0 then h.refuse (stInvalid, 0)
  else (h.modCtl (fun c => { c with subEid := fld p 0 7 0, subOn := fld p 0 8 8 = 1 }), stOk, 0, [])))

/-! ### Flash and images (Tables 2.14 to 2.16) -/

/-- An unwritten flash byte reads as erased. (DESIGN CHOICE, log 9, unsafe.) -/
def flashByte : Byte := 0xFF

/-- Where an image slot lies in the flash. -/
def slotBase (slot : Nat) : Nat := 0x100000 + slot % 2 * 0x1000000

/-- Bytes of an image slot. -/
def Hw.imageBytes (h : Hw) (slot off n : Nat) : List Byte := memReadList flashByte h.ctl.flash (slotBase slot + off) n

/-- A header word of an image slot. -/
def Hw.imageWord (h : Hw) (slot off : Nat) : Nat := leNat (h.imageBytes slot off 4)

/-- Whether a slot still holds the image it was built with, of which the spec gives no bytes: the model takes it as one that passes its checks. (DESIGN CHOICE, log 10, unsafe.) -/
def Hw.factorySlot (h : Hw) (slot : Nat) : Bool := ¬ h.ctl.slotWritten.getD (slot % 2) true

/-- FW_VERSION, SECURITY_VERSION, HANDOVER_VERSION and HANDOVER_MIN of a slot's image. -/
def Hw.imageFacts (h : Hw) (slot : Nat) : Nat × Nat × Nat × Nat :=
  if h.factorySlot slot then
    ((Config.factoryImage 0).toNat, (Config.factoryImage 1).toNat, (Config.factoryImage 2).toNat % 2 ^ 16, (Config.factoryImage 3).toNat % 2 ^ 16)
  else
    let w := h.imageWord slot 0x18
    (h.imageWord slot 0x10, h.imageWord slot 0x0C, w % 2 ^ 16, w / 2 ^ 16)

/-- The first check of Table 2.16 that a slot's image fails, or zero. -/
def Hw.imageCheck (fz : Fuses) (h : Hw) (slot : Nat) : Nat :=
  if h.factorySlot slot then 0
  else
    let w4 := h.imageWord slot 0x04
    let len := h.imageWord slot 0x08
    let key := w4 / 2 ^ 16
    let kx := h.imageBytes slot 0x50 96
    let sig := h.imageBytes slot 0xB0 96
    if h.imageWord slot 0 ≠ 0x57494D31 ∨ w4 % 2 ^ 16 ≠ 1 ∨ h.imageWord slot 0x14 % 2 ^ 16 ≠ 0x7020 ∨ len = 0 ∨ len % 4 ≠ 0 ∨ 0x1000000 - 512 < len then 1
    else if 4 ≤ key ∨ fz.revoked.getD key true ∨ sha384 kx ≠ fz.keyHashes.getD key [] then 2
    else if h.imageWord slot 0x0C < fz.antiRoll then 3
    else if sha384 (h.imageBytes slot 0x200 len) ≠ h.imageBytes slot 0x20 48 then 4
    else if ¬ ecdsaVerify (beNat (kx.take 48), beNat (kx.drop 48)) (sha384 (h.imageBytes slot 0 0xB0)) (beNat (sig.take 48)) (beNat (sig.drop 48)) then 5
    else 0

/-! The directory: DIR_SEQUENCE at 0, BOOT_SLOT at 4, the subsystem IDs at 8, and at 0xFFC the CRC-32 of the 4,092 bytes before it. -/

def Hw.dirBytes (h : Hw) (copy n : Nat) : List Byte := memReadList flashByte h.ctl.flash (copy * 0x1000) n
def Hw.dirWord (h : Hw) (copy off : Nat) : Nat := leNat (memReadList flashByte h.ctl.flash (copy * 0x1000 + off) 4)
def Hw.dirOk (h : Hw) (copy : Nat) : Bool := crc32 (h.dirBytes copy 0xFFC) = h.dirWord copy 0xFFC

/-- The directory copy in use: correct, with the higher sequence. -/
def Hw.dirCopy (h : Hw) : Option Nat :=
  match h.dirOk 0, h.dirOk 1 with
  | true, true => some (if h.dirWord 0 0 < h.dirWord 1 0 then 1 else 0)
  | true, false => some 0
  | false, true => some 1
  | false, false => none

/-- BOOT_SLOT; slot A while no copy is correct. -/
def Hw.bootSlot (h : Hw) : Nat := h.dirCopy.elim 0 (fun c => h.dirWord c 4 % 2)

/-- Firmware rewrites the older directory copy with a BOOT_SLOT. -/
def Hw.writeDir (h : Hw) (slot : Nat) : Hw :=
  let old := h.dirCopy
  let copy := old.elim 0 (fun c => 1 - c)
  let seq := old.elim 1 (fun c => (h.dirWord c 0 + 1) % 2 ^ 32)
  let ids := old.elim Config.subsystem (fun c => w32 (h.dirWord c 8))
  let body := leBytes (w32 seq) ++ leBytes (w32 slot) ++ leBytes ids ++ List.replicate (0xFFC - 12) flashByte
  h.modCtl (fun c => { c with flash := memWriteList flashByte c.flash (copy * 0x1000) (body ++ leBytes (w32 (crc32 body))) })

/-! ### Firmware commands (Table 2.18) -/

/-- FW_FLASH_WRITE (R62): the slot not running is written, from BAR2 or inline, and checked. (DESIGN CHOICE, log 115, unsafe.) -/
def execFwFlashWrite (ch : Nat) : State → Out := atUnit ch 16 <| onHw (fun fz h => h.answer ch 0x0E01 (fun p =>
  let slot := fld p 0 0 0
  let len := wnat p 2
  let inline_ := decide (12 ≤ ch)
  let off := if inline_ then wnat p 1 else 0
  let n := if inline_ then min len 4068 else len
  match firstFail [failIf (len = 0) (bad 8), failIf (slot = h.ctl.runningSlot) (bad 0), failIf (0x1000000 < off + n) (bad (if inline_ then 4 else 8))] with
  | some f => h.refuse f
  | none =>
    let data := if inline_ then ((p.drop 3).flatMap leBytes).take n else memReadList 0 h.ctl.bulk (wnat p 1) n
    let h := h.modCtl (fun c => { c with flash := memWriteList flashByte c.flash (slotBase slot + off) data, slotWritten := c.slotWritten.set slot true })
    (h, stOk, 0, [w32 (h.imageCheck fz slot)])))

/-- FW_BOOT_SLOT_SET. -/
def execFwBootSlotSet (ch : Nat) : State → Out := atUnit ch 16 <| onHw (fun fz h => h.answer ch 0x0E02 (fun p =>
  let slot := fld p 0 0 0
  let k := h.imageCheck fz slot
  if k ≠ 0 then h.refuse (stImage, k) else (h.writeDir slot, stOk, 0, [])))

/-- An activation fails (R65): the response, FW_HANDOVER_FAILED, and the standby boots the running slot again. -/
def Hw.activationFails (h : Hw) (status detail cause : Nat) : Hw :=
  match h.ctl.activation with
  | none => h
  | some a =>
    let h := (h.modCtl (fun c => { c with activation := none, standbyReady := false })).reply a.ch status detail
    h.raise 0x0E02 [w32 (status + detail * 2 ^ 16), w32 (a.slot + cause * 2 ^ 8)]

/-- An activation fails by a firmware fault (R55, R65): INTERNAL, with FW_INTERNAL reported. -/
def Hw.activationInternal (h : Hw) (cause : Nat) : Hw :=
  if h.ctl.activation.isNone then h else (h.report 0xE02 0 (unitNo 11 h.ctl.activeMp)).activationFails 0x00FF 0xE02 cause

/-- A management processor is lost and fenced (R471, R473). While the boot ROM or firmware still boots, the other processor is active (R63). The loss of the standby ends an
activation (R65); without the active one no firmware runs until the takeover. -/
def Hw.loseMp (h : Hw) (i : Nat) (forced : Bool := false) : Hw :=
  let h := (h.report 0xE01 1 (unitNo 11 i) 3 [] forced).fence (unitNo 11 i) 0xE01
  if i ≠ h.ctl.activeMp then (h.modCtl (fun c => { c with standbyReady := false })).activationInternal 3
  else if h.ctl.phase = .rom ∨ h.ctl.phase = .booting then h.modCtl (fun c => { c with activeMp := 1 - c.activeMp })
  else h.modFaults (fun f => { f with mpLost := true, mpLostTick := h.time.tick })

/-- FW_HITLESS_ACTIVATE (R64, R65): the handover versions of both images must fit; the standby then resets and boots the slot. (DESIGN CHOICE, log 116, unsafe.) -/
def execFwHitlessActivate (ch : Nat) : State → Out := atUnit ch 16 <| onHw (fun fz h => h.withRequest ch 0x0E03 (fun r =>
  let slot := fld r.payload 0 0 0
  let (_, _, ver, minV) := h.imageFacts slot
  if h.ctl.handoverVer < minV ∨ ver < h.ctl.handoverMin then h.reply ch stIncompatible h.ctl.handoverVer
  else
    let d := (r.target + 2 ^ 32 - h.time.tick % 2 ^ 32) % 2 ^ 32
    let a : Activation := { slot := slot, ch := ch, target := if r.target = 0 ∨ 2 ^ 31 ≤ d then 0 else h.time.tick + d, started := h.time.base }
    let h := h.modCtl (fun c => { c with activation := some a, standbyReady := false })
    let h := h.modChan ch (fun x => { x with cur := x.cur.map (fun r => { r with waiting := false }) })
    let k := h.imageCheck fz slot
    if k ≠ 0 then h.activationFails stImage k 1 else h))

/-- FW_STATUS_GET. -/
def execFwStatusGet (ch : Nat) : State → Out := atUnit ch 16 <| onHw (fun fz h => h.answer ch 0x0E04 (fun _ =>
  let ver (slot : Nat) : Word := if h.imageCheck fz slot = 0 then w32 (h.imageFacts slot).1 else 0
  (h, stOk, 0, [w32 h.ctl.phase.code, w32 h.ctl.fwVersion, ver 0, ver 1, w32 fz.antiRoll, w32 h.ctl.handoverVer])))

/-! ### Life-cycle commands (R66 to R70) -/

/-- LC_NONCE_GET (R68): a fresh nonce. -/
def execLcNonceGet (ch : Nat) : State → Out := atUnit ch 16 <| onHw (fun fz h => h.answer ch 0x0E05 (fun _ =>
  let (h, n) := h.random 128
  let nonce := natBytes 16 n
  (h.modCtl (fun c => { c with nonce := some nonce }), stOk, 0, leWords fz.deviceUid ++ leWords nonce)))

/-- The transitions of Table 2.17. -/
def lcAllowed (a b : Lc) : Bool :=
  match a, b with
  | .manufacture, .provisioned | .provisioned, .inService | .maintenance, .inService | .inService, .maintenance | .inService, .retired
  | .maintenance, .retired => true
  | _, _ => false

/-- LC_TRANSITION (R66 to R70): the transition must be one of the table's and its token signed with the key of the state it leaves; it starts at the
next tick. The nonce serves once. -/
def execLcTransition (ch : Nat) : State → Out := atUnit ch 16 <| onHw (fun fz h => h.answer ch 0x0E06 (fun p =>
  let bytes := p.flatMap leBytes
  let r := beNat ((bytes.drop 4).take 48)
  let s := beNat ((bytes.drop 52).take 48)
  let hash := (bytes.drop 100).take 48
  let zero := hash = List.replicate 48 0
  match lcOfCode (wnat p 0) with
  | none => h.refuse (stLifecycle, fz.lc.code)
  | some target =>
    if ¬ lcAllowed fz.lc target then h.refuse (stLifecycle, fz.lc.code)
    else if (decide (fz.lc = .provisioned) && decide zero) || (decide (fz.lc ≠ .provisioned) && ¬ decide zero) then h.refuse (stInvalid, 100)
    else match h.ctl.nonce with
      | none => h.refuse (stAuth, 0)
      | some nonce =>
        let digest := sha384 (fz.deviceUid ++ leBytes (w32 target.code) ++ nonce)
        let keys := if fz.lc = .manufacture ∨ fz.lc = .provisioned
          then (List.range 4).filterMap (fun i => if fz.revoked.getD i true then none else fz.keyHashes[i]?) else [fz.ownerHash]
        if ¬ keys.any (fun k => signedBy k digest r s) then h.refuse (stAuth, 0)
        else (h.modCtl (fun c => { c with nonce := none, lcTarget := some target, lcFrom := fz.lc, lcTick := h.time.tick + 1, lcHash := hash }),
              stOk, 0, [])))

/-- A meaning that changes the fuses as well. -/
def onFuses (f : Fuses → Hw → Fuses × Hw) (s : State) : Out :=
  let (fz, h) := f s.fuses s.hw
  .next { s with fuses := fz, hw := h }

/-- ANTI_ROLLBACK_ADVANCE (R69). -/
def execAntiRollbackAdvance (ch : Nat) : State → Out := atUnit ch 16 <|
  onFuses (fun fz h =>
    match (h.chan ch).cur with
    | none => (fz, h)
    | some r =>
      let new := wnat r.payload 0
      let other := 1 - h.ctl.runningSlot
      let blow := decide (fz.antiRoll < new ∧ new ≤ h.ctl.secVersion ∧ new ≤ 64 ∧ h.imageCheck fz other = 0 ∧ new ≤ (h.imageFacts other).2.1)
      let runs := decide (r.waiting ∧ ¬ r.latched ∧ r.opcode = 0x0E07 ∧ ¬ h.faults.mpLost)
      (if runs ∧ blow then { fz with antiRoll := new } else fz,
       h.answer ch 0x0E07 (fun _ =>
         if new ≤ fz.antiRoll then (h, stOk, 0, [w32 fz.antiRoll])
         else if blow then (h, stOk, 0, [w32 new])
         else h.refuse (stRollback, fz.antiRoll))))

/-! ### Handover (R63 to R65) -/

/-- The active processor writes the state mirror at each tick from FW_PHASE RUNNING onward (R63, R471). What the mirror holds is the state itself as the tick's edge left it,
which is what the processor that imports it goes on with. -/
def Hw.writeMirror (h : Hw) : Hw :=
  if h.eventsOn ∧ ¬ h.faults.mpLost then h.modCtl (fun c => { c with mirror := some h.time.tick }) else h

/-- STANDBY_READY_SET (R63, R64): the standby has imported a state mirror, so one has been written; for an activation firmware then chooses the handover tick, the later of the
target and the second tick after, unless a commit is already set for it. -/
def execStandbyReadySet : State → Out := onHw (fun _ h =>
  let other := 1 - h.ctl.activeMp
  if (h.ctl.phase ≠ .running ∧ h.ctl.phase ≠ .handover) ∨ h.ctl.mirror.isNone ∨ h.isFenced (unitNo 11 other) ∨ h.faults.mpLost then h
  else
    let h := h.modCtl (fun c => { c with standbyReady := true })
    match h.ctl.activation with
    | none => h
    | some a =>
      if a.atTick.isSome then h
      else
        let t := max a.target (h.time.tick + 2)
        if h.ctl.chans.any (fun e => e.2.due.any (fun d => d.tick = t)) then
          (h.modCtl (fun c => { c with activation := none, standbyReady := false })).reply a.ch stHandover 0
        else h.modCtl (fun c => { c with activation := some { a with atTick := some t } }))

/-- Requests latched while no firmware served them are taken into execution (R51, R472). (DEDUCED, log 19, unsafe.) -/
def Hw.runLatched (fz : Fuses) (h : Hw) : Hw :=
  (List.range 16).foldl (fun h c => match (h.chan c).cur with
    | some r => if r.latched then h.accept fz c { r with latched := false } else h
    | none => h) h

/-- What the running image is. -/
def Hw.runImage (h : Hw) (slot : Nat) : Hw :=
  let (v, sec, hv, hm) := h.imageFacts slot
  h.modCtl (fun c => { c with runningSlot := slot, fwVersion := v, secVersion := sec, handoverVer := hv, handoverMin := hm })

/-- FW_HANDOVER (R64): at the handover tick the roles of the processors change, the latched requests run, the response is written, FW_HANDOVER_DONE is
raised and the directory names the new slot. -/
def execFwHandover : State → Out := onHw (fun fz h =>
  match h.ctl.activation with
  | none => h
  | some a =>
    match a.atTick with
    | none => h
    | some t =>
      if h.ctl.phase ≠ .handover ∨ h.time.tick < t then h
      else
        let h := h.modCtl (fun c => { c with activeMp := 1 - c.activeMp, phase := .running, standbyReady := false, activation := none })
        let h := (h.runImage a.slot).reply a.ch stOk 0 (le64 t)
        let h := h.raise 0x0E01 ([w32 h.ctl.fwVersion, w32 (h.ctl.activeMp + a.slot * 2)] ++ le64 t)
        (h.writeDir a.slot).runLatched fz)

/-- FW_ACTIVATE_TIMEOUT (R65): STANDBY_READY was not set within 400 ms, 64,000 base intervals. The response is INTERNAL, and FW_INTERNAL counts. -/
def execFwActivateTimeout : State → Out := onHw (fun _ h =>
  match h.ctl.activation with
  | none => h
  | some a =>
    if a.atTick.isSome ∨ h.time.base < a.started + 64000 then h
    else h.activationInternal 2)

end Sys2Proof.Machine
end

