-- ==== Sys2Proof/Machine/Faults.lean ====
section
/-!
DEFINITION. The sweep, the collector's timers and the safe state, the loss of a management processor, and the fault commands (R453 to R480).
-/

namespace Sys2Proof.Machine
open Sys2Proof

/-! ### The sweep (R461, R462) -/

/-- At a tick edge what each source gathered in the tick that ends waits for the next sweep. -/
def Faults.closeTick (f : Faults) : Faults :=
  let posts := f.sources.filterMap (fun e =>
    let x := e.2
    if x.tickOcc = 0 then none
    else some { source := e.1, cls := x.tickClass, unit := x.tickUnit, occ := x.tickOcc, c0Occ := x.c0Occ, c0Unit := x.c0Unit, forced := x.c0Forced,
                action := x.c0Action, tick := x.c0Tick, slot := x.c0Slot, data := x.tickData : Post })
  { f with posts := f.posts ++ posts,
           sources := f.sources.map (fun (e : Nat × SourceSt) => (e.1, { e.2 with tickOcc := 0, tickClass := 0, c0Occ := 0, c0Forced := false, tickData := [] })) }

/-- The sweep adds what the units counted to every COUNT and to the mirror, keeps the shadow counts, and writes one event for each source and tick, and one
log entry for its C0 occurrences. An event is raised for C1 to C3, and for C0 when EVENT_C0 is set. -/
def Hw.sweep (h : Hw) : Hw :=
  let h := h.modFaults (fun f => { f with
    sources := f.sources.map (fun (e : Nat × SourceSt) =>
      let n := sat32 (e.2.count + e.2.unswept)
      (e.1, { e.2 with count := n, shadow := n, unswept := 0, mWorst := e.2.worst, mLast := e.2.lastTick })),
    classCount := (List.range 4).map (fun k => sat32 (nth f.classCount k + nth f.classNew k)), classNew := [0, 0, 0, 0],
    sweepTick := h.time.tick % 2 ^ 32 })
  let posts := h.faults.posts
  let h := h.modFaults (fun f => { f with posts := [] })
  posts.foldl (fun (h : Hw) (p : Post) =>
    let h := if p.c0Occ = 0 then h
      else h.modFaults (fun f => f.write { source := p.source, cls := 0, forced := p.forced, unit := p.c0Unit, tick := p.tick, slot := p.slot, action := p.action,
                                           occ := p.c0Occ, count := (f.src p.source).count, data := p.data })
    if 0 < p.cls ∨ (h.faults.src p.source).eventC0 then h.raise 0x0B01 [w32 (p.source + p.cls * 2 ^ 12 + p.unit * 2 ^ 16), w32 p.occ] else h) h

/-! ### Timers and the safe state (R463 to R470) -/

/-- Whether the quiet timer has reached QUIET_MS. -/
def Hw.quiet (h : Hw) : Bool := h.faults.quietMs ≤ h.quietElapsed

/-- The collector returns to NORMAL: RECOVERY_COUNT and the release of what held ERR_N. -/
def Hw.toNormal (h : Hw) : Hw :=
  (h.modFaults (fun f => { f with state := .normal, recoveries := sat32 (f.recoveries + 1), causes := [], quietDone := true })).errnSettle

/-- At E1, FAULT ends once the quiet timer has run (R466). -/
def Hw.quietEnds (h : Hw) : Hw :=
  if h.faults.state ≠ .fault ∨ ¬ h.quiet then h
  else
    let h := h.toNormal
    h.raise 0x0B02 [w32 h.faults.recoveries]

/-- QUIET_PERIOD_EXPIRY: its step of E1, which TICK_EDGE takes; in slot 0 the row takes it. (DEDUCED, log 125, unsafe.) -/
def execQuietPeriodExpiry : State → Out := atEdge (fun _ h => h.quietEnds)

/-- ERR_N_PULSE_END (R463, R464). -/
def execErrNPulseEnd : State → Out := onHw (fun _ h => (h.modFaults (fun f => { f with pulsing := false })).errnSettle)

/-- COLLECTOR_REWRITE (R468 to R470): every register takes its shadow value and is read back; the end of the rewrite restarts the quiet timer. Three
failures in a row lose the collector. -/
def execCollectorRewrite (ok : Bool) : State → Out := onHw (fun _ h =>
  if h.faults.state ≠ .safe ∨ h.faults.rewriteDone then h
  else if ok then
    (h.modFaults (fun f => { f with
      rewriteDone := true, rewriteFails := 0, quietStart := h.quietNow, quietDone := false,
      sources := f.sources.map (fun (e : Nat × SourceSt) => (e.1, { e.2 with count := e.2.shadow })) })).checkWorkingSet
  else (h.modFaults (fun f => { f with rewriteFails := f.rewriteFails + 1 })).checkWorkingSet)

/-- At E1 the safe state ends, once no C3 cause persists, the rewrite has read back and the quiet timer has run (R468); one that began in lehr holds until after it (R518). Reason
SAFE_STATE clears at E3. -/
def Hw.safeEnds (h : Hw) : Hw :=
  let f := h.faults
  if f.state ≠ .safe ∨ f.missing ≠ [] ∨ f.railsOut ≠ [] ∨ ¬ f.rewriteDone ∨ ¬ h.quiet ∨ h.inLehr then h
  else
    let h := h.toNormal
    h.raise 0x0B04 [w32 h.faults.recoveries, w32 (sat32 (h.time.tick - f.safeTick))]

/-- SAFE_STATE_EXIT: its step of E1, which TICK_EDGE takes; in slot 0 the row takes it. (DEDUCED, log 125, unsafe.) -/
def execSafeStateExit : State → Out := atEdge (fun _ h => h.safeEnds)

/-- STRIKE_COUNT_RESET (R458): a quiet period without a strike. -/
def execStrikeCountReset (unit : Nat) : State → Out := onHw (fun _ h =>
  if h.strikesOf unit ≠ 0 then h
  else h.modFaults (fun f => { f with strikes := tdel f.strikes unit, strikeBase := tdel f.strikeBase unit }))

/-! ### Loss of a management processor (R471 to R473) -/

/-- MP_LOST (R471): the active processor is fenced, and no firmware runs until the takeover. (DESIGN CHOICE, log 56, safe.) -/
def execMpLost : State → Out := onHw (fun _ h =>
  if ¬ h.powered ∨ h.isFenced (unitNo 11 h.ctl.activeMp) then h else h.loseMp h.ctl.activeMp)

/-- The commands that only read: running one again changes nothing but what it answers (R472). -/
def readsOnly (op : Nat) : Bool := [0x0001, 0x0102, 0x0209, 0x0303, 0x0507, 0x0508, 0x0602, 0x0A03, 0x0B03, 0x0B05, 0x0C03, 0x0D06, 0x0E04].contains op

/-- The requests of a processor that was lost whose responses have not been written (R472): one that reads is executed again, and so is an activation (R65). Any other has had
its effect once, with the response that stands. (DEDUCED, log 117, unsafe.) -/
def Chan.again (x : Chan) : Chan :=
  match x.cur with
  | some r => if (x.reply.isSome && readsOnly r.opcode) || decide (x.reply.isNone ∧ r.opcode = 0x0E03) then { x with cur := some { r with waiting := true }, reply := none } else x
  | none => x

/-- The takeover (R471, R472): the standby imports the mirror and becomes active. Latched requests run, and a commit whose tick has passed completes with TICK_PASSED, its staging set kept and no event raised (DESIGN CHOICE, log 119, unsafe). A standby that booted a new image runs that image (R65). (DEDUCED, log 117, unsafe.) -/
def Hw.takeover (fz : Fuses) (h : Hw) : Hw :=
  let other := 1 - h.ctl.activeMp
  if ¬ h.faults.mpLost ∨ h.isFenced (unitNo 11 other) then h
  else
    let h := h.ctl.activation.elim h (fun a => h.runImage a.slot)
    let h := (h.modFaults (fun f => { f with mpLost := false })).modCtl (fun c => { c with
      activeMp := other, standbyReady := false, activation := none, phase := if c.phase = .handover then .running else c.phase,
      chans := c.chans.map (fun e => (e.1, e.2.again)) })
    let h := (List.range 16).foldl (fun h c => match (h.chan c).due with
      | some d => if d.tick ≤ h.time.tick then (h.modChan c (fun x => { x with due := none })).reply c stTickPassed 0 else h
      | none => h) h
    h.runLatched fz

/-- A standby that is ready takes over at E1 of the tick after the loss (R471). -/
def Hw.readyTakeover (fz : Fuses) (h : Hw) : Hw := if h.ctl.standbyReady ∧ h.faults.mpLostTick < h.time.tick then h.takeover fz else h

/-- MP_TAKEOVER (R471): a standby that was not ready has booted and takes over; one that was does so at E1, which TICK_EDGE takes, and in slot 0 the row. (DEDUCED, log 125,
unsafe.) -/
def execMpTakeover : State → Out := onHw (fun fz h =>
  if ¬ h.ctl.standbyReady then h.takeover fz else if h.time.slot = 0 then h.readyTakeover fz else h)

/-! ### Fault commands (Tables 16.11 to 16.15) -/

/-- What FAULT_CONFIG_SET checks of its payload, beyond the envelope (R53). -/
def failFaultConfigSet (fz : Fuses) (_h : Hw) (_ch : Nat) (p : List Word) (_bulk : List Byte) : Option Fail :=
  if fld p 0 0 0 = 0 then
    let q := fld p 1 15 0
    let pu := fld p 1 25 16
    firstFail [failIf (q = 0 ∨ 60000 < q ∨ (fz.lc = .inService ∧ 100 < q) ∨ pu = 1 ∨ 1000 < pu) (bad 4), failIf (fld p 2 1 0 = 3) (bad 8)]
  else
    let e := fld p 2 4 3
    firstFail [failIf ((sourceTop (fld p 1 11 0)).isNone) (bad 4), failIf (e = 3 ∨ (e ≠ 0 ∧ ¬ sourceHasC1 (fld p 1 11 0))) (bad 8)]

/-- FAULT_CONFIG_SET (R463 to R466). -/
def execFaultConfigSet (ch : Nat) : State → Out := atUnit ch 16 <| onHw (fun fz h => h.configure ch 0x0B01 (failFaultConfigSet fz h ch))

def applyFaultConfig (h : Hw) (p : List Word) : Hw :=
  if fld p 0 0 0 = 0 then
    (h.modFaults (fun f => { f with
      quietMs := fld p 1 15 0, pulseUs := if fld p 1 25 16 = 0 then 2 else fld p 1 25 16, errnHold := fld p 2 1 0, errnOnC1 := fld p 2 2 2 = 1 })).errnSettle
  else h.modFaults (fun f => f.modSrc (fld p 1 11 0) (fun x => { x with errn := fld p 2 4 3, eventC0 := fld p 2 5 5 = 1 }))

/-- Pair 0x0B01: the quiet period and the life-cycle state. -/
def pairQuiet (fz : Fuses) (p : List Word) : Option Nat := if fld p 0 0 0 = 0 ∧ 100 < fld p 1 15 0 ∧ fz.lc = .inService then some 0x0B01 else none

/-- Whether a unit may carry a source (R477, R547). -/
def forceUnitOk (s u : Nat) : Bool :=
  let k := sourceKinds s
  if u = 0 then k = [] ∨ s = 0x105 else k.contains (u / 4096) ∧ unitExists u

/-- FAULT_FORCE (R477): the force waits for the next slot start. -/
def execFaultForce (ch : Nat) : State → Out := atUnit ch 16 <| onHw (fun _ h => h.answer ch 0x0B02 (fun p =>
  let s := fld p 0 11 0
  let notify := decide (fld p 0 12 12 = 1)
  let n := fld p 0 18 16
  let u := fld p 1 15 0
  match firstFail [failIf ((sourceTop s).isNone ∨ (¬ notify ∧ derivedSources.contains s)) (bad 0), failIf (¬ forceUnitOk s u) (bad 4), failIf (4 < n) (bad 0)] with
  | some f => h.refuse f
  | none => (if n = 0 then h else h.modFaults (fun f => f.modSrc s (fun x => { x with force := some (u, n, notify) })), stOk, 0, [])))

/-- The words of a log entry (Table 16.10). -/
def LogEntry.words (e : LogEntry) : List Word :=
  [w32 (e.source + e.cls * 2 ^ 12 + b2n e.forced * 2 ^ 14 + b2n e.notify * 2 ^ 15 + e.unit * 2 ^ 16)] ++ le64 e.tick
  ++ [w32 (e.slot + e.action * 2 ^ 8 + min e.occ 65535 * 2 ^ 16), w32 e.count] ++ (e.data ++ [0, 0, 0]).take 3

/-- FAULT_LOG_READ: FIRST counts from the newest entry; the header names the total of entries written and the number of the oldest one held, counted from 0 at the
first entry written. (DEDUCED, log 140, unsafe.) -/
def execFaultLogRead (ch : Nat) : State → Out := atUnit ch 16 <| onHw (fun _ h => h.answer ch 0x0B03 (fun p =>
  let f := h.faults
  let hist := decide (fld p 0 24 24 = 1)
  let log := if hist then f.history else f.log
  let total := if hist then f.histTotal else f.logTotal
  (h, stOk, 0, [w32 total, w32 (total - log.length), 0, 0] ++ ((log.drop (fld p 0 15 0)).take (fld p 0 22 16)).flatMap (·.words))))

/-- UNIT_READMIT (R476): the built-in test of a fenced unit begins; BUILTIN_TEST_DONE ends it. -/
def execUnitReadmit (ch : Nat) : State → Out := atUnit ch 16 <| onHw (fun _ h => h.withRequest ch 0x0B04 (fun r =>
  let u := fld r.payload 0 15 0
  if u / 4096 = 0 then h.reply ch stInvalid 0
  else if ¬ unitExists u then h.reply ch stAbsent u
  else if ¬ h.isFenced u ∧ ¬ (u / 4096 = 5 ∧ h.mesh.fenced.contains (u % 4096)) then h.reply ch stInvalid 0
  else (h.modFaults (fun f => { f with tests := f.tests ++ [{ unit := u, ch := ch }] })).modChan ch (fun x => { x with
    cur := x.cur.map (fun r => { r with waiting := false }) })))

/-- The unit whose outcome a partial reset reports: the complex, or the die (Table 16.6). -/
def PartReset.unit (r : PartReset) : Nat :=
  match r.kind with | 1 => unitNo 4 r.index | 2 => unitNo 15 r.index | 3 => unitNo 15 (8 + r.index) | _ => unitNo 15 19

/-- The test at the end of a partial reset of a complex or an SCD (R508, R509): on a pass its units return at the next tick, on a failure a complex stays
fenced. -/
def Hw.resetTested (h : Hw) (unit step : Nat) : Hw :=
  match h.power.resets.find? (fun r => r.unit = unit ∧ r.kind < 3 ∧ r.applied ∧ r.outcome = 0) with
  | none => h
  | some r =>
    let h := { h with power := { h.power with resets := h.power.resets.map (fun x => if x = r then { x with outcome := if step = 0 then 1 else 2 } else x) } }
    if step ≠ 0 ∧ r.kind = 1 ∧ ¬ h.isFenced unit then h.modFaults (fun f => { f with fenced := f.fenced ++ [unit], recorded := f.recorded ++ [unit] }) else h

/-- BUILTIN_TEST_DONE (R476, R508): `step` is zero on a pass, else the step that failed. A unit that passed returns at the next tick; one that failed stays
fenced. The test of a stack fails while none of its memory-node routers serves (R16); the step it fails at is open. (DESIGN CHOICE, log 137, safe.) -/
def execBuiltinTestDone (unit step : Nat) : State → Out := onHw (fun _ h =>
  match h.faults.tests.find? (fun t => t.unit = unit ∧ ¬ t.passed) with
  | none => h.resetTested unit step
  | some t =>
    let noNode := decide (unit / 4096 = 10) && (List.range 4).all (fun n => h.routerOut (nodeRouter (4 * (unit % 4096) + n)))
    let (h, step) := if noNode ∧ step = 0 then (h.draw.1, 1 + h.draw.2 % 255) else (h, step)
    if step = 0 then h.modFaults (fun f => { f with tests := f.tests.map (fun x => if x = t then { x with passed := true } else x) })
    else (h.modFaults (fun f => { f with tests := f.tests.erase t })).reply t.ch stOk 0 [w32 (1 + step % 256 * 2 ^ 8)])

/-- The spares built in, row by row of Table 16.5. -/
def spareTotals : List Nat := [144, 144, 144, 16, 0, 256, 0, 8, 2, 0, 1, 1, 0]

/-- The scopes in which units of a row are fenced, with the number of fenced units and the spares of the scope. -/
def Hw.scopesOf (h : Hw) (row : Nat) : List (Nat × Nat × Nat) :=
  let sc := h.faults.fenced.filterMap (fun u => (spareScope u).bind (fun x => if x.1 = row then some (x.2.1, x.2.2) else none))
  (sc.dedup).map (fun s => (s.1, h.fencedIn row s.1, s.2))

/-- The two words of a spare budget entry (Table 16.14). A router is fenced by a fault or by command, and its class is exhausted while R177 does not hold. A class without spares is
exhausted in a scope from its first fence there. (DEDUCED, log 140, unsafe.) -/
def Hw.budget (h : Hw) (row : Nat) : List Word :=
  let sc := h.scopesOf row
  let free := nth spareTotals row - (sc.map (fun s => min s.2.1 s.2.2)).sum
  let fenced := if row = 4 then (natsWhere 128 h.routerOut).length else (sc.map (·.2.1)).sum
  let gone := if row = 4 then b2n (h.mesh.separation ≠ []) else (sc.filter (fun s => s.2.2 ≤ s.2.1)).length
  [w32 (nth spareTotals row + free * 2 ^ 16), w32 (fenced + gone * 2 ^ 16)]

/-- SPARE_BUDGET_GET (R474). -/
def execSpareBudgetGet (ch : Nat) : State → Out := atUnit ch 16 <| onHw (fun _ h => h.answer ch 0x0B05 (fun _ =>
  (h, stOk, 0, (List.range 13).flatMap h.budget)))

end Sys2Proof.Machine
end

