-- ==== Sys2Proof/Machine/Arith.lean ====
section
/-!
DEFINITION. Tensor arithmetic: element formats, exact values, rounding, the accumulators of the three modes, the operators and output conversion
(R211 to R244).
-/

namespace Sys2Proof.Machine
open Sys2Proof

/-! ### Formats (Table 8.1) -/

/-- The special encodings of a floating-point format: none, infinity and NaN as in IEEE 754, or the one NaN of FP8 E4M3. -/
inductive Specials where
  | none | ieee | e4m3
  deriving DecidableEq, Repr

/-- A floating-point format: exponent bits, mantissa bits, bias and specials. -/
structure Flt where
  eb   : Nat
  mb   : Nat
  bias : Nat
  spec : Specials
  deriving DecidableEq, Repr

def fp32 : Flt := { eb := 8, mb := 23, bias := 127, spec := .ieee }

/-- The floating-point part of a format code; FP32 for a code that has none. -/
def fltOf (code : Nat) : Flt :=
  match code with
  | 1 => { eb := 8, mb := 7, bias := 127, spec := .ieee }
  | 2 => { eb := 5, mb := 10, bias := 15, spec := .ieee }
  | 3 | 5 => { eb := 4, mb := 3, bias := 7, spec := .e4m3 }
  | 4 | 6 => { eb := 5, mb := 2, bias := 15, spec := .ieee }
  | 7 => { eb := 3, mb := 2, bias := 3, spec := .none }
  | 8 => { eb := 2, mb := 3, bias := 1, spec := .none }
  | 9 => { eb := 2, mb := 1, bias := 1, spec := .none }
  | _ => fp32

def fmtInt (code : Nat) : Bool := code = 11 ∨ code = 12 ∨ code = 13
def fmtMx (code : Nat) : Bool := 5 ≤ code ∧ code ≤ 10

/-- Element bits of a format. -/
def fmtBits (code : Nat) : Nat :=
  match code with
  | 0 | 13 => 32 | 1 | 2 => 16 | 7 | 8 => 6 | 9 | 12 => 4 | _ => 8

/-- Whether a format has infinities. -/
def fmtHasInf (code : Nat) : Bool := [0, 1, 2, 4, 6].contains code

/-- E for an input format and a chunk size code 0 to 3 (Table 8.2). -/
def elemsPerChunk (code size : Nat) : Nat :=
  let bytes := 1024 * 2 ^ size
  if fmtMx code then 32 * (bytes / (1 + 4 * fmtBits code) / 4 * 4) else bytes * 8 / fmtBits code

/-- Payload bytes of E elements in a format (R216, R217). -/
def payloadBytes (code e : Nat) : Nat := (if fmtMx code then e / 32 else 0) + e * fmtBits code / 8

/-! ### Exact values -/

/-- A value: NaN, an infinity, or (−1)^neg × m × 2^e. -/
inductive Val where
  | nan
  | inf (neg : Bool)
  | fin (neg : Bool) (m : Nat) (e : Int)
  deriving DecidableEq, Repr

def Val.zero (neg : Bool) : Val := .fin neg 0 0
def Val.isNan : Val → Bool | .nan => true | _ => false
def Val.isZero : Val → Bool | .fin _ 0 _ => true | _ => false
def Val.neg : Val → Bool | .nan => false | .inf n => n | .fin n _ _ => n

/-- 2^e for a non-negative exponent, else one. -/
def pow2 (e : Int) : Nat := if 0 ≤ e then 2 ^ e.toNat else 1

/-- The value of a floating-point encoding (R213). -/
def decodeFlt (f : Flt) (b : Nat) : Val :=
  let neg := b.testBit (f.eb + f.mb)
  let ex := bits b (f.eb + f.mb - 1) f.mb
  let man := b % 2 ^ f.mb
  if f.spec = .ieee ∧ ex = 2 ^ f.eb - 1 then (if man = 0 then .inf neg else .nan)
  else if f.spec = .e4m3 ∧ ex = 15 ∧ man = 7 then .nan
  else if ex = 0 then .fin neg man (1 - (f.bias : Int) - f.mb)
  else .fin neg (2 ^ f.mb + man) ((ex : Int) - f.bias - f.mb)

/-- The largest finite mantissa and exponent field of a format. -/
def maxField (f : Flt) : Nat :=
  match f.spec with
  | .ieee => (2 ^ f.eb - 1) * 2 ^ f.mb - 1
  | .e4m3 => 126
  | .none => 2 ^ (f.eb + f.mb) - 1

/-- The NaN a format is written with; zero for a format without NaN. -/
def nanBits (f : Flt) : Nat :=
  match f.spec with
  | .ieee => (2 ^ f.eb - 1) * 2 ^ f.mb + 2 ^ (f.mb - 1)
  | .e4m3 => 127
  | .none => 0

/-! ### Rounding (R234 to R236) -/

/-- How to round: to nearest even, or up when the draw is below the fraction. -/
inductive Rnd where
  | rne
  | sr (r : Nat)
  deriving DecidableEq, Repr

/-- The integer to which num/den rounds, and whether it was exact. -/
def roundQuot (r : Rnd) (num den : Nat) : Nat :=
  let q := num / den
  let rem := num % den
  match r with
  | .rne => if den < 2 * rem ∨ (2 * rem = den ∧ q % 2 = 1) then q + 1 else q
  | .sr d => if d < rem * 2 ^ 32 / den then q + 1 else q

/-- ⌊log₂ (num/den)⌋ of a positive quotient. -/
def floorLog2 (num den : Nat) : Int :=
  let g : Int := (Nat.log2 num : Int) - Nat.log2 den
  if 0 ≤ g then (if num < den * pow2 g then g - 1 else g) else (if num * pow2 (-g) < den then g - 1 else g)

/-- What a rounding met. -/
structure RFlags where
  sat   : Bool := false
  flush : Bool := false
  deriving DecidableEq, Repr

/-- Round the positive rational (m/d)·2^e to a floating-point format: the magnitude's field (exponent and mantissa, without the sign), or none for a
magnitude above the largest finite one. -/
def roundMag (f : Flt) (r : Rnd) (m d : Nat) (e : Int) : Option Nat :=
  let num := m * pow2 e
  let den := d * pow2 (-e)
  let emin : Int := 1 - (f.bias : Int)
  let lg := max (floorLog2 num den) emin
  let ulp := lg - f.mb
  let q := roundQuot r (num * pow2 (-ulp)) (den * pow2 ulp)
  let field : Nat := if q < 2 ^ f.mb then q else ((lg + f.bias).toNat) * 2 ^ f.mb + (q - 2 ^ f.mb)
  if maxField f < field then none else some field

/-- A sign bit above a format's field. -/
def withSign (f : Flt) (neg : Bool) (field : Nat) : Nat := field + b2n neg * 2 ^ (f.eb + f.mb)

/-- What an overflow of a sign gives: infinity where the format has one, else the largest finite value. -/
def overflowBits (f : Flt) (neg : Bool) : Nat :=
  withSign f neg (match f.spec with | .ieee => (2 ^ f.eb - 1) * 2 ^ f.mb | _ => maxField f)

/-- Write the value v/d in a floating-point format (R234, R235). -/
def encodeFlt (f : Flt) (r : Rnd) (flushOut : Bool) (v : Val) (d : Nat := 1) : Nat × RFlags :=
  match v with
  | .nan => (nanBits f, {})
  | .inf n => (overflowBits f n, { sat := f.spec ≠ .ieee })
  | .fin n m e =>
    if m = 0 then (withSign f n 0, {})
    else match roundMag f r m d e with
      | none => (overflowBits f n, { sat := true })
      | some field =>
        if field = 0 then (withSign f n 0, { flush := true })
        else if flushOut ∧ field < 2 ^ f.mb then (withSign f n 0, { flush := true })
        else (withSign f n field, {})

/-- The stochastic rounding draw of R236. -/
def srBits (seed gen chunk index : Nat) : Nat :=
  let m (n : Nat) : Nat := n % 2 ^ 64
  let z := m (seed + m (m ((gen * 2 ^ 48) ||| (chunk * 2 ^ 24) ||| index) * 0x9E3779B97F4A7C15))
  let z := m ((z ^^^ (z >>> 30)) * 0xBF58476D1CE4E5B9)
  let z := m ((z ^^^ (z >>> 27)) * 0x94D049BB133111EB)
  (z ^^^ (z >>> 31)) >>> 32

/-! ### FP32 arithmetic -/

def f32 (b : Nat) : Val := decodeFlt fp32 b

/-- The canonical NaN. -/
def nan32 : Nat := 0x7FC00000

/-- A value rounded to FP32 by round-to-nearest-even. -/
def toF32 (v : Val) (d : Nat := 1) : Nat × RFlags := encodeFlt fp32 .rne false v d

/-- The sum of two values, exact; the sign of a zero sum is that of IEEE 754 in round-to-nearest. -/
def Val.add (a b : Val) : Val :=
  match a, b with
  | .nan, _ => .nan
  | _, .nan => .nan
  | .inf x, .inf y => if x = y then .inf x else .nan
  | .inf x, _ => .inf x
  | _, .inf y => .inf y
  | .fin x m e, .fin y n g =>
    if m = 0 ∧ n = 0 then .fin (x && y) 0 0
    else
      let lo := min e g
      let s : Int := (if x then -1 else 1) * (m * pow2 (e - lo) : Nat) + (if y then -1 else 1) * (n * pow2 (g - lo) : Nat)
      .fin (decide (s < 0)) s.natAbs lo

/-- The product of two values, exact; zero times infinity is NaN. -/
def Val.mul (a b : Val) : Val :=
  match a, b with
  | .nan, _ => .nan
  | _, .nan => .nan
  | .inf x, .inf y => .inf (xor x y)
  | .inf x, .fin y n _ => if n = 0 then .nan else .inf (xor x y)
  | .fin x m _, .inf y => if m = 0 then .nan else .inf (xor x y)
  | .fin x m e, .fin y n g => .fin (xor x y) (m * n) (e + g)

/-- Whether a product is invalid: zero times infinity, neither operand a NaN (R233). -/
def mulInvalid (a b : Val) : Bool := ¬ a.isNan ∧ ¬ b.isNan ∧ (Val.mul a b).isNan

/-- Whether a sum is invalid: infinities of opposite signs. -/
def addInvalid (a b : Val) : Bool := ¬ a.isNan ∧ ¬ b.isNan ∧ (Val.add a b).isNan

/-- a < b for values that are not NaN; zeros are equal. -/
def Val.lt (a b : Val) : Bool :=
  match a, b with
  | .nan, _ => false
  | _, .nan => false
  | .inf x, .inf y => x && ¬ y
  | .inf x, _ => x
  | _, .inf y => ¬ y
  | .fin x m e, .fin y n g =>
    let lo := min e g
    (if x then -1 else 1) * ((m * pow2 (e - lo) : Nat) : Int) < (if y then -1 else 1) * ((n * pow2 (g - lo) : Nat) : Int)

/-- The maximum of R229: a NaN is ignored, and +0 is above −0. -/
def maxF32 (a b : Nat) : Nat :=
  let x := f32 a
  let y := f32 b
  if x.isNan then (if y.isNan then nan32 else b)
  else if y.isNan then a
  else if x.isZero ∧ y.isZero then (if x.neg then b else a)
  else if x.lt y then b else a

/-- The minimum of R229. -/
def minF32 (a b : Nat) : Nat :=
  let x := f32 a
  let y := f32 b
  if x.isNan then (if y.isNan then nan32 else b)
  else if y.isNan then a
  else if x.isZero ∧ y.isZero then (if x.neg then a else b)
  else if y.lt x then b else a

/-- An FP32 sum, and whether a finite addition overflowed. -/
def addF32 (a b : Nat) : Nat × Bool :=
  let v := Val.add (f32 a) (f32 b)
  let (r, fl) := toF32 v
  (r, fl.sat)

/-- A signed number of `n` bits. -/
def toSigned (n v : Nat) : Int := if v.testBit (n - 1) then (v : Int) - 2 ^ n else v

/-- A signed number's `n` low bits. -/
def ofSigned (n : Nat) (v : Int) : Nat := (v % 2 ^ n).toNat

/-- Saturate to the range of a two's complement number. -/
def satInt (lo hi v : Int) : Int × Bool := if v < lo then (lo, true) else if hi < v then (hi, true) else (v, false)

def minI32 : Int := -(2 ^ 31)
def maxI32 : Int := 2 ^ 31 - 1

/-! ### Elements of a payload (R211, R214, R215) -/

/-- Cut a number into `k` fields of `w` bits, lowest first. -/
def cutFields (w : Nat) : Nat → Nat → List Nat
  | 0, _ => []
  | k + 1, v => v % 2 ^ w :: cutFields w k (v / 2 ^ w)

/-- Join fields of `w` bits, lowest first. -/
def joinFields (w : Nat) : List Nat → Nat
  | [] => 0
  | x :: t => x % 2 ^ w + 2 ^ w * joinFields w t

/-- The low `n` bytes of a number, least significant first. -/
def leBytesN (n v : Nat) : List Byte := (cutFields 8 n v).map (BitVec.ofNat 8)

/-- The fields of the E elements of a payload, each with its block's scale byte (zero where the format has none). -/
def elemFields (code e : Nat) (p : List Byte) : List (Nat × Nat) :=
  if fmtMx code then
    let scales := p.take (e / 32)
    let fs := cutFields (fmtBits code) e (leNat (p.drop (e / 32)))
    (List.range e).map (fun i => ((scales.getD (i / 32) 0).toNat, nth fs i))
  else (cutFields (fmtBits code) e (leNat p)).map (fun f => (0, f))

/-- The value of a float element with its scale. -/
def decodeElem (code : Nat) (x : Nat × Nat) : Val :=
  if fmtMx code then
    if x.1 = 255 then .nan
    else
      let v : Val := if code = 10 then
          let k := toSigned 8 x.2
          .fin (decide (k < 0)) k.natAbs (-6)
        else decodeFlt (fltOf code) x.2
      match v with
      | .fin n m e => .fin n m (e + x.1 - 127)
      | v => v
  else decodeFlt (fltOf code) x.2

/-- The integer of an element of an integer format. -/
def decodeIntElem (code : Nat) (x : Nat × Nat) : Int := toSigned (fmtBits code) x.2

/-! ### Counters (R239 to R242) -/

/-- The smaller of two locators, by index and then rank. -/
def locMin (a b : Option (Nat × Nat)) : Option (Nat × Nat) :=
  match a, b with
  | none, b => b
  | a, none => a
  | some x, some y => if y.1 < x.1 ∨ (y.1 = x.1 ∧ y.2 < x.2) then some y else some x

def Counters.addInvalid (c : Counters) (idx rank : Nat) : Counters :=
  { c with invalid := sat32 (c.invalid + 1), loc := locMin c.loc (some (idx, rank)) }
def Counters.addFlags (c : Counters) (f : RFlags) : Counters :=
  { c with sat := sat32 (c.sat + b2n f.sat), flush := sat32 (c.flush + b2n f.flush) }
def Counters.join (a b : Counters) : Counters :=
  { sat := sat32 (a.sat + b.sat), flush := sat32 (a.flush + b.flush), invalid := sat32 (a.invalid + b.invalid), loc := locMin a.loc b.loc }

/-! ### Group parameters (Table 8.3) -/

/-- 1.0 in FP32. -/
def one32 : Nat := 0x3F800000

/-- Bytes per element of a slot (Table 8.4). -/
def slotWidth (a : ArithCfg) : Nat :=
  if fmtInt a.input ∨ a.op = 2 ∨ a.op = 3 then 4
  else match a.mode with
    | 0 => if a.input = 2 ∧ a.op ≠ 4 ∧ a.prescale = one32 then 12 else 40
    | 1 => 8
    | _ => 4

/-- Whether a group accumulates in a long accumulator. -/
def isLong (a : ArithCfg) : Bool := slotWidth a = 12 ∨ slotWidth a = 40

/-- The element a slot starts from: zero bits in EXACT and for integers, −0 in the others, and the identity of MAX and MIN. -/
def slotStart (a : ArithCfg) : Nat :=
  if fmtInt a.input then (if a.op = 2 then 2 ^ 31 else if a.op = 3 then 2 ^ 31 - 1 else 0)
  else if a.op = 2 ∨ a.op = 3 then nan32
  else match a.mode with
    | 0 => 0
    | 1 => 0x80000000 + 0x80000000 * 2 ^ 32
    | _ => 0x80000000

/-! ### The long accumulators (R225, R226) -/

/-- Bits, weight of bit 0 and lowest VALUE bit of a long accumulator. -/
def longShape (w : Nat) : Nat × Int × Nat := if w = 12 then (96, -29, 5) else (320, -160, 11)

/-- VALUE of a long accumulator word, in units of the weight of bit 0. -/
def longValue (w acc : Nat) : Int :=
  let (n, _, lo) := longShape w
  toSigned n (acc / 2 ^ lo * 2 ^ lo)

/-- Add an operand to a long accumulator word. -/
def longAdd (w acc : Nat) (v : Val) : Nat :=
  let (n, wt, lo) := longShape w
  let flags := acc % 2 ^ 5
  let seen := match v with | .fin true 0 _ => 0 | _ => 8
  match v with
  | .nan => acc ||| 4 ||| seen
  | .inf false => acc ||| 1 ||| seen
  | .inf true => acc ||| 2 ||| seen
  | .fin ng m e =>
    let mag := m * pow2 (e - wt) / pow2 (wt - e)
    let s : Int := longValue w acc + (if ng then -1 else 1) * (mag : Int)
    let ovf := if s < -(2 ^ (n - 1)) ∨ 2 ^ (n - 1) ≤ s then 16 else 0
    ofSigned n s / 2 ^ lo * 2 ^ lo ||| flags ||| seen ||| ovf

/-! ### Accumulating one element -/

/-- The operand an element brings: the factor's product (R228), NaN and what it counted. -/
def operandOf (a : ArithCfg) (idx rank fi : Nat) (v : Val) (c : Counters) : Val × Counters :=
  let f := f32 fi
  if v.isNan then (.nan, c.addInvalid idx rank)
  else if mulInvalid v f then (.nan, c.addInvalid idx rank)
  else if fi = one32 ∧ a.mode = 0 then (v, c)
  else
    let (b, fl) := toF32 (Val.mul v f)
    (f32 b, match v with | .inf _ => c | _ => c.addFlags fl)

/-- Add a value to an FP32 accumulator (R221, R232): overflow and the meeting of infinities are counted. -/
def floatAdd (idx rank acc : Nat) (v : Val) (c : Counters) : Nat × Counters :=
  let x := f32 acc
  let c := if addInvalid x v then c.addInvalid idx rank else c
  let (r, fl) := toF32 (Val.add x v)
  let both := match x, v with | .fin .., .fin .. => true | _, _ => false
  (r, if both && fl.sat then { c with sat := sat32 (c.sat + 1) } else c)

/-- The FP32 operand of MAX and MIN (R229): MX elements are decoded to FP32, which alone counts; the factor's product follows. -/
def cmpOperand (a : ArithCfg) (fi : Nat) (v : Val) (c : Counters) : Nat × Counters :=
  let (b, fl) := toF32 v
  let c := if fmtMx a.input then (match v with | .fin .. => { c with sat := sat32 (c.sat + b2n fl.sat) } | _ => c) else c
  if fi = one32 then (b, c) else ((toF32 (Val.mul (f32 b) (f32 fi))).1, c)

/-- Add an integer to an INT32 accumulator (R222). -/
def intAdd (acc : Nat) (k : Int) (c : Counters) : Nat × Counters :=
  let (v, s) := satInt minI32 maxI32 (toSigned 32 acc + k)
  (ofSigned 32 v, { c with sat := sat32 (c.sat + b2n s) })

/-- One element of a contribution into one accumulator element, in EXACT and FAST mode and for MAX and MIN. `partial_` marks a PARTIAL contribution, whose
NaN elements are not counted again (R241). -/
def accumulate (a : ArithCfg) (partial_ : Bool) (idx rank fi acc : Nat) (x : Nat × Nat) (c : Counters) : Nat × Counters :=
  if fmtInt a.input then
    let k := decodeIntElem a.input x
    if a.op = 2 then (ofSigned 32 (max (toSigned 32 acc) k), c)
    else if a.op = 3 then (ofSigned 32 (min (toSigned 32 acc) k), c)
    else intAdd acc k c
  else
    let v := decodeElem a.input x
    if a.op = 2 ∨ a.op = 3 then
      let (b, c) := cmpOperand a fi v c
      ((if a.op = 2 then maxF32 else minF32) acc b, c)
    else
      let (o, c') := operandOf a idx rank fi v c
      let c' := if partial_ && v.isNan then c else c'
      if a.mode = 0 then (longAdd (slotWidth a) acc o, c') else floatAdd idx rank acc o c'

/-! ### Finishing one element (R230 to R238) -/

/-- The result of an accumulator element before output conversion: a value over a divisor, and an invalid occurrence. -/
def finishLong (w acc : Nat) (mean : Bool) (counted : Nat) : Val × Nat × Bool :=
  let (_, wt, _) := longShape w
  let v := longValue w acc
  if acc.testBit 2 then (.nan, 1, false)
  else if acc.testBit 0 ∧ acc.testBit 1 then (.nan, 1, true)
  else if acc.testBit 0 then (.inf false, 1, false)
  else if acc.testBit 1 then (.inf true, 1, false)
  else if acc.testBit 4 then (.nan, 1, true)
  else if v = 0 then (.zero (decide (¬ acc.testBit 3 ∧ counted ≠ 0)), 1, false)
  else (.fin (decide (v < 0)) v.natAbs wt, if mean then counted else 1, false)

/-- The largest finite value of an MX format without infinity (Table 8.1). -/
def mxLargest (code : Nat) (neg : Bool) : Val :=
  if code = 10 then .fin neg 127 121
  else match decodeFlt (fltOf code) (maxField (fltOf code)) with
    | .fin _ m e => .fin neg m (e + 127)
    | v => v

/-- The value of Table 8.7 for a float group with an output format. -/
def identityVal (op output : Nat) : Val :=
  let top (n : Bool) : Val := if fmtMx output ∧ ¬ fmtHasInf output then mxLargest output n else .inf n
  match op with | 2 => top true | 3 => top false | _ => .zero false

/-- The value and divisor of a finished float element. -/
def finishVal (a : ArithCfg) (counted acc : Nat) : Val × Nat × Bool :=
  if counted = 0 then (identityVal a.op a.output, 1, false)
  else if a.op = 2 ∨ a.op = 3 then (f32 acc, 1, false)
  else if a.mode = 0 then finishLong (slotWidth a) acc (a.op = 1) counted
  else (f32 (acc % 2 ^ 32), if a.op = 1 then counted else 1, false)

/-- The integer result of an element, with its rounding by COUNTED (R228, R238). -/
def finishInt (a : ArithCfg) (r : Rnd) (counted acc : Nat) : Int × RFlags :=
  let lim : Int := if a.output = 13 then 2 ^ 31 else if a.output = 12 then 8 else 128
  if counted = 0 then
    let v : Int := if a.op = 2 then minI32 else if a.op = 3 then maxI32 else 0
    ((satInt (-lim) (lim - 1) v).1, {})
  else
    let s := toSigned 32 (acc % 2 ^ 32)
    let mag := if a.op = 1 then roundQuot r s.natAbs counted else s.natAbs
    let v : Int := if s < 0 then -(mag : Int) else mag
    let (v, sat) := satInt (-lim) (lim - 1) v
    (v, { sat := sat, flush := decide (s ≠ 0 ∧ mag = 0) })

/-- EMAX of the MX formats (R237). -/
def mxEmax (code : Nat) : Int := match code with | 5 => 8 | 6 => 15 | 7 => 4 | 8 => 2 | 9 => 2 | _ => 0

/-- The block exponent of a block of results, each a value over a divisor. -/
def mxExponent (code : Nat) (vs : List (Val × Nat)) : Int :=
  let lg := vs.filterMap (fun v => match v.1 with
    | .fin _ m e => if m = 0 then none else some (floorLog2 (m * pow2 e) (v.2 * pow2 (-e)))
    | _ => none)
  match lg with
  | [] => -127
  | x :: t => max (-127) (min 127 (t.foldl max x - mxEmax code))

/-- One element of an MX block at exponent e. -/
def mxElem (code : Nat) (r : Rnd) (flushOut : Bool) (e : Int) (v : Val) (d : Nat) : Nat × RFlags :=
  if code = 10 then
    match v with
    | .nan => (0, {})
    | .inf n => (if n then 129 else 127, { sat := true })
    | .fin n m g =>
      let x := g + 6 - e
      let q := roundQuot r (m * pow2 x) (d * pow2 (-x))
      let (k, s) := satInt (-127) 127 (if n then -(q : Int) else q)
      (ofSigned 8 k, { sat := s, flush := decide (m ≠ 0 ∧ q = 0) })
  else
    let v' : Val := match v with | .fin n m g => .fin n m (g - e) | v => v
    encodeFlt (fltOf code) r flushOut v' d

/-- The finished elements of a chunk, each a value, a divisor and whether it met an invalid occurrence at its finish. -/
abbrev Finished := List (Val × Nat × Bool)

/-- Invalid occurrences at the finish, with the smallest counted rank. -/
def countFinish (rank : Nat) (fs : Finished) (c : Counters) : Counters :=
  ((List.range fs.length).zip fs).foldl (fun (c : Counters) (x : Nat × Val × Nat × Bool) => if x.2.2.2 then c.addInvalid x.1 rank else c) c

/-- One MX block: its scale and fields. -/
def mxBlock (code : Nat) (rnd : Nat → Rnd) (flushOut : Bool) (rank base : Nat) (b : Finished) (c : Counters) : Nat × List Nat × Counters :=
  if b.any (fun x => x.1.isNan) then
    let c := ((List.range b.length).zip b).foldl (fun (c : Counters) (x : Nat × Val × Nat × Bool) =>
      if x.2.1.isNan then c else c.addInvalid (base + x.1) rank) c
    (255, b.map (fun _ => 0), c)
  else
    let e := mxExponent code (b.map (fun x => (x.1, x.2.1)))
    let outs := ((List.range b.length).zip b).map (fun (x : Nat × Val × Nat × Bool) => mxElem code (rnd (base + x.1)) flushOut e x.2.1 x.2.2.1)
    ((e + 127).toNat, outs.map (·.1), outs.foldl (fun c o => c.addFlags o.2) c)

/-- Write float results in the output format: the payload and the counters (R234 to R237). `free` marks an identity value, whose conversion counts
nothing (R231). -/
def encodeFloats (code : Nat) (rnd : Nat → Rnd) (flushOut free : Bool) (rank : Nat) (fs : Finished) (c : Counters) : List Byte × Counters :=
  if fmtMx code then
    let blocks := (List.range (fs.length / 32)).map (fun b => (fs.drop (32 * b)).take 32)
    let out := ((List.range blocks.length).zip blocks).foldl
      (fun (acc : List Nat × List Nat × Counters) (x : Nat × Finished) =>
        let (s, es, c) := mxBlock code rnd flushOut rank (32 * x.1) x.2 acc.2.2
        (acc.1 ++ [s], acc.2.1 ++ es, c)) ([], [], c)
    (out.1.map (BitVec.ofNat 8) ++ leBytesN (fs.length * fmtBits code / 8) (joinFields (fmtBits code) out.2.1), if free then c else out.2.2)
  else
    let outs := ((List.range fs.length).zip fs).map (fun (x : Nat × Val × Nat × Bool) => encodeFlt (fltOf code) (rnd x.1) flushOut x.2.1 x.2.2.1)
    (leBytesN (fs.length * fmtBits code / 8) (joinFields (fmtBits code) (outs.map (·.1))), if free then c else outs.foldl (fun c o => c.addFlags o.2) c)

/-- Write integer results. -/
def encodeInts (a : ArithCfg) (rnd : Nat → Rnd) (counted : Nat) (accs : List Nat) (c : Counters) : List Byte × Counters :=
  let outs := ((List.range accs.length).zip accs).map (fun (x : Nat × Nat) => finishInt a (rnd x.1) counted x.2)
  let w := fmtBits a.output
  (leBytesN (accs.length * w / 8) (joinFields w (outs.map (fun o => ofSigned w o.1))), outs.foldl (fun c o => c.addFlags o.2) c)

/-- The result payload of a chunk and its final counters. `accs` are the accumulator elements (in ORDERED mode the chunk accumulator alone), `rank` the
smallest counted rank. -/
def finishChunk (a : ArithCfg) (gen chunk counted rank : Nat) (accs : List Nat) (c : Counters) : List Byte × Counters :=
  let rnd (i : Nat) : Rnd := if a.sr then .sr (srBits a.seed gen chunk i) else .rne
  if fmtInt a.input then encodeInts a rnd counted accs c
  else
    let fs : Finished := accs.map (fun x => finishVal a counted x)
    let c := countFinish rank fs c
    encodeFloats a.output rnd a.flushOut (counted = 0) rank fs c

end Sys2Proof.Machine
end

