-- ==== Sys2Proof/Machine/GroupOps.lean ====
section
/-!
DEFINITION. Groups: contributor lists, owners, homes and roles, adding a contribution, finishing chunks and generations, results, losses and the
needs of the rollback tier (R245 to R306).
-/

namespace Sys2Proof.Machine
open Sys2Proof

/-! ### Contexts -/

def Hw.grp? (h : Hw) (g : Nat) : Option Group := tget? h.groups g
def Hw.modGrp (h : Hw) (g : Nat) (f : Group → Group) : Hw :=
  match tget? h.groups g with
  | some x => { h with groups := tput h.groups g (f x) }
  | none => h

/-- Add to a counter of a group (Table 9.11). -/
def Hw.countG (h : Hw) (g i : Nat) (n : Nat := 1) : Hw :=
  h.modGrp g (fun x => { x with counters := tmod 0 x.counters i (fun v => sat32 (v + n)) })

def Hw.job (h : Hw) (j : Nat) : JobSt := tget {} h.jobs j
def Hw.modJob (h : Hw) (j : Nat) (f : JobSt → JobSt) : Hw := { h with jobs := tmod {} h.jobs j f }
def Hw.modProgs (h : Hw) (f : Progs → Progs) : Hw := { h with progs := f h.progs }
def Hw.modMem (h : Hw) (f : Mem → Mem) : Hw := { h with mem := f h.mem }
def Hw.att? (h : Hw) (a : Nat) : Option Att := tget? h.progs.atts a
def Hw.modAtt (h : Hw) (a : Nat) (f : Att → Att) : Hw :=
  match tget? h.progs.atts a with
  | some x => h.modProgs (fun p => { p with atts := tput p.atts a (f x) })
  | none => h

def GState.code (s : GState) : Nat :=
  match s with | .idle => 0 | .active => 1 | .suspended => 2 | .draining => 3 | .closed => 4

/-- Elements in a chunk, and the payload length of a contribution (Table 8.2). -/
def GroupCfg.elems (c : GroupCfg) : Nat := elemsPerChunk c.arith.input c.size
def GroupCfg.inBytes (c : GroupCfg) : Nat := payloadBytes c.arith.input c.elems
def GroupCfg.custom (c : GroupCfg) : Bool := c.arith.op = 5 ∧ ¬ c.gather

/-- Core rate r of Table 1.7. -/
def coreRate (a : ArithCfg) : Nat :=
  let narrow := fmtBits a.input < 8
  if fmtInt a.input ∨ a.mode ≠ 0 then (if narrow then 32 else 16) else if narrow then 8 else 4

def memberOf (x : GroupCfg) (i : Nat) : Member := x.members.getD i { rank := 0 }

/-! ### Contributor lists and owners (R249, R250) -/

def entriesWhere (c : GroupCfg) (p : Member → Bool) : List Nat := (List.range c.members.length).filter (fun i => p (memberOf c i))

/-- The contributor list of a generation admitted now. -/
def Group.listNow (x : Group) : List Nat :=
  (entriesWhere x.cfg (fun m => if x.cfg.gather then m.owner else m.contrib)).filter (fun i => x.mask.getD i false)

def GroupCfg.owners (c : GroupCfg) : List Nat := entriesWhere c (·.owner)

/-- The factor of a member entry (R228, R293). -/
def factorOf (c : GroupCfg) (i : Nat) : Nat :=
  let m := memberOf c i
  if m.part ∨ fmtInt c.arith.input then one32
  else if c.arith.op = 4 then (toF32 (Val.mul (f32 m.weight) (f32 c.arith.prescale))).1
  else c.arith.prescale

/-! ### Ring roles (R292, R295 to R297) -/

/-- The ring axes of a plan, ascending. -/
def RingPlan.rings (p : RingPlan) : List Nat := (List.range p.axes.length).filter (fun a => (p.axes.getD a { ring := false, length := 1, pos := 0, up := 0, down := 0, downGrp := 0 }).ring)
def RingPlan.axis (p : RingPlan) (a : Nat) : Axis := p.axes.getD a { ring := false, length := 1, pos := 0, up := 0, down := 0, downGrp := 0 }

/-- The positions of a member index along the ring axes (R292). -/
def positionsOf : List Nat → Nat → List Nat
  | [], _ => []
  | r :: rest, n => n % r :: positionsOf rest (n / r)

/-- The member index of positions. -/
def indexOf : List (Nat × Nat) → Nat
  | [] => 0
  | (r, p) :: rest => p + r * indexOf rest

def RingPlan.lengths (p : RingPlan) : List Nat := p.rings.map (fun a => (p.axis a).length)
def RingPlan.here (p : RingPlan) : List Nat := p.rings.map (fun a => (p.axis a).pos)
def RingPlan.members (p : RingPlan) : Nat := p.lengths.foldl (· * ·) 1
def RingPlan.index (p : RingPlan) : Nat := indexOf (p.lengths.zip p.here)

/-- The positions of a chunk's target member, in order of the ring axes. -/
def RingPlan.target (p : RingPlan) (shard k : Nat) : List Nat := positionsOf p.lengths (k / shard / p.owners)

/-- j of R296: the first ring axis, counted from zero, on which this member differs from the target; the number of ring axes at the target. -/
def RingPlan.role (p : RingPlan) (shard k : Nat) : Nat :=
  let t := p.target shard k
  ((List.range p.rings.length).find? (fun i => nth p.here i ≠ nth t i)).getD p.rings.length

def partEntry (c : GroupCfg) (axis : Nat) : Option Nat := (entriesWhere c (fun m => decide (m.part ∧ m.rank = axis))).head?

/-- The owner entry of a chunk (R250, R295). -/
def Group.ownerOf (x : Group) (k : Nat) : Option Nat :=
  let j := k / x.cfg.shard
  x.cfg.owners[match x.plan with | some p => j % p.owners | none => j]?

/-- Whether this context is the target of a chunk: always, without a ring plan. -/
def Group.isTarget (x : Group) (k : Nat) : Bool :=
  match x.plan with
  | some p => p.role x.cfg.shard k = p.rings.length
  | none => true

/-- The ring axes whose partial a chunk awaits (R296, R297). -/
def Group.awaitedAxes (x : Group) (k : Nat) : List Nat :=
  match x.plan with
  | none => []
  | some p =>
    let t := p.target x.cfg.shard k
    let j := p.role x.cfg.shard k
    let m := p.rings.length
    if x.cfg.gather then (if j < m then [nth p.rings j] else [])
    else ((List.range m).filter (fun i => i ≤ j ∧ nth p.here i ≠ (nth t i + 1) % nth p.lengths i)).map (nth p.rings)

/-- The member entries a chunk awaits: in a plain group the whole contributor list, or in an all-gather its owner. (DEDUCED, log 76, unsafe.) -/
def Group.awaited (x : Group) (g : Gen) (k : Nat) : List Nat :=
  let parts := (x.awaitedAxes k).filterMap (partEntry x.cfg)
  if x.cfg.gather then
    (if x.isTarget k then ((x.ownerOf k).toList.filter (fun i => g.list.contains i)) else []) ++ parts
  else match x.plan with
    | none => g.list
    | some _ => g.list.filter (fun i => ¬ (memberOf x.cfg i).part) ++ parts

/-- RING_STEP that a partial on a ring axis must carry (R302). -/
def Group.stepOf (x : Group) (k axis : Nat) : Nat :=
  match x.plan with
  | none => 0
  | some p =>
    let i := p.rings.idxOf axis
    let r := nth p.lengths i
    let d := (nth p.here i + r - nth (p.target x.cfg.shard k) i) % r
    if x.cfg.gather then d else (d + r - 1) % r

/-- Whether a partial on an axis uses half b of its reserve (R306). -/
def Group.halfB (x : Group) (k axis : Nat) : Bool :=
  match x.plan with
  | none => false
  | some p =>
    let i := p.rings.idxOf axis
    let t := nth (p.target x.cfg.shard k) i
    nth p.here i < (if x.cfg.gather then t else (t + 1) % nth p.lengths i)

/-! ### Homes and banks (R253, R257) -/

/-- The addresses a generation admitted now may use as homes. -/
def Hw.homeList (h : Hw) (c : GroupCfg) : List Nat :=
  natsWhere 128 (fun n => (c.homeMask = 0 ∨ c.homeMask.testBit n) && ¬ h.mesh.unmapped.contains n)

/-- The home address of chunk k. -/
def homeOf (g : Nat) (homes : List Nat) (k : Nat) : Nat :=
  let c := crc32 (natBytes 2 g ++ [0] ++ natBytes 3 k)
  nth homes (c / 65536 * homes.length / 65536)

/-- Place j of a chunk in its block at its home (R257). -/
def blockPlace (g : Nat) (homes : List Nat) (perTick k : Nat) : Nat :=
  let b := k / perTick
  ((List.range (k - b * perTick)).filter (fun i => homeOf g homes (b * perTick + i) = homeOf g homes k)).length

/-- M(g,c) for every home address: the largest number of chunks of one block homed there. -/
def mTable (g : Nat) (homes : List Nat) (chunks perTick : Nat) : Tbl Nat :=
  let counts := (List.range chunks).foldl (fun t k => tmod 0 t (k / perTick * 128 + homeOf g homes k) (· + 1)) ([] : Tbl Nat)
  counts.foldl (fun t e => tmod 0 t (e.1 % 128) (fun v => max v e.2)) []

/-- Whether the bank of a chunk holds no unfinished chunk of an earlier block (R263). -/
def Group.bankFree (x : Group) (g : Nat) (n : Gen) (k : Nat) : Bool :=
  let d := x.cfg.depth
  let p := x.cfg.perTick
  n.open_.all (fun e => k / p ≤ e.1 / p ∨ e.2.addr ≠ homeOf g n.homes k ∨ e.1 / p % d ≠ k / p % d)

/-- Whether the bank slot of a chunk is free: no open chunk of another block holds it. -/
def Group.slotFree (x : Group) (g : Nat) (n : Gen) (k : Nat) : Bool :=
  let d := x.cfg.depth
  let p := x.cfg.perTick
  let a := homeOf g n.homes k
  n.open_.all (fun e => e.1 = k ∨ e.2.addr ≠ a ∨ e.1 / p % d ≠ k / p % d
    ∨ blockPlace g n.homes p e.1 ≠ blockPlace g n.homes p k)

/-- LOCAL_INDEX of a chunk (Table 11.4). -/
def localIndex (g : Nat) (x : Group) (n : Gen) (k : Nat) : Nat :=
  k / x.cfg.perTick * tget 0 (mTable g n.homes x.cfg.chunks x.cfg.perTick) (homeOf g n.homes k) + blockPlace g n.homes x.cfg.perTick k

/-! ### Generations of a group -/

def Group.gen? (x : Group) (no : Nat) : Option Gen := x.gens.find? (·.no = no)
def Group.modGen (x : Group) (no : Nat) (f : Gen → Gen) : Group := { x with gens := x.gens.map (fun n => if n.no = no then f n else n) }
def Hw.modGen (h : Hw) (g no : Nat) (f : Gen → Gen) : Hw := h.modGrp g (fun x => x.modGen no f)
def Hw.modChunk (h : Hw) (g no k : Nat) (f : Chunk → Chunk) : Hw :=
  h.modGen g no (fun n => match tget? n.open_ k with
    | some c => { n with open_ := tput n.open_ k (f c) }
    | none => n)

/-- The image of a CUSTOM generation's attachment, and the slot's bytes per element (R223, R338). -/
def Hw.reduceImage (h : Hw) (n : Gen) : Option Image := (n.reduce.bind h.att?).map (·.image)
def Hw.slotBytes (h : Hw) (x : Group) (n : Gen) : Nat :=
  if x.cfg.custom then (h.reduceImage n).elim 0 (·.slotWidth) else slotWidth x.cfg.arith

/-- Whether a chunk's contributions combine along the tree of R220. -/
def GroupCfg.ordered (c : GroupCfg) : Bool := c.arith.mode = 1 ∧ c.arith.op ≠ 2 ∧ c.arith.op ≠ 3 ∧ c.arith.op ≠ 5

/-- The accumulator element a slot starts from: in ORDERED mode the chunk accumulator and the partial alike. -/
def GroupCfg.start (c : GroupCfg) : Nat := if c.ordered ∧ ¬ fmtInt c.arith.input then 0x80000000 else slotStart c.arith

/-- The entries of a chunk that are still PENDING (R265). -/
def Group.pending (x : Group) (n : Gen) (k : Nat) : List Nat :=
  let c := tget? n.open_ k
  (x.awaited n k).filter (fun i => match c with
    | some c => ¬ c.counted.contains i ∧ ¬ c.lost.contains i
    | none => ¬ n.lost.contains i)

/-! ### Adding a contribution (R220, R221, R265, R241) -/

/-- The elements of a contribution accumulated into a list of accumulator elements. -/
def accumulateAll (a : ArithCfg) (partial_ : Bool) (rank fi : Nat) (accs : List Nat) (xs : List (Nat × Nat)) (c : Counters) : List Nat × Counters :=
  let out := (List.range accs.length).zip (accs.zip xs) |>.foldl
    (fun (acc : List Nat × Counters) (e : Nat × Nat × Nat × Nat) =>
      let (v, c) := accumulate a partial_ e.1 rank fi e.2.1 e.2.2 acc.2
      (v :: acc.1, c)) ([], c)
  (out.1.reverse, out.2)

/-- A run's partial joins the chunk accumulator. -/
def addRun (a : ArithCfg) (rank : Nat) (accs part : List Nat) (c : Counters) : List Nat × Counters :=
  let out := (List.range accs.length).zip (accs.zip part) |>.foldl
    (fun (acc : List Nat × Counters) (e : Nat × Nat × Nat) =>
      let (v, c) := if fmtInt a.input then intAdd e.2.1 (toSigned 32 e.2.2) acc.2 else floatAdd e.1 rank e.2.1 (f32 e.2.2) acc.2
      (v :: acc.1, c)) ([], c)
  (out.1.reverse, out.2)

/-- The counters that the trailer of a PARTIAL contribution brings (R241). -/
def trailerCounters (hdr : List Word) : Counters :=
  let inv := fld hdr 12 31 16
  { sat := fld hdr 11 31 16, flush := fld hdr 11 15 0, invalid := inv, loc := if inv = 0 then none else some (fld hdr 13 31 16, fld hdr 12 15 0) }

/-- One contribution of member entry i goes into a list of accumulator elements. -/
def addInto (c : GroupCfg) (mode i : Nat) (k : Pkt) (accs : List Nat) (ctr : Counters) : List Nat × Counters :=
  let m := memberOf c i
  let a := { c.arith with mode := mode }
  let xs := elemFields a.input c.elems k.payload
  let (accs, ctr) := accumulateAll a m.part (if m.part then k.src else m.rank) (factorOf c i) accs xs ctr
  (accs, if m.part then ctr.join (trailerCounters k.hdr) else ctr)

/-- Where an entry stands in its contributor list: its run is this divided by 16. An all-gather's or ring's PARTIAL entries follow the list. -/
def listPlace (x : Group) (n : Gen) (k i : Nat) : Nat :=
  if n.list.contains i then n.list.idxOf i else n.list.length + (x.awaited n k).idxOf i

/-- The entries of a run of a chunk that are PENDING. -/
def Group.runPending (x : Group) (n : Gen) (k r : Nat) : List Nat := (x.pending n k).filter (fun i => listPlace x n k i / 16 = r)

/-- Runs of a chunk's contributor list. -/
def runCount (x : Group) (n : Gen) (k : Nat) : Nat := cdiv (n.list.length + (x.awaited n k).length) 16

/-- Add the lowest run's partial, and each kept partial that becomes the lowest, while no entry of it is PENDING, or at a finish all of them, the entries still PENDING being
skipped (R220). The pointers given back are those of the kept buffers used up. -/
def advanceRuns (x : Group) (n : Gen) (k : Nat) (finish : Bool) : Nat → Chunk → List Nat → Chunk × List Nat
  | 0, c, freed => (c, freed)
  | fuel + 1, c, freed =>
    let n' := { n with open_ := tput n.open_ k c }
    if runCount x n k ≤ c.run ∨ (finish = false ∧ x.runPending n' k c.run ≠ []) then (c, freed)
    else
      let (accs, ctr) := addRun x.cfg.arith c.partRank c.accs c.part c.ctr
      let starts := List.replicate x.cfg.elems x.cfg.start
      let c := { c with accs := accs, ctr := ctr, part := starts, partRank := 65536, run := c.run + 1 }
      match c.kept.find? (fun (q : Nat × List Nat × List Nat × Nat) => q.1 = c.run) with
      | some (r, ws, ptrs, rank) =>
        advanceRuns x n k finish fuel { c with part := ws, partRank := rank, kept := c.kept.filter (fun (q : Nat × List Nat × List Nat × Nat) => q.1 ≠ r) } (freed ++ ptrs)
      | none => advanceRuns x n k finish fuel c freed

/-- The runs of a chunk that are complete are added, or at a finish every run; a chunk that does not combine in order stays as it is. -/
def Group.settleRuns (x : Group) (n : Gen) (k : Nat) (finish : Bool) (c : Chunk) : Chunk × List Nat :=
  if x.cfg.ordered ∧ ¬ x.cfg.gather then advanceRuns x n k finish (runCount x n k + 1) c [] else (c, [])

/-- The chunk a contribution, or R268 or R283, opens (R265): its slot starts afresh, and entries already LOST are lost in it too, so that a run of theirs is
the lowest no more. -/
def Hw.newChunk (h : Hw) (g : Nat) (x : Group) (n : Gen) (k patience : Nat) (opened : Bool) : Chunk :=
  let a := homeOf g n.homes k
  let e := x.cfg.elems
  let starts := List.replicate (if x.cfg.custom ∨ x.cfg.gather then 0 else e) x.cfg.start
  let c : Chunk :=
    { addr := a, cx := locCx (h.locate h.mesh.injEpoch a), patience := patience, opened := opened,
      lost := (x.awaited n k).filter (fun i => n.lost.contains i), accs := starts, part := if x.cfg.ordered then starts else [],
      slot := List.replicate (if x.cfg.custom then e * h.slotBytes x n else 0) 0 }
  (x.settleRuns n k false c).1

/-- Free the buffers of kept partials at a complex. -/
def Hw.freeKept (h : Hw) (c : Nat) (ptrs : List Nat) : Hw := ptrs.foldl (fun h p => h.dropRef c p homeUnit) h

/-! ### Trailers (Tables 4.4 and 10.3, R99, R301) -/

/-- The CRC-64 of R99 over a bitmap of n contributors. -/
def bitmapDigest (n : Nat) (set : Nat → Bool) : Nat :=
  crc64 ((List.range (cdiv n 8)).map (fun b =>
    BitVec.ofNat 8 ((List.range 8).foldl (fun a j => a + (if 8 * b + j < n ∧ set (8 * b + j) then 2 ^ (7 - j) else 0)) 0)))

/-- The words of a result trailer, packet header words 7 to 14. -/
def trailerWords (short fromEcho : Bool) (counted expected digest : Nat) (c : Counters) (format mode : Nat) : List Word :=
  let s16 (v : Nat) : Nat := min v 65535
  let (idx, rank) := if c.invalid = 0 then (0, 0) else c.loc.getD (0, 0)
  [w32 (b2n short * 2 ^ 31 + b2n fromEcho * 2 ^ 30 + counted), w32 expected, w32 (digest / 2 ^ 32), w32 digest,
   w32 (s16 c.sat * 2 ^ 16 + s16 c.flush), w32 (s16 c.invalid * 2 ^ 16 + rank), w32 (idx * 2 ^ 16), w32 (mode * 2 ^ 8 + format)]

/-- COUNTED, EXPECTED and MEMBER_DIGEST of words 7 to 14 of a header. -/
def trailerCounted (ws : List Word) : Nat := fld ws 0 16 0
def trailerExpected (ws : List Word) : Nat := fld ws 1 16 0
def trailerDigest (ws : List Word) : Nat := wnat ws 2 * 2 ^ 32 + wnat ws 3

/-- What a chunk counts: SHORT, COUNTED, EXPECTED and MEMBER_DIGEST (R249, R301). -/
def Group.tally (x : Group) (n : Gen) (k : Nat) (c : Chunk) : Bool × Nat × Nat × Nat :=
  match x.plan with
  | none =>
    (c.short, (n.list.filter (fun i => c.counted.contains i)).length, n.list.length,
      bitmapDigest n.list.length (fun i => c.counted.contains (nth n.list i)))
  | some p =>
    let ranks := (x.awaited n k).filter (fun i => ¬ (memberOf x.cfg i).part)
    let trs := c.partials.map (·.2)
    let localDigest := bitmapDigest ranks.length (fun i => c.counted.contains (nth ranks i))
    (c.lost.any (fun i => ¬ (memberOf x.cfg i).part) || trs.any (fun t => (wnat t 0).testBit 31) || c.homeless,
     (ranks.filter (fun i => c.counted.contains i)).length + (trs.map trailerCounted).sum,
     ranks.length + (trs.map trailerExpected).sum,
     crc64 (trs.flatMap (fun t => natBytes 8 (trailerDigest t)) ++ natBytes 2 p.anchor ++ natBytes 2 ranks.length ++ natBytes 8 localDigest))

/-- The smallest counted rank of a chunk. -/
def minCounted (x : GroupCfg) (c : Chunk) : Nat :=
  ((c.counted.filter (fun i => ¬ (memberOf x i).part)).map (fun i => (memberOf x i).rank)).foldl min 65535

/-! ### Sending from a home (R271, R272, R298) -/

/-- Store a packet of the part's own in the shared part of a complex and give it its entries; without a buffer it waits in the outbox. -/
def Hw.ownSend (h : Hw) (c : Nat) (o : OwnSend) : Hw :=
  match h.alloc c { pkt := o.base.pkt, cls := 0, owner := homeUnit, epoch := o.base.epoch, staged := o.staged } with
  | none => h.modCx c (fun x => { x with outbox := x.outbox ++ [o] })
  | some (h, ptr) =>
    match o.addr with
    | some l => (h.modBuf c ptr (fun b => { b with owner := 3 })).modCx c (fun x => { x with
        inject := x.inject ++ [{ ptr := some ptr, parts := meshParts (meshUnicast o.base l 0 false) }] })
    | none => h.forward c ptr o.base o.ports o.multi o.line

/-- Packets that waited for a buffer are tried again, in order. -/
def Hw.flushOutbox (h : Hw) (c : Nat) : Hw :=
  let l := (h.cx c).outbox
  l.foldl (fun h o => h.ownSend c o) (h.modCx c (fun x => { x with outbox := [] }))

/-- A unicast packet made at complex c goes out by R121; or the counter of its drop. -/
def Hw.sendUnicast (h : Hw) (c : Nat) (k : Pkt) : Hw × Option Nat :=
  let e := h.mesh.injEpoch
  let k := k.setEpoch e
  match h.route e (300 + c) k with
  | (h, .inl n) => (h, some n)
  | (h, .inr p) => (h.ownSend c { base := meshBase k e (cxRouter c) k.job 511, ports := portMask [p] }, none)

/-- A multicast packet made at complex c goes out by R142; or the counter of its drop. -/
def Hw.sendMulticast (h : Hw) (c : Nat) (k : Pkt) (tree : Bool) : Hw × Option Nat :=
  let e := h.mesh.injEpoch
  let k := k.setEpoch e
  match h.sheafMask e (300 + c) k with
  | (h, .inl n) => (h, some n)
  | (h, .inr (m, line)) =>
    (h.ownSend c { base := meshBase k e (cxRouter c) k.job 511, ports := m, multi := true, line := line && ¬ tree }, none)

/-- The header of a packet of a group: class TC1 (Table 4.1). -/
def groupHdr (ptype : Nat) (mcast : Bool) (len job dst src g gen k sheaf w6 : Nat) (trailer : List Word) : List Word :=
  [w32 (2 ^ 28 + 2 ^ 26 + ptype * 2 ^ 22 + b2n mcast * 2 ^ 16 + len), w32 (job * 2 ^ 20), w32 (dst * 2 ^ 16 + src), w32 (g * 2 ^ 19 + gen % 2 ^ 16), w32 (k * 2 ^ 8), w32 (sheaf * 2 ^ 16), w32 w6]
  ++ trailer

/-- A result that cannot be sent on: OWNER_UNDELIVERED at the group, and SHORT_DELIVERY at a winnowed local owner port (R271). (DEDUCED, log 78, unsafe.) -/
def Hw.undelivered (h : Hw) (g : Nat) (k : Pkt) (cause : Nat) : Hw :=
  let h := h.countG g 7
  match h.rankEntry k.job k.dst with
  | some (s, q) => if cause = 20 ∧ s = h.disc.switchNo ∧ ¬ k.mcast then h.count q 23 else h
  | none => h

def Hw.modEcho (h : Hw) (g : Nat) (f : EchoRegion → EchoRegion) : Hw :=
  h.modMem (fun m => match tget? m.echo g with
    | some r => { m with echo := tput m.echo g (f r) }
    | none => m)

/-- Add to a memory counter (Table 13.13). -/
def Hw.countM (h : Hw) (i : Nat) (n : Nat := 1) : Hw := h.modMem (fun m => { m with counters := tmod 0 m.counters i (fun v => sat32 (v + n)) })

/-- The entries an echo region holds (R384). -/
def EchoRegion.room (r : EchoRegion) (payload : Nat) : Nat := r.mib * 1048576 / (payload + 128)

/-- A delivered all-gather result with COUNTED 1 and SHORT 0 is kept in the group's echo region (R385): an older entry of the chunk goes, and the oldest one when it is full. -/
def Hw.echoKeep (h : Hw) (g gen k : Nat) (p : Pkt) : Hw :=
  match tget? h.mem.echo g, h.grp? g with
  | some r, some x =>
    if ¬ x.cfg.echoKeep ∨ fld p.hdr 7 16 0 ≠ 1 ∨ fld p.hdr 7 31 31 = 1 then h
    else
      let es := r.entries.filter (fun e => e.chunk ≠ k)
      let full := decide (r.room p.len ≤ es.length)
      let es := (if full then es.drop 1 else es) ++ [{ gen := gen, chunk := k, pkt := p }]
      let h := (h.modEcho g (fun r => { r with entries := es })).countM 0
      if full then h.countM 1 else h
  | _, _ => h

/-- Every echo entry of a group is invalidated (R388). -/
def Hw.echoInvalidate (h : Hw) (g : Nat) : Hw :=
  match tget? h.mem.echo g with
  | some r => match r.entries.getLast? with
    | some e => (h.modEcho g (fun r => { r with entries := [], served := [] })).raise 0x0803 [w32 g, w32 e.gen, w32 (e.gen / 2 ^ 32)]
    | none => h
  | none => h

/-! ### The checks of a contribution at ingress (Table 9.2, checks 1 to 6) -/

/-- The member entry a contribution matches (R251, R302): a RANK entry on the port the rank table names, a PARTIAL entry by its upstream anchor. The
axis awaited by the chunk goes first. -/
def Group.entryOf (x : Group) (k : Pkt) : Option Nat :=
  if k.partialBit then
    match x.plan with
    | none => none
    | some p =>
      let axes := p.rings.filter (fun a => (p.axis a).up = k.src)
      ((axes.find? (fun a => (x.awaitedAxes k.chunk).contains a)).or axes.head?).bind (partEntry x.cfg)
  else (entriesWhere x.cfg (fun m => decide (¬ m.part ∧ m.rank = k.src))).head?

/-- The generation of a group whose number has these low bits, within the window (R256). -/
def Group.windowNo (x : Group) (low : Nat) : Option Nat :=
  if x.current % 2 ^ 16 = low then some x.current else if (x.current + 1) % 2 ^ 16 = low then some (x.current + 1) else none

/-- The generation of a group whose number has these low bits, in flight or, while its number is still in the window or a contribution of it is on its way, the last that finished. -/
def Group.genLow (x : Group) (low : Nat) : Option Gen := (x.gens.find? (fun n => n.no % 2 ^ 16 = low)).or (x.last.filter (fun n => n.no % 2 ^ 16 = low))

/-- Checks 1 to 6 of Table 9.2 on a contribution that enters by a port, or is made here: the counter, or none. -/
def Hw.contribFail (h : Hw) (x : Group) (k : Pkt) (port : Option Nat) : Option Nat :=
  let no := x.windowNo k.gen
  let gen := no.bind (fun _ => x.genLow k.gen)
  let flushing := (h.job x.cfg.job).running.isSome
  if x.cfg.job ≠ k.job then some 0
  else if flushing = true ∨ x.state = .closed ∨ (x.state = .draining ∧ (no.bind x.gen?).isNone) then some 1
  else if no.isNone then some 2
  else if x.cfg.chunks ≤ k.chunk then some 3
  else if k.len ≠ x.cfg.inBytes then some 4
  else match x.entryOf k with
    | none => some 5
    | some i =>
      let m := memberOf x.cfg i
      if m.part ≠ k.partialBit then some 5
      else if m.part then none
      else if port ≠ none ∧ tget? x.ports i ≠ port then some 5
      else if ¬ x.mask.getD i false ∧ gen.isNone then some 5
      else if ¬ x.mask.getD i false ∧ (gen.elim true (fun n => ¬ n.list.contains i)) then some 5
      else if (gen.elim false (fun n => ¬ n.list.contains i)) then some 5
      else if ¬ x.cfg.gather ∧ ¬ m.contrib then some 5
      else if x.cfg.gather ∧ (x.ownerOf k.chunk ≠ some i ∨ ¬ x.isTarget k.chunk) then some 5
      else none

/-- The entry that carries a stored contribution from complex c to its chunk's home, or none when its address is unmapped (R281). -/
def Hw.contribEntry (h : Hw) (c ptr : Nat) (b : MeshPkt) (n : Gen) : Option InjEntry :=
  let a := homeOf b.pkt.grp n.homes b.pkt.chunk
  if h.mesh.unmapped.contains a then none
  else some { ptr := some ptr, parts := meshParts (meshUnicast { b with src := cxRouter c, dest := cxRouter c } (h.locate b.epoch a) 0 false) }

/-- A unit drops a stored packet at complex c: its buffer is freed, and an ingress packet's cells. -/
def Hw.dropStored (h : Hw) (c ptr by_ : Nat) : Hw :=
  match h.buf? c ptr with
  | none => h
  | some b =>
    let h := h.dropRef c ptr by_ (if b.ingress < 264 then some b.ingress else none)
    if b.ingress < 264 then h.freeCells b.ingress b.pkt.cls b.pkt.cells else h

/-- Cells of a group's early contributions in the shared part of a complex. -/
def Hw.earlyCells (h : Hw) (x : Group) (c : Nat) : Nat :=
  ((x.early.filter (fun e => e.cx = c ∧ e.shared)).map (fun e => ((h.buf? c e.ptr).elim 0 (·.pkt.cells)))).sum

/-- An early contribution is held (R262): in the shared part below HOLD_LIMIT, its ingress buffer freed and its credits returned; else where it is, with the credits it came by. An ingress buffer
that lies in the shared part already is no longer the port's. -/
def Hw.holdEarly (h : Hw) (g : Nat) (x : Group) (c ptr by_ : Nat) (b : Buf) : Hw :=
  let h := h.countG g 9
  let keep (h : Hw) (ptr : Nat) (shared : Bool) : Hw := h.modGrp g (fun x => { x with early := x.early ++ [{ cx := c, ptr := ptr, unit := by_, shared := shared }] })
  if ¬ b.reserve ∧ 264 ≤ b.ingress then keep h ptr true
  else if x.cfg.hold ≤ h.earlyCells x c then keep h ptr false
  else if ¬ b.reserve then keep ((h.modBuf c ptr (fun b => { b with ingress := 511 })).freeCells b.ingress b.pkt.cls b.pkt.cells) ptr true
  else match h.alloc c { b with reserve := false, owner := by_, ingress := 511 } with
    | none => keep h ptr false
    | some (h, q) => keep (h.dropStored c ptr by_) q true

/-- A contribution stored at complex c by a unit that has passed its checks goes to its home, is held as early, or is dropped as late when its home is unmapped. -/
def Hw.contribOn (h : Hw) (c ptr by_ : Nat) (b : MeshPkt) (buf : Buf) : Hw :=
  let g := b.pkt.grp
  match h.grp? g with
  | none => h.dropStored c ptr by_
  | some x =>
    match (x.windowNo b.pkt.gen).bind (fun _ => x.genLow b.pkt.gen) with
    | none => h.holdEarly g x c ptr by_ buf
    | some n => match h.contribEntry c ptr b n with
      | none => (h.dropStored c ptr by_).countG g 6
      | some e => h.modCx c (fun x => { x with inject := x.inject ++ [e] })

/-- A partial or a program's contribution made at complex c for a context of this W20. -/
def Hw.localContrib (h : Hw) (c : Nat) (k : Pkt) : Hw :=
  let e := h.mesh.injEpoch
  let k := k.setEpoch e
  match h.grp? k.grp with
  | none => h
  | some x => match h.contribFail x k none with
    | some n => h.countG k.grp n
    | none =>
      let base := meshBase k e (cxRouter c) k.job 511
      match h.alloc c { pkt := k, cls := 0, owner := homeUnit, epoch := e } with
      | some (h, ptr) => h.contribOn c ptr homeUnit base { pkt := k, cls := 0, owner := homeUnit, epoch := e }
      | none => match (x.windowNo k.gen).bind (fun _ => x.genLow k.gen) with
        | some n => h.ownSend c { base := base, addr := some (h.locate e (homeOf k.grp n.homes k.chunk)) }
        | none => (h.countG k.grp 6)

/-- Send a CONTRIB packet by Table 5.2: to a context of this W20, else by its rank. -/
def Hw.sendContrib (h : Hw) (g c : Nat) (k : Pkt) : Hw :=
  if (h.grp? k.grp).isSome then h.localContrib c k
  else match h.sendUnicast c k with
    | (h, some n) => h.undelivered g k n
    | (h, none) => h

/-- A partial of a chunk on an axis (Table 10.2). -/
def Hw.sendPartial (h : Hw) (g c : Nat) (x : Group) (p : RingPlan) (gen k axis step : Nat) (payload : List Byte) (trailer : List Word) : Hw :=
  let a := p.axis axis
  let pk := mkPkt (groupHdr 2 false payload.length x.cfg.job a.down p.anchor a.downGrp gen k 0 (2 ^ 31 + step) trailer) payload
  (h.modGrp g (fun x => { x with axes := tmod {} x.axes axis (fun y => { y with sent := sat32 (y.sent + 1) }) })).sendContrib g c pk

/-- What a home sends on from a partial in its staging buffer (R303): the buffer stays the partial's until every injection of what `h` has beside `before` at complex c has ended. -/
def Hw.sentFrom (before h : Hw) (c : Nat) (tag : Option (Nat × Nat × Nat × Bool)) : Hw :=
  let old := before.cx c
  if tag.isNone then h
  else h.modCx c (fun x => { x with
    bufs := x.bufs.map (fun (b : Nat × Buf) => if (tget? old.bufs b.1).isSome then b else (b.1, { b.2 with staged := tag })),
    outbox := x.outbox.take old.outbox.length ++ (x.outbox.drop old.outbox.length).map (fun o => { o with staged := tag }) })

/-! ### Program hooks and the end of invocations -/

/-- A hook event joins the queue of an attachment at a complex (R323), when the image gives the hook (R321). -/
def Hw.queueEvent (h : Hw) (att cx : Nat) (e : HookEvent) : Hw :=
  if (h.att? att).all (fun a => decide (a.image.entries.getD e.hook 0xFFFF = 0xFFFF)) then h
  else
    let e := { e with seq := h.progs.serial, raised := (h.time.tick, h.time.slot) }
    (h.modProgs (fun p => { p with serial := p.serial + 1 })).modAtt att (fun a => { a with events := tmod [] a.events cx (· ++ [e]) })

/-- Whether an attachment's image gives a hook. (DEDUCED, log 86, unsafe.) -/
def Hw.gives (h : Hw) (a hook : Nat) : Bool := (h.att? a).any (fun x => x.image.entries.getD hook 0xFFFF ≠ 0xFFFF)

/-- The attachment whose on_contribution hook takes a contribution of a generation: the REDUCE one of a CUSTOM group, else a RING one that gives it. -/
def Hw.contribAtt (h : Hw) (x : Group) (n : Gen) : Option Nat :=
  if x.cfg.custom then n.reduce else n.ring.filter (fun a => h.gives a 0)

/-- The attachment whose on_chunk_complete hook finishes a chunk: a RING one that gives it, else the REDUCE one of a CUSTOM group. -/
def Hw.chunkAtt (h : Hw) (x : Group) (n : Gen) : Option Nat :=
  (n.ring.filter (fun a => h.gives a 1)).or (if x.cfg.custom then n.reduce else none)

/-- The core that holds an invocation's buffers (R128): that of its first thread. -/
def Inv.unit (v : Inv) : Nat := coreOwner (v.threads.headD 0 / 16 % 9)

/-- End an invocation: its threads become IDLE (R348), and its buffers are freed. -/
def Hw.endInv (h : Hw) (id : Nat) : Hw :=
  match tget? h.progs.invs id with
  | none => h
  | some v =>
    let bound := v.threads.filterMap (fun t => (tget? h.progs.threads t).bind (·.bound))
    let h := h.modProgs (fun p => { p with invs := tdel p.invs id, threads := p.threads.filter (fun t => ¬ (v.threads.contains t.1 ∧ t.2.inv = id)) })
    let h := bound.foldl (fun h b => h.dropStored v.cx b.1 v.unit) h
    let h := match v.ev.ptr with | some q => h.dropStored v.cx q v.unit | none => h
    match v.resPtr with | some q => h.dropStored v.cx q v.unit | none => h

/-- Every queued event and running invocation of an attachment is discarded (R341, R490). -/
def Hw.clearAtt (h : Hw) (a : Nat) : Hw :=
  let ids := (h.progs.invs.filter (fun e => e.2.att = a)).map (·.1)
  let h := ids.foldl Hw.endInv h
  match h.att? a with
  | none => h
  | some x =>
    let h := x.events.foldl (fun h e => e.2.foldl (fun h v => match v.ptr with | some q => h.dropStored e.1 q homeUnit | none => h) h) h
    h.modAtt a (fun x => { x with events := [] })

def Hw.attsOf (h : Hw) (g : Nat) : List Nat := (h.progs.atts.filter (fun e => e.2.grp = g)).map (·.1)

/-! ### Generation records and the end of a generation (R242, R274) -/

/-- The counters of a finished chunk roll up into its generation. -/
def Gen.rollUp (n : Gen) (k : Nat) (c : Counters) : Gen :=
  let better := match n.ctr.loc, c.loc with
    | _, none => false
    | none, some _ => true
    | some a, some b => decide (k < n.locChunk) || (k = n.locChunk && decide (b.1 < a.1 ∨ (b.1 = a.1 ∧ b.2 < a.2)))
  { n with ctr := { sat := sat32 (n.ctr.sat + c.sat), flush := sat32 (n.ctr.flush + c.flush), invalid := sat32 (n.ctr.invalid + c.invalid),
                    loc := if better then c.loc else n.ctr.loc },
           locChunk := if better then k else n.locChunk }

/-- The generation record (Table 9.4), as sixteen words. -/
def Hw.genRecord (h : Hw) (g : Nat) (x : Group) (n : Gen) : List Word :=
  let dropped := n.list.filter (fun i => n.lost.contains i)
  let digest := bitmapDigest n.list.length (fun i => n.lost.contains (nth n.list i))
  let (idx, rank) := n.ctr.loc.getD (0, 0)
  let some_ := n.ctr.invalid ≠ 0
  [w32 (g * 2 ^ 19 + n.status * 2 ^ 12 + x.cfg.job), w32 (n.no / 2 ^ 32), w32 n.no, w32 x.cfg.chunks, w32 n.short, w32 n.restarts, w32 n.list.length, w32 dropped.length, w32 (digest / 2 ^ 32), w32 digest, w32 n.ctr.sat, w32 n.ctr.flush, w32 n.ctr.invalid,
   w32 (if some_ then n.locChunk else 0), w32 (if some_ then rank * 2 ^ 16 + idx else 0), w32 h.time.tick]

/-- A group comes to need a rollback (R487). -/
def Hw.needRollback (h : Hw) (g cause gen : Nat) : Hw :=
  match h.grp? g with
  | none => h
  | some x =>
    let j := x.cfg.job
    let h := h.modGrp g (fun x => { x with rollback := true })
    let h := h.modJob j (fun s => { s with
      needed := true, suspendNow := s.suspendNow || s.suspend,
      again := if s.running.isSome ∧ ¬ s.again.contains g then s.again ++ [g] else s.again })
    h.raise 0x0C01 [w32 (g + cause * 2 ^ 16 + j * 2 ^ 20), w32 gen, w32 (gen / 2 ^ 32)]

/-- Granules and slot descriptors of a generation's pipeline at each home address (R257, R258). -/
def Hw.pipeline (h : Hw) (g : Nat) (x : Group) (n : Gen) : List (Nat × Nat × Nat) :=
  let per := cdiv (x.cfg.elems * h.slotBytes x n) 8192
  (mTable g n.homes x.cfg.chunks x.cfg.perTick).map (fun e => (e.1, x.cfg.depth * e.2 * per, x.cfg.depth * e.2))

/-- A generation leaves the group, whose current one is then the oldest not finished (R254): its record, GENERATION_DONE, the drop limit of R486, and the wipe of its pipeline (R284). -/
def Hw.closeGen (h : Hw) (g : Nat) (n : Gen) : Hw :=
  match h.grp? g with
  | none => h
  | some x =>
    let pipe := h.pipeline g x n
    let wipes := pipe.map (fun e =>
      ({ addr := e.1, granules := e.2.1, descs := e.2.2, stack := tget? n.spilled e.1 } : Wipe))
    let dropped := (n.list.filter (fun i => n.lost.contains i)).length
    let n := { n with status := max n.status (if dropped ≠ 0 ∨ n.short ≠ 0 then 1 else 0) }
    let rec_ := h.genRecord g x n
    let h := h.modGrp g (fun x => { x with
      gens := x.gens.filter (·.no ≠ n.no), current := (((x.gens.filter (·.no ≠ n.no)).map (·.no)).min?).getD x.admitted, last := some { n with open_ := [] },
      wipes := x.wipes ++ wipes,
      records := ((n.no, rec_) :: x.records).take 4 })
    let h := (h.countG g 15).raise 0x0502 [w32 (g + n.status * 2 ^ 16), w32 n.no, w32 (n.no / 2 ^ 32)]
    let lim := (h.job x.cfg.job).maxDrop
    if lim ≠ 0 ∧ n.status < 4 ∧ lim * n.list.length < dropped * 1000 then
      (h.report 0xC01 2 0 5 [w32 g]).needRollback g 7 n.no
    else h

/-- A chunk has finished: it leaves the open ones, and the generation ends with its last chunk. -/
def Hw.chunkDone (h : Hw) (g no k : Nat) (short : Bool) (c : Counters) : Hw :=
  let h := h.modGen g no (fun n => { n.rollUp k c with open_ := tdel n.open_ k, done := k :: n.done, short := n.short + b2n short })
  let h := if short then h.countG g 12 else h
  match (h.grp? g).bind (fun x => (x.gen? no).map (fun n => (x, n))) with
  | some (x, n) => if x.cfg.chunks ≤ n.done.length then h.closeGen g n else h
  | none => h

/-! ### Finishing a chunk (R267, R271, R272, R281, R297, R299) -/

/-- Count core cycles of group work at a complex (R86). -/
def Hw.spendCycles (h : Hw) (c g n : Nat) : Hw := h.modCx c (fun x => { x with cycles := tmod 0 x.cycles g (· + n) })

/-- The result of a reduce-scatter chunk, its payload and final counters ready, leaves complex c: a RESULT to its owner at the target, else a partial. -/
def Hw.sendReduced (h : Hw) (g c : Nat) (x : Group) (n : Gen) (k : Nat) (ch : Chunk) (payload : List Byte) (ctr : Counters) (mode : Nat) : Hw :=
  let (short, counted, expected, digest) := x.tally n k ch
  let toOwner : Hw :=
    let dst := (x.ownerOf k).elim 0 (fun i => (memberOf x.cfg i).rank)
    let tr := trailerWords short false counted expected digest ctr x.cfg.arith.output mode
    let pk := mkPkt (groupHdr 3 false payload.length x.cfg.job dst 0 g n.no k 0 0 tr) payload
    match h.sendUnicast c pk with
    | (h, some cause) => h.undelivered g pk cause
    | (h, none) => h.countG g 11
  match x.plan with
  | none => toOwner
  | some p =>
    let j := p.role x.cfg.shard k
    if j = p.rings.length then toOwner
    else
      let a := nth p.rings j
      let r := nth p.lengths j
      let step := (nth p.here j + r - nth (p.target x.cfg.shard k) j) % r
      h.sendPartial g c x p n.no k a step payload (trailerWords short false counted expected digest ctr x.cfg.arith.input mode)

/-- The result of an all-gather chunk: to the local ranks by RESULT_SHEAF and on to the ring (R272, R297). -/
def Hw.sendGathered (h : Hw) (g c : Nat) (x : Group) (no k : Nat) (payload : List Byte) (trailer : List Word) : Hw :=
  let alive := trailerCounted trailer ≠ 0
  let src := (x.ownerOf k).elim 0 (fun i => (memberOf x.cfg i).rank)
  let pk := mkPkt (groupHdr 3 true payload.length x.cfg.job src src g no k x.cfg.sheaf 0 trailer) payload
  let h := if ¬ alive then h
    else
      let h := match h.sendMulticast c pk false with
        | (h, some cause) => h.undelivered g pk cause
        | (h, none) => h.countG g 11
      h.echoKeep g no k pk
  match x.plan with
  | none => h
  | some p =>
    let t := p.target x.cfg.shard k
    let j := p.role x.cfg.shard k
    let m := p.rings.length
    let out := (List.range m).filterMap (fun i =>
      let r := nth p.lengths i
      if i < j then some (nth p.rings i, 1)
      else if i = j ∧ nth p.here i ≠ (nth t i + r - 1) % r then some (nth p.rings i, (nth p.here i + r - nth t i + 1) % r)
      else none)
    out.foldl (fun h e => h.sendPartial g c x p no k e.1 e.2 payload trailer) h

/-- The arithmetic of a chunk's finish at this member (R299). -/
def Group.finishCfg (x : Group) (k : Nat) : ArithCfg :=
  let a := x.cfg.arith
  match x.plan with
  | none => a
  | some p =>
    let a := { a with seed := (a.seed + p.index * 0xD1B54A32D192ED03) % 2 ^ 64 }
    if x.isTarget k then a else { a with op := if a.op = 1 then 0 else a.op, output := a.input, flushOut := false }

/-- Finish a built-in chunk at complex c: its elements, its result, and its end. (DESIGN CHOICE, log 82, safe.) -/
def Hw.finishBuiltin (h : Hw) (g c : Nat) (x : Group) (n : Gen) (k : Nat) (ch : Chunk) : Hw :=
  if x.cfg.gather then
    let zero := trailerWords true false 0 1 0 {} x.cfg.arith.input 0
    (h.sendGathered g c x n.no k (List.replicate x.cfg.inBytes 0) zero).chunkDone g n.no k true {}
  else
    let (ch, freed) := x.settleRuns n k true ch
    let (short, counted, _, _) := x.tally n k ch
    let a := x.finishCfg k
    let accs := if ch.accs = [] then List.replicate x.cfg.elems x.cfg.start else ch.accs
    let (payload, ctr) := finishChunk a n.no k counted (minCounted x.cfg ch) accs ch.ctr
    let h := (h.freeKept c freed).spendCycles c g (cdiv x.cfg.elems 16 + 256)
    (h.sendReduced g c x n k ch payload ctr a.mode).chunkDone g n.no k short ctr

/-- A chunk finishes (R267): a CUSTOM group, and a RING attachment that gives it, run the on_chunk_complete hook first. `short` marks the end of its patience. -/
def Hw.finish (h : Hw) (g no k : Nat) (short : Bool) : Hw :=
  match (h.grp? g).bind (fun x => (x.gen? no).map (fun n => (x, n))) with
  | none => h
  | some (x, n) =>
    if n.done.contains k then h
    else
      let ch := (tget? n.open_ k).getD (h.newChunk g x n k 0 false)
      if ch.ending then h
      else
        let ch := { ch with short := ch.short || short }
        match h.chunkAtt x n with
        | none => h.finishBuiltin g ch.cx x n k ch
        | some a =>
          let (ch, freed) := x.settleRuns n k true ch
          let h := (h.freeKept ch.cx freed).modGen g no (fun n => { n with open_ := tput n.open_ k { ch with ending := true } })
          h.queueEvent a ch.cx { hook := 1, gen := no, chunk := k, rank := minCounted x.cfg ch }

/-- Whether a chunk may finish now (R267, R304): nothing PENDING, or in a ring only RANK entries whose patience has ended. -/
def Group.mayFinish (x : Group) (n : Gen) (k : Nat) : Bool :=
  let p := x.pending n k
  p = [] || (match x.plan, tget? n.open_ k with
    | some _, some c => c.patience = 0 && c.short && p.all (fun i => ¬ (memberOf x.cfg i).part)
    | _, _ => false)

/-- Finish every unfinished chunk of a generation that may finish. -/
def Hw.finishReady (h : Hw) (g no : Nat) : Hw :=
  match h.grp? g with
  | none => h
  | some x => (List.range x.cfg.chunks).foldl (fun h k =>
      match (h.grp? g).bind (fun x => (x.gen? no).map (fun n => (x, n))) with
      | some (x, n) => if ¬ n.done.contains k ∧ x.mayFinish n k ∧ ¬ (tget? n.open_ k).any (fun c => c.slotLost) then h.finish g no k false else h
      | none => h) h

/-! ### Losing contributors (R275) -/

/-- The runs that a loss has completed are added in every open chunk of a generation (R220). -/
def Hw.settleGen (h : Hw) (g no : Nat) : Hw :=
  match (h.grp? g).bind (fun x => (x.gen? no).map (fun n => (x, n))) with
  | none => h
  | some (x, n) => n.open_.foldl (fun h (e : Nat × Chunk) =>
      let (c, freed) := x.settleRuns n e.1 false e.2
      if c = e.2 then h else (h.freeKept c.cx freed).modChunk g no e.1 (fun _ => c)) h

/-- A member entry is marked LOST in a generation: in every unfinished chunk that lacks it. The on_member_lost hook runs where a chunk is open; it names no
chunk, so its s4 is an open value. (DESIGN CHOICE, log 138, safe.) -/
def Hw.markLost (h : Hw) (g no i : Nat) : Hw :=
  match (h.grp? g).bind (fun x => (x.gen? no).map (fun n => (x, n))) with
  | none => h
  | some (x, n) =>
    if n.lost.contains i ∨ ¬ (n.list.contains i ∨ (memberOf x.cfg i).part) then h
    else
      let h := match n.reduce, n.ring with
        | none, none => h
        | r, q => (r.toList ++ q.toList).foldl (fun h a =>
            ((n.open_.map (fun (e : Nat × Chunk) => e.2.cx)).dedup).foldl (fun h c =>
              if ! h.gives a 3 then h
              else
                let (h, k) := h.draw
                h.queueEvent a c { hook := 3, gen := no, chunk := k % 2 ^ 24, entry := n.list.idxOf i, rank := (memberOf x.cfg i).rank }) h) h
      (h.modGen g no (fun n => { n with
        lost := n.lost ++ [i],
        open_ := n.open_.map (fun (e : Nat × Chunk) => if e.2.counted.contains i ∨ ¬ (x.awaited n e.1).contains i ∨ e.2.lost.contains i then e
          else (e.1, { e.2 with lost := e.2.lost ++ [i] })) })).settleGen g no

/-- Mark an entry LOST in the generations in flight and finish what that completes. -/
def Hw.loseMember (h : Hw) (g i : Nat) : Hw :=
  match h.grp? g with
  | none => h
  | some x => (x.gens.map (·.no)).foldl (fun h no => (h.markLost g no i).finishReady g no) h

/-- An entry's mask bit is cleared (R275): MEMBER_DROPPED, and the group's echo entries are invalid (R388). -/
def Hw.clearMask (h : Hw) (g i : Nat) : Hw :=
  match h.grp? g with
  | none => h
  | some x =>
    if ¬ x.mask.getD i false then h
    else
      let h := h.modGrp g (fun x => { x with mask := x.mask.set i false })
      ((h.countG g 14).raise 0x0503 [w32 (g + i * 2 ^ 16), w32 (memberOf x.cfg i).rank]).echoInvalidate g

/-! ### Ending generations without their results (R283, R305, R341, R490) -/

/-- Contributions of a group that are held at homes or as early ones are freed, each counted GROUP_CLOSED. -/
def Hw.freeHeld (h : Hw) (g : Nat) : Hw :=
  let early := (h.grp? g).elim [] (·.early)
  let h := early.foldl (fun h e => (h.dropStored e.cx e.ptr e.unit).countG g 1) (h.modGrp g (fun x => { x with early := [] }))
  (List.range 144).foldl (fun h c =>
    let mine := (h.cx c).held.filter (fun q => q.mp.pkt.grp = g)
    if mine = [] then h
    else
      let h := h.modCx c (fun x => { x with held := x.held.filter (fun q => q.mp.pkt.grp ≠ g) })
      mine.foldl (fun h q => (match q.ptr with | some p => h.dropStored c p homeUnit | none => h).countG g 1) h) h

/-- Every generation in flight of a group ends with a status; open chunks are discarded and nothing is sent. -/
def Hw.endGens (h : Hw) (g status : Nat) : Hw :=
  match h.grp? g with
  | none => h
  | some x =>
    let h := (h.attsOf g).foldl Hw.clearAtt h
    let h := x.gens.foldl (fun h n =>
      let h := n.open_.foldl (fun h e => h.freeKept e.2.cx (e.2.kept.flatMap (·.2.2.1))) h
      h.closeGen g { n with status := max n.status status }) h
    h.freeHeld g

/-- RING_PARTIAL_LOST acts (R305). -/
def Hw.ringLose (h : Hw) (g axis : Nat) : Hw :=
  match h.grp? g with
  | none => h
  | some x =>
    let gen := x.current
    let h := (h.report 0x601 2 0 5 [w32 g, w32 axis]).endGens g 5
    let h := h.modGrp g (fun x => { x with ringLost := true })
    (h.needRollback g 2 gen).raise 0x0601 [w32 (g + axis * 2 ^ 16), w32 gen, w32 (gen / 2 ^ 32)]

end Sys2Proof.Machine
end

