-- ==== Sys2Proof/Machine/Fit.lean ====
section
/-!
DEFINITION. What a group's schedule asks of complexes and ports in a tick (R84, R85, R309, R338), the pipelines of parison slots and the storage
they take (R257 to R261, R303, R329, R383).
-/

namespace Sys2Proof.Machine
open Sys2Proof

/-- Mesh-clock cycles in a base interval of 6.25 µs at a clock level. -/
def levelCycles (l : Nat) : Nat := match l with | 0 => 10000 | 1 => 7500 | 2 => 5000 | _ => 2500

/-- BUDGET of a complex (R84). -/
def Hw.cycleBudget (h : Hw) (c : Nat) : Nat := 7 * h.time.mult * levelCycles (nth h.power.levels (cxHalf c))

/-! ### Declared cycles (R84, R309, R338) -/

def Image.contribCycles (i : Image) (e : Nat) : Nat := i.contribFixed + cdiv (e * i.contribPer) 256
def Image.chunkCycles (i : Image) (e : Nat) : Nat := i.chunkFixed + cdiv (e * i.chunkPer) 256

/-- The attachments of a role of a group, old ones that still run among them (R337). -/
def Hw.roleAtts (h : Hw) (g : Nat) (ring : Bool) : List Att := (h.progs.atts.map (·.2)).filter (fun a => a.grp = g ∧ a.ring = ring)

/-- The number of ring axes of a context. -/
def Group.ringAxes (x : Group) : Nat := x.plan.elim 0 (·.rings.length)

/-- K of R84 and R309. -/
def Group.factorK (x : Group) : Nat :=
  x.ringAxes + (if x.cfg.gather then 0 else (entriesWhere x.cfg (fun m => m.contrib && ! m.part)).length)

/-- Whether a group counts in the fit check: a CUSTOM group only with a REDUCE attachment (R85). -/
def Hw.countsFit (h : Hw) (g : Nat) (x : Group) : Bool := x.state ≠ .closed && (! x.cfg.custom || h.roleAtts g false ≠ [])

/-- W of a group: core cycles of one of its chunks. -/
def Hw.chunkWork (h : Hw) (g : Nat) (x : Group) : Nat :=
  let e := x.cfg.elems
  if x.cfg.custom then ((h.roleAtts g false).map (fun a => x.factorK * a.image.contribCycles e + a.image.chunkCycles e + 256)).sum
  else x.factorK * cdiv e (coreRate x.cfg.arith) + cdiv e 16 + 256

/-- RING_CYCLES of one slot: those of the RING attachments, else of the built-in ring program. -/
def Hw.ringWork (h : Hw) (g : Nat) (x : Group) : Nat :=
  let rs := h.roleAtts g true
  x.ringAxes * (if rs = [] then 224 else (rs.map (·.image.ringCycles)).sum)

/-- The cycles a group asks of each complex in a tick. -/
def Hw.fitTerms (h : Hw) (g : Nat) (x : Group) : Tbl Nat :=
  let homes := h.homeList x.cfg
  let m := mTable g homes x.cfg.chunks x.cfg.perTick
  let per := h.chunkWork g x + h.ringWork g x
  let ticks := ((h.roleAtts g false ++ h.roleAtts g true).map (·.image.tickCycles)).sum
  homes.foldl (fun t a => tmod 0 t (locCx (h.locate h.mesh.injEpoch a)) (· + tget 0 m a * per + ticks)) []

/-- The ports of a group's members in this W20 (R84): those the rank table names. (DEDUCED, log 84, unsafe.) -/
def Hw.memberPorts (h : Hw) (x : GroupCfg) : List Nat :=
  (x.members.filterMap (fun m => if m.part then none else match h.rankEntry x.job m.rank with
    | some (s, q) => if s = h.disc.switchNo then some q else none
    | none => none)).dedup

/-- A port's data rate in Gb/s (Table 14.2): 200 for each logical lane, 100 in V16-compatible mode. -/
def Hw.dataRate (h : Hw) (p : Nat) : Nat := (if h.isV16 p then 100 else 200) * mapWidth (h.port p).lanes.rxMap

/-- Bytes a port may carry in a tick (R84): 112 of 128 slots at its data rate. A base interval is 6,250 ns. -/
def Hw.portBudget (h : Hw) (p : Nat) : Nat := h.dataRate p * 6250 * h.time.mult * 7 / 64

/-- The group with the largest term, the lowest identifier first (R85). -/
def largestTerm (l : List (Nat × Nat)) : Nat :=
  (l.foldl (fun (b : Option (Nat × Nat)) e => match b with
    | none => some e
    | some m => if m.2 < e.2 then some e else b) none).elim 0 (·.1)

/-- The tick fit (R84, R85): the group that DETAIL names, or none. -/
def Hw.fitFails (h : Hw) : Option Nat :=
  let gs := h.groups.filter (fun e => h.countsFit e.1 e.2)
  let terms := gs.map (fun e => (e.1, h.fitTerms e.1 e.2))
  let atCx (c : Nat) : List (Nat × Nat) := terms.map (fun e => (e.1, tget 0 e.2 c))
  let loads := gs.map (fun e => (e.1, h.memberPorts e.2.cfg, e.2.cfg.perTick * (e.2.cfg.inBytes + 68)))
  let atPort (p : Nat) : List (Nat × Nat) := loads.map (fun e => (e.1, if e.2.1.contains p then e.2.2 else 0))
  match (List.range 144).find? (fun c => h.cycleBudget c < ((atCx c).map (·.2)).sum) with
  | some c => some (largestTerm (atCx c))
  | none => ((List.range 264).find? (fun p => h.portBudget p < ((atPort p).map (·.2)).sum)).map (fun p => largestTerm (atPort p))

/-! ### Parison storage (R257 to R261, R383) -/

/-- A generation as it would be admitted now. -/
def Hw.genNow (h : Hw) (g : Nat) (x : Group) (no : Nat) : Gen :=
  let last (ring : Bool) : Option Nat := ((h.progs.atts.filter (fun e => e.2.grp = g ∧ e.2.ring = ring ∧ e.2.live)).getLast?).map (·.1)
  { no := no, list := x.listNow, homes := h.homeList x.cfg, reduce := if x.cfg.custom then last false else none, ring := if x.plan.isSome then last true else none }

/-- Granules of a stack's spill region (R382). -/
def Hw.spillTotal (h : Hw) (s : Nat) : Nat := (tget {} h.mem.hbms s).spill * 131072

/-- Granules and descriptors a group holds at an address, its wipes included; spilled parts hold none of the parison array. -/
def Hw.heldAt (h : Hw) (g : Nat) (x : Group) : Tbl (Nat × Nat) :=
  let add (t : Tbl (Nat × Nat)) (cx gr de : Nat) : Tbl (Nat × Nat) := tmod (0, 0) t cx (fun v => (v.1 + gr, v.2 + de))
  let t := x.gens.foldl (fun t n => (h.pipeline g x n).foldl (fun t e =>
    if (tget? n.spilled e.1).isSome then t else add t (locCx (h.locate h.mesh.injEpoch e.1)) e.2.1 e.2.2) t) []
  x.wipes.foldl (fun t w => if w.stack.isSome then t else add t (locCx (h.locate h.mesh.injEpoch w.addr)) w.granules w.descs) t

/-- RESERVED granules and used descriptors by complex. -/
def Hw.reservedTable (h : Hw) : Tbl (Nat × Nat) :=
  h.groups.foldl (fun t e => (h.heldAt e.1 e.2).foldl (fun t v => tmod (0, 0) t v.1 (fun w => (w.1 + v.2.1, w.2 + v.2.2))) t) []

/-- RESERVED granules of a stack's spill region. -/
def Hw.spillReserved (h : Hw) (s : Nat) : Nat :=
  (h.groups.map (fun (e : Nat × Group) =>
    (e.2.gens.map (fun n => ((h.pipeline e.1 e.2 n).map (fun v => if tget? n.spilled v.1 = some s then v.2.1 else 0)).sum)).sum
    + (e.2.wipes.map (fun w => if w.stack = some s then w.granules else 0)).sum)).sum

/-- FREE and RESERVED when n granules are reserved. -/
def reserveGranules (n : Nat) (v : Nat × Nat) : Nat × Nat := (v.1 - n, v.2 + n)

/-- FREE and RESERVED when up to n granules that are reserved become free. -/
def freeGranules (n : Nat) (v : Nat × Nat) : Nat × Nat := (v.1 + min n v.2, v.2 - n)

/-- The granule counts of the place that holds a part of a pipeline change: of a stack's spill region, or of the parison array that serves an address (R258). -/
def Hw.modGranules (h : Hw) (addr : Nat) (stack : Option Nat) (f : Nat × Nat → Nat × Nat) : Hw :=
  match stack with
  | some s => h.modMem (fun m => { m with hbms := tmod {} m.hbms s (fun k => { k with granules := f k.granules }) })
  | none => h.modCx (locCx (h.locate h.mesh.injEpoch addr)) (fun x => { x with granules := f x.granules })

/-- A generation's pipeline is reserved (R258). -/
def Hw.reservePipeline (h : Hw) (g : Nat) (x : Group) (n : Gen) : Hw :=
  (h.pipeline g x n).foldl (fun h e =>
    (h.modGranules e.1 (tget? n.spilled e.1) (reserveGranules e.2.1)).modGrp g (fun x => { x with reserved := tmod 0 x.reserved e.1 (· + e.2.1) })) h

/-- The wipes of a group end: what they held is free (R284). -/
def Hw.endWipes (h : Hw) (g : Nat) (x : Group) : Hw :=
  x.wipes.foldl (fun h w =>
    (h.modGranules w.addr w.stack (freeGranules w.granules)).modGrp g (fun x => { x with reserved := tmod 0 x.reserved w.addr (· - w.granules) })) h

/-- What a change of the address map in force does to the counts of the parison arrays: reserved granules lie where their addresses are served. -/
def Hw.moveGranules (before h : Hw) : Hw :=
  let a := before.reservedTable
  let b := h.reservedTable
  ((List.range 144).filter (fun c => (tget (0, 0) a c).1 ≠ (tget (0, 0) b c).1)).foldl (fun h c =>
    h.modCx c (fun x => { x with granules := (768 - (tget (0, 0) b c).1, (tget (0, 0) b c).1) })) h

/-- Whether some pipeline part of a list is one that a package could never hold (R261): beyond a parison array, or with SPILL beyond the TOTAL of the spill regions. -/
def Hw.tooLarge (h : Hw) (spill : Bool) (parts : List (Nat × Nat × Nat)) : Bool :=
  let room := max (h.spillTotal 0) (h.spillTotal 1)
  parts.any (fun e => if spill then decide (room < e.2.1) else decide (768 < e.2.1 ∨ 768 < e.2.2))

/-! ### Staging buffers (R303, R329, Table 10.9) -/

/-- Staging buffers of a complex: 127 in each slice of its staging part. -/
def Hw.stagingTotal (h : Hw) (c : Nat) : Nat := 127 * (16 - (h.cx c).slices)

/-- The staging reserve of a member context at a complex. -/
def Hw.stagingReserve (h : Hw) (g c : Nat) (x : Group) : Nat :=
  let homes := h.homeList x.cfg
  let m := mTable g homes x.cfg.chunks x.cfg.perTick
  x.ringAxes * 2 * x.cfg.depth * ((homes.filter (fun a => locCx (h.locate h.mesh.injEpoch a) = c)).map (tget 0 m)).sum

/-- The ring partials in staging buffers of a complex (R303), by group, axis and half: those held, those that wait for a hook or are in one, and those still being sent on. -/
def Hw.stagedAt (h : Hw) (c : Nat) : List (Nat × Nat × Bool) :=
  let x := h.cx c
  let of (q : HeldC) : Option (Nat × Nat × Bool) := q.half.map (fun f => (q.mp.pkt.grp, f.1, f.2))
  let evs := h.progs.atts.flatMap (fun (e : Nat × Att) => tget [] e.2.events c)
    ++ (h.progs.invs.filter (fun e => e.2.cx = c)).map (fun (e : Nat × Inv) => e.2.ev)
  x.held.filterMap of ++ evs.filterMap (fun v => v.held.bind of)
  ++ ((x.bufs.filterMap (fun (b : Nat × Buf) => b.2.staged) ++ x.outbox.filterMap (·.staged)).dedup).map (fun t => (t.1, t.2.2.1, t.2.2.2))

/-- Buffers granted to state windows at a complex; a window kept from an older attachment is counted once. (DEDUCED, log 88, safe.) -/
def Hw.windowBuffers (h : Hw) (c : Nat) : Nat :=
  (h.progs.atts.map (fun (e : Nat × Att) =>
    if (tget? e.2.windows c).isSome then cdiv e.2.image.stateBytes 8256 else 0)).sum

/-- Staging buffers of a slice of a complex that no state window has. -/
def Hw.sliceRoom (h : Hw) (c s : Nat) : Nat :=
  127 - (h.progs.atts.map (fun (e : Nat × Att) => if tget? e.2.places c = some s then cdiv e.2.image.stateBytes 8256 else 0)).sum

/-- The staging slice that takes a window of n buffers at a complex (R329): the highest with room for it whole. (DESIGN CHOICE, log 128, unsafe.) -/
def Hw.windowSlice (h : Hw) (c n : Nat) : Option Nat :=
  (((List.range 16).reverse).filter (fun s => (h.cx c).slices ≤ s)).find? (fun s => n ≤ h.sliceRoom c s)

/-- The windows of an attachment that have no place yet are given one. -/
def Hw.placeWindows (h : Hw) (id : Nat) : Hw :=
  match tget? h.progs.atts id with
  | none => h
  | some a => (a.windows.map (·.1)).foldl (fun h c =>
      match tget? h.progs.atts id with
      | none => h
      | some a => if (tget? a.places c).isSome then h else match h.windowSlice c (cdiv a.image.stateBytes 8256) with
        | some s => { h with progs := { h.progs with atts := tput h.progs.atts id { a with places := tput a.places c s } } }
        | none => h) h

/-- Whether the staging slices that enter the cell store hold nothing (R30, R147): no window lies in them, and the ring partials held in staging have room in the slices that
stay, of which they fill the highest first, as do the reserves of ring plans. (DESIGN CHOICE, log 128, unsafe.) -/
def Hw.stagingLeaves (h : Hw) (c n : Nat) : Bool :=
  let partials := (h.stagedAt c).length
  let reserves := ((h.groups.filter (fun e => e.2.plan.isSome ∧ e.2.state ≠ .closed)).map (fun e => h.stagingReserve e.1 c e.2)).sum
  h.progs.atts.all (fun (e : Nat × Att) => (tget? e.2.places c).all (fun s => n ≤ s))
  && decide (max partials reserves ≤ (((List.range 16).filter (n ≤ ·)).map (h.sliceRoom c)).sum)

/-- Whether the reserves of ring plans and the windows of attachments fit at every complex (pairs 0x0605 and 0x0703). -/
def Hw.stagingFits (h : Hw) : Bool :=
  let rings := h.groups.filter (fun e => e.2.plan.isSome ∧ e.2.state ≠ .closed)
  h.progs.atts.all (fun (e : Nat × Att) => e.2.windows.all (fun w => (tget? e.2.places w.1).isSome))
  && (List.range 144).all (fun c => (rings.map (fun e => h.stagingReserve e.1 c e.2)).sum + h.windowBuffers c ≤ h.stagingTotal c)

end Sys2Proof.Machine
end

