-- ==== Sys2Proof/Machine/Groups.lean ====
section
/-!
DEFINITION. The group commands (Tables 9.6 to 9.14) and what happens to a group between ticks: a contribution at its home, the end of patience, idle
generations, closing and wipes (R259 to R284).
-/

namespace Sys2Proof.Machine
open Sys2Proof

/-! ### GROUP_CREATE (R287, Table 9.7) -/

/-- A 128-bit or longer field of words, the least significant first. -/
def wordsNat (l : List Word) : Nat := (l.reverse).foldl (fun a w => a * 2 ^ 32 + w.toNat) 0

/-- The parameters of a GROUP_CREATE request; zero depth and prescale mean PATIENCE + 2 and 1.0. -/
def groupCfgOf (p : List Word) : GroupCfg :=
  let patience := fld p 1 23 16
  { image := p, job := fld p 1 11 0, gather := fld p 0 13 13 = 1, prio := fld p 0 18 16, spill := fld p 0 20 20 = 1, echoKeep := fld p 0 21 21 = 1,
    patience := patience, depth := if fld p 2 8 0 = 0 then patience + 2 else fld p 2 8 0,
    arith := { input := fld p 3 7 0, output := fld p 3 15 8, op := fld p 3 18 16, mode := fld p 3 21 20, sr := fld p 3 22 22 = 1,
               flushOut := fld p 3 23 23 = 1, seed := wordsNat ((p.drop 9).take 2), prescale := if wnat p 11 = 0 then one32 else wnat p 11 },
    size := fld p 3 25 24, chunks := fld p 4 23 0, shard := fld p 5 23 0, perTick := fld p 6 15 0, hold := fld p 7 23 0, sheaf := fld p 8 11 0,
    homeMask := wordsNat ((p.drop 12).take 4),
    members := (List.range (fld p 16 8 0)).map (fun i => {
      rank := fld p (17 + 2 * i) 15 0, part := fld p (17 + 2 * i) 16 16 = 1, contrib := fld p (17 + 2 * i) 17 17 = 1,
      owner := fld p (17 + 2 * i) 18 18 = 1, weight := wnat p (18 + 2 * i) }) }

/-- Whether an FP32 word is infinite or NaN. -/
def notFinite (b : Nat) : Bool := bits b 30 23 = 255

/-- The checks of one member entry (R218, R248, R287). -/
def checkMember (c : GroupCfg) (i : Nat) : Option Fail :=
  let m := memberOf c i
  let key (m : Member) : Nat := b2n m.part * 65536 + m.rank
  let at_ := 68 + 8 * i
  firstFail [failIf (0 < i ∧ key m ≤ key (memberOf c (i - 1))) (bad at_), failIf (c.gather ∧ m.contrib) (bad at_),
    failIf (m.weight ≠ 0 ∧ (c.gather ∨ c.arith.op ≠ 4)) (bad (at_ + 4)), failIf (notFinite m.weight) (bad (at_ + 4)),
    failIf (c.arith.op = 4 ∧ notFinite (toF32 (Val.mul (f32 m.weight) (f32 c.arith.prescale))).1) (bad (at_ + 4))]

/-- The checks of a request's fields (R217, R218, R250, R287). -/
def checkGroupFields (p : List Word) : Option Fail :=
  let c := groupCfgOf p
  let a := c.arith
  let raw := wnat p 11
  firstFail ([
    failIf (c.echoKeep ∧ ¬ c.gather) (bad 0),
    failIf (c.job = 0 ∨ c.patience = 0) (bad 4),
    failIf (c.depth < c.patience + 2 ∨ 257 < c.depth) (bad 8),
    failIf (13 < a.input) (bad 12),
    failIf (c.gather ∧ (a.output ≠ 0 ∨ a.op ≠ 0 ∨ a.mode ≠ 0 ∨ a.sr ∨ a.flushOut)) (bad 12),
    failIf (¬ c.gather ∧ (13 < a.output ∨ 5 < a.op ∨ 2 < a.mode ∨ fmtInt a.input ≠ fmtInt a.output ∨ (a.op = 4 ∧ fmtInt a.input)
      ∨ 8192 < payloadBytes a.output c.elems)) (bad 12),
    failIf (c.shard = 0 ∧ c.chunks ≠ 0) (bad 20),
    failIf (c.perTick = 0) (bad 24),
    failIf ((c.sheaf = 0) = c.gather) (bad 32),
    failIf (c.gather ∧ a.seed ≠ 0) (bad 36),
    failIf ((c.gather ∧ raw ≠ 0) ∨ notFinite raw ∨ raw = 0x80000000 ∨ (fmtInt a.input ∧ raw ≠ 0 ∧ raw ≠ one32)) (bad 44),
    failIf (c.members = [] ∨ 256 < c.members.length) (bad 64)]
    ++ (List.range c.members.length).map (checkMember c)
    ++ [failIf (c.members.all (fun m => ! m.part) ∧ c.shard * c.owners.length < c.chunks) (bad 20)])

/-- A context as GROUP_CREATE makes it. -/
def newGroup (p : List Word) : Group :=
  let c := groupCfgOf p
  { cfg := c, mask := List.replicate c.members.length true }

/-- Whether a stack serves spill and echo: not fenced (R38). -/
def Hw.stackOk (h : Hw) (s : Nat) : Bool := ! h.isFenced (unitNo 10 s)

/-- Member table entries that the GROUP_CREATE commands of every staging set will draw from the pool (R248). -/
def Hw.stagedMembers (h : Hw) : Nat :=
  (h.ctl.chans.map (fun (e : Nat × Chan) => ((e.2.staging.filter (fun s => s.opcode = 0x0501)).map (fun s => fld s.words 16 8 0)).sum)).sum

/-- The checks of R287 in their order. -/
def checkGroupCreate (h : Hw) (p : List Word) : Option Fail :=
  let g := fld p 0 12 0
  let x := newGroup p
  let n := h.genNow g x 0
  let h' := { h with groups := tput h.groups g x }
  firstFail [checkGroupFields p, failIf (h.grp? g).isSome (bad 0),
    failIf ((x.cfg.spill ∨ x.cfg.echoKeep) ∧ ¬ h.stackOk 0 ∧ ¬ h.stackOk 1) (some (stAbsent, 0xA000)),
    failIf (262144 < ((h'.groups.map (fun (e : Nat × Group) => e.2.cfg.members.length)).sum) + h.stagedMembers) (some (stNoResource, 2)),
    failIf (h.tooLarge x.cfg.spill (h.pipeline g x n)) (some (stNoResource, if x.cfg.spill then 4 else 3)),
    match h'.fitFails with
    | some w => some (stFit, w)
    | none => none]

/-- The response of GROUP_CREATE. -/
def groupCreateOut (h : Hw) (p : List Word) : List Word :=
  let g := fld p 0 12 0
  let x := newGroup p
  let n := h.genNow g x 0
  let m := ((mTable g n.homes x.cfg.chunks x.cfg.perTick).map (·.2)).foldl max 0
  let parts := h.pipeline g x n
  [w32 (m + (x.cfg.depth * m) * 2 ^ 16), w32 ((parts.map (·.2.1)).sum), w32 n.homes.length]

/-- What GROUP_CREATE checks of its payload, beyond the envelope (R53). -/
def failGroupCreate (_fz : Fuses) (h : Hw) (_ch : Nat) (p : List Word) (_bulk : List Byte) : Option Fail := checkGroupCreate h p

/-- What the response of GROUP_CREATE carries. -/
def outGroupCreate (h : Hw) (_ch : Nat) (p : List Word) : List Word := groupCreateOut h p

/-- GROUP_CREATE (R287). -/
def execGroupCreate (ch : Nat) : State → Out := atUnit ch 16 <| onHw (fun fz h => h.configure ch 0x0501 (failGroupCreate fz h ch) (outGroupCreate h ch))

/-- At E2 the context stands; the records kept of the identifier's last one go (R274). -/
def applyGroupCreate (h : Hw) (p : List Word) : Hw :=
  { h with groups := tput h.groups (fld p 0 12 0) (newGroup p), records := tdel h.records (fld p 0 12 0) }

/-! ### The other commands -/

/-- The group a request names must hold a context (R286). -/
def checkGroup (h : Hw) (p : List Word) : Option Fail := failIf (h.grp? (fld p 0 12 0)).isNone (bad 0)

/-- A context that exists, or that the same staging set creates, which Tables 10.7, 11.11 and 13.9 allow. -/
def Hw.stagedGroup (h : Hw) (ch g : Nat) : Option Group :=
  (h.grp? g).or ((((h.chan ch).staging.filter (fun s => s.opcode = 0x0501 ∧ fld s.words 0 12 0 = g)).getLast?).map (fun s => newGroup s.words))

def maskBit (p : List Word) (i : Nat) : Bool := (fld p (1 + i / 32) 31 0).testBit (i % 32)

/-- What GROUP_MEMBERSHIP_SET checks of its payload, beyond the envelope (R53). -/
def failGroupMembershipSet (_fz : Fuses) (h : Hw) (_ch : Nat) (p : List Word) (_bulk : List Byte) : Option Fail :=
  match h.grp? (fld p 0 12 0) with
  | none => bad 0
  | some x =>
    let n := x.cfg.members.length
    ((List.range 256).find? (fun i => if i < n then (memberOf x.cfg i).owner && ! maskBit p i else maskBit p i)).bind (fun i => bad (4 + 4 * (i / 32)))

/-- GROUP_MEMBERSHIP_SET (Table 9.8): an owner's bit must be one, and bits beyond the member table zero. -/
def execGroupMembershipSet (ch : Nat) : State → Out := atUnit ch 16 <| onHw (fun fz h => h.configure ch 0x0502 (failGroupMembershipSet fz h ch))

/-- At E2 the mask bits that come in are set; those that go wait for E4 (Table 9.5), as do the group's echo entries, which a change of the mask makes invalid (R388). (DEDUCED, log
77, unsafe.) -/
def applyMembership (h : Hw) (p : List Word) : Hw :=
  let g := fld p 0 12 0
  let adds := (h.grp? g).any (fun x => (List.range x.cfg.members.length).any (fun i => ! x.mask.getD i false && maskBit p i))
  h.modGrp g (fun x =>
    let n := x.cfg.members.length
    let gone := (List.range n).filter (fun i => x.mask.getD i false && ! maskBit p i)
    { x with mask := (List.range n).map (fun i => x.mask.getD i false || maskBit p i), removed := gone, grown := x.grown || adds })

/-- ARMED_TOTAL: all ones without limit. -/
def armedTotal (a : Option Nat) : Nat := a.getD (2 ^ 64 - 1)

/-- The armed count after a further GENERATION_COUNT. -/
def armMore (a : Option Nat) (n : Nat) : Option Nat := if n = 2 ^ 32 - 1 then none else a.map (· + n)

/-- What GROUP_ARM checks of its payload, beyond the envelope (R53). -/
def failGroupArm (_fz : Fuses) (h : Hw) (ch : Nat) (p : List Word) (_bulk : List Byte) : Option Fail :=
  let g := fld p 0 12 0
  match h.grp? g with
  | none => bad 0
  | some x => failIf (x.state = .draining ∨ x.state = .closed ∨ (h.chan ch).staging.any (fun s => s.opcode = 0x0506 ∧ fld s.words 0 12 0 = g)) (bad 0)

/-- What the response of GROUP_ARM carries. -/
def outGroupArm (h : Hw) (ch : Nat) (p : List Word) : List Word :=
  let g := fld p 0 12 0
  let before := ((h.chan ch).staging.filter (fun s => s.opcode = 0x0503 ∧ fld s.words 0 12 0 = g)).foldl (fun a s => armMore a (wnat s.words 1))
    ((h.grp? g).elim (some 0) (·.armed))
  le64 (armedTotal (armMore before (wnat p 1)))

/-- GROUP_ARM (R255): refused for a context that is or will be torn down; a count of zero completes at once. -/
def execGroupArm (ch : Nat) : State → Out := atUnit ch 16 <| onHw (fun fz h => h.configure ch 0x0503 (failGroupArm fz h ch) (outGroupArm h ch))

def applyArm (h : Hw) (p : List Word) : Hw := h.modGrp (fld p 0 12 0) (fun x => { x with armed := armMore x.armed (wnat p 1) })

/-- What GROUP_SUSPEND checks of its payload, beyond the envelope (R53). -/
def failGroupSuspend (_fz : Fuses) (h : Hw) (_ch : Nat) (p : List Word) (_bulk : List Byte) : Option Fail := checkGroup h p

/-- GROUP_SUSPEND (R282) takes hold at E5. -/
def execGroupSuspend (ch : Nat) : State → Out := atUnit ch 16 <| onHw (fun fz h => h.configure ch 0x0504 (failGroupSuspend fz h ch))
def applySuspend (h : Hw) (p : List Word) : Hw := h.modGrp (fld p 0 12 0) (fun x => { x with suspendNext := some (some (fld p 0 16 16 = 1)) })

/-- What GROUP_RESUME checks of its payload, beyond the envelope (R53). -/
def failGroupResume (_fz : Fuses) (h : Hw) (_ch : Nat) (p : List Word) (_bulk : List Byte) : Option Fail := checkGroup h p

/-- GROUP_RESUME (R282) takes hold at E5. -/
def execGroupResume (ch : Nat) : State → Out := atUnit ch 16 <| onHw (fun fz h => h.configure ch 0x0505 (failGroupResume fz h ch))
def applyResume (h : Hw) (p : List Word) : Hw := h.modGrp (fld p 0 12 0) (fun x => { x with suspendNext := some none })

/-- What GROUP_TEARDOWN checks of its payload, beyond the envelope (R53). -/
def failGroupTeardown (_fz : Fuses) (h : Hw) (_ch : Nat) (p : List Word) (_bulk : List Byte) : Option Fail := checkGroup h p

/-- GROUP_TEARDOWN (R283). -/
def execGroupTeardown (ch : Nat) : State → Out := atUnit ch 16 <| onHw (fun fz h => h.configure ch 0x0506 (failGroupTeardown fz h ch))

/-- At E2 a drain stops admission and sets unopened chunks to open; an abort waits for E5. The group's echo entries are invalid (R388). -/
def applyTeardown (h : Hw) (p : List Word) : Hw :=
  let g := fld p 0 12 0
  let h := if (h.grp? g).any (fun x => decide (x.state ≠ .closed)) then h.echoInvalidate g else h
  h.modGrp g (fun x =>
    if x.state = .closed then x
    else if fld p 0 16 16 = 1 then { x with tear := some true }
    else { x with
      tear := some (x.tear.getD false), state := .draining, suspendNext := none,
      gens := x.gens.map (fun n => { n with openWith := some x.cfg.patience }) })

/-- Cells of a group's contributions that are held (Table 9.10). -/
def Hw.heldCells (h : Hw) (g : Nat) (x : Group) : Nat :=
  (x.early.map (fun e => (h.buf? e.cx e.ptr).elim 0 (·.pkt.cells))).sum
  + (h.cxs.map (fun (e : Nat × Complex) => ((e.2.held.filter (fun q => q.mp.pkt.grp = g)).map (·.mp.pkt.cells)).sum)).sum

/-- GROUP_STATUS_GET (Table 9.10). -/
def execGroupStatusGet (ch : Nat) : State → Out := atUnit ch 16 <| onHw (fun _ h => h.answer ch 0x0507 (fun p =>
  let g := fld p 0 12 0
  match h.grp? g with
  | none => h.refuse (stInvalid, 0)
  | some x =>
    let n := x.gen? x.current
    let next := (x.gen? (x.current + 1)).isSome
    let w0 := x.state.code + b2n (x.state = .suspended ∧ x.preempt) * 8 + b2n next * 16 + b2n (n.any (fun n => n.spilled ≠ [])) * 32 + b2n x.rollback * 64
    let out := [w32 w0] ++ le64 x.current ++ le64 (armedTotal x.armed) ++ [w32 x.wait, w32 (h.heldCells g x), w32 (n.elim 0 (·.open_.length)),
      w32 (n.elim 0 (·.done.length)), w32 (n.elim 0 (·.list.length))] ++ (List.range 16).map (fun i => w32 (tget 0 x.counters i))
    (h, stOk, 0, out)))

/-- GENERATION_RECORD_READ (Table 9.12): the record is a byte string, first byte at the lowest offset. Records stay until the identifier is created again (R274). -/
def execGenerationRecordRead (ch : Nat) : State → Out := atUnit ch 16 <| onHw (fun _ h => h.answer ch 0x0508 (fun p =>
  match ((h.grp? (fld p 0 12 0)).map (·.records)).or (tget? h.records (fld p 0 12 0)) with
  | none => h.refuse (stInvalid, 0)
  | some l =>
    match l.find? (fun r => r.1 = wnat p 1 + wnat p 2 * 2 ^ 32) with
    | none => h.refuse (stInvalid, 4)
    | some r => (h, stOk, 0, leWords (r.2.flatMap beBytes))))

/-! ### Pairs (Table 9.13) -/

/-- Pair checks of one context against the configuration as a commit leaves it. `epoch` is the injection epoch then in force. (DEDUCED, log 22, unsafe.) -/
def pairGroup (after : Hw) (epoch g : Nat) : Option Nat :=
  match after.grp? g with
  | none => none
  | some x =>
    let c := x.cfg
    if x.state = .closed then none
    else if c.gather ∧ (tget {} after.mesh.sheaves (epoch * 4096 + c.sheaf)).job ≠ c.job then some 0x0501
    else if c.spill ∧ after.spillTotal 0 = 0 ∧ after.spillTotal 1 = 0 then some 0x0502
    else if c.members.any (fun m => ! m.part && (match after.rankEntry c.job m.rank with | some (s, _) => decide (s ≠ after.disc.switchNo) | none => true)) then some 0x0503
    else if c.echoKeep ∧ (tget? after.mem.echo g).isNone then some 0x0504
    else none

/-! ### A contribution at its home (R263 to R266, R279, R302, R303) -/

/-- What the home makes of a contribution: no context, a drop with its counter, a step that does not match, a wait, a slot that lies elsewhere, or
its addition. -/
inductive Verdict where
  | gone | drop (n : Nat) | mismatch | hold | away (cx : Nat) | add
  deriving DecidableEq, Repr

/-- Entries of a chunk whose contributions wait at complex c. -/
def Hw.heldEntries (h : Hw) (c : Nat) (x : Group) (k : Pkt) : List Nat :=
  ((h.cx c).held.filter (fun q => q.mp.pkt.grp = k.grp ∧ q.mp.pkt.gen = k.gen ∧ q.mp.pkt.chunk = k.chunk)).filterMap (fun q => x.entryOf q.mp.pkt)

/-- C4 buffers that a run's partial takes (R220). -/
def keptBuffers (c : GroupCfg) : Nat := cdiv (4 * c.elems) 8192

/-- Whether entry i of a chunk is due in ORDERED mode (R220): every earlier pending entry of its run has been added; or its run comes later and all of
it is here, with buffers for its partial. -/
def Hw.orderedDue (h : Hw) (c : Nat) (x : Group) (n : Gen) (k : Pkt) (i : Nat) : Bool :=
  let at_ := listPlace x n k.chunk i
  let run := (tget? n.open_ k.chunk).elim 0 (·.run)
  let mine := x.runPending n k.chunk (at_ / 16)
  if at_ / 16 ≤ run then mine.all (fun j => at_ ≤ listPlace x n k.chunk j)
  else
    let here := i :: h.heldEntries c x k
    mine.all (fun j => here.contains j) && decide (keptBuffers x.cfg ≤ (h.cx c).free 4 false)

/-- Whether a contribution of an ORDERED group is due for its on_contribution hook (R321): no entry before it in the list is PENDING, those whose invocation has not ended included. -/
def Group.inOrder (x : Group) (n : Gen) (k i : Nat) : Bool := (x.pending n k).all (fun j => decide (listPlace x n k i ≤ listPlace x n k j))

/-- The checks of the home in order (Table 9.2, R264, R302) and whether the chunk can take the contribution now. (DEDUCED, log 74, unsafe; DEDUCED, log 75, unsafe.) -/
def Hw.verdict (h : Hw) (c : Nat) (mp : MeshPkt) : Verdict :=
  let k := mp.pkt
  match h.grp? k.grp with
  | none => .gone
  | some x =>
    if x.state = .closed ∨ (h.job x.cfg.job).running.isSome then .drop 1
    else match x.genLow k.gen with
    | none => .drop 6
    | some n => match x.entryOf k with
      | none => .drop 5
      | some i =>
        let m := memberOf x.cfg i
        let oc := tget? n.open_ k.chunk
        if ¬ m.part ∧ ¬ n.list.contains i then .drop 5
        else if m.part ∧ ¬ ((x.awaitedAxes k.chunk).contains m.rank ∧ fld k.hdr 6 15 0 = x.stepOf k.chunk m.rank) then .mismatch
        else if (x.gen? n.no).isNone ∨ n.done.contains k.chunk ∨ oc.any (·.ending) then .drop 6
        else if (oc.elim n.lost (·.lost)).contains i then .drop 6
        else if oc.any (fun o => o.counted.contains i) then .drop 8
        else
          let at_ := oc.elim (locCx (h.locate h.mesh.injEpoch (homeOf k.grp n.homes k.chunk))) (·.cx)
          if oc.any (fun o => o.slotLost ∨ o.frozen) then .hold
          else if at_ ≠ c then .away at_
          else if (h.cx c).attach ≠ .serving then .hold
          else if oc.isNone ∧ ¬ (x.slotFree k.grp n k.chunk ∧ x.bankFree k.grp n k.chunk) then .hold
          else if x.cfg.ordered ∧ ¬ x.cfg.gather ∧ ¬ (if (h.contribAtt x n).isNone then h.orderedDue c x n k i else x.inOrder n k.chunk i) then .hold
          else .add

/-- The reserve half of a partial that waits: its axis and half, while that has room (R303). (DEDUCED, log 85, unsafe.) -/
def Hw.reserveHalf (h : Hw) (c : Nat) (k : Pkt) : Option (Nat × Bool) :=
  match h.grp? k.grp with
  | none => none
  | some x => match (x.gens.find? (fun n => n.no % 2 ^ 16 = k.gen)), x.entryOf k with
    | some n, some i =>
      let m := memberOf x.cfg i
      if ¬ m.part then none
      else
        let half := (m.rank, x.halfB k.chunk m.rank)
        let used := ((h.stagedAt c).filter (fun t => t = (k.grp, half.1, half.2))).length
        let m := tget 0 (mTable k.grp n.homes x.cfg.chunks x.cfg.perTick) (homeOf k.grp n.homes k.chunk)
        if used < x.cfg.depth * m then some half else none
    | _, _ => none

/-- A partial that has passed R302 has arrived at its home: its axis has been heard when it is of the current generation (R304), and one that takes a buffer of half b counts in
HALF_B_IN (Table 10.8). -/
def Hw.partialIn (h : Hw) (c : Nat) (k : Pkt) (v : Verdict) : Hw :=
  let stored := decide (v = .hold) || decide (v = .add)
  if ¬ k.partialBit ∨ ¬ (stored ∨ v = .drop 6 ∨ v = .drop 8) then h
  else
    let inB := stored && (h.reserveHalf c k).any (·.2)
    h.modGrp k.grp (fun x => match x.entryOf k with
      | some i => { x with axes := tmod {} x.axes (memberOf x.cfg i).rank (fun a =>
          { a with heard := if x.current % 2 ^ 16 = k.gen then 0 else a.heard, halfB := if inB then sat32 (a.halfB + 1) else a.halfB }) }
      | none => x)

/-- A contribution waits at its home: a partial in its reserve half, any other in a shared buffer. (DEDUCED, log 72, unsafe.) -/
def Hw.holdAtHome (h : Hw) (c : Nat) (mp : MeshPkt) : Hw :=
  let k := mp.pkt
  let part := k.partialBit
  match (if part then h.reserveHalf c k else none) with
  | some half => (h.modCx c (fun x => { x with held := x.held ++ [{ mp := mp, half := some half }] }))
  | none => match h.alloc c { pkt := k, cls := 0, owner := homeUnit, epoch := mp.epoch } with
    | none => h
    | some (h, p) =>
      let h := (h.modCx c (fun x => { x with held := x.held ++ [{ mp := mp, ptr := some p }] })).countG k.grp 10
      if part then h.modGrp k.grp (fun x => { x with heldOut := sat32 (x.heldOut + 1) }) else h

/-- What counting a contribution does to its chunk, generation and axis (R265, R302). -/
def Hw.countIn (h : Hw) (x : Group) (n : Gen) (k : Pkt) (i : Nat) (ch : Chunk) : Hw :=
  let m := memberOf x.cfg i
  let ch := { ch with counted := ch.counted ++ [i], partials := if m.part then tput ch.partials m.rank ((k.hdr.drop 7).take 8) else ch.partials }
  let h := h.modGen k.grp n.no (fun n => { n with open_ := tput n.open_ k.chunk ch, received := n.received + 1 })
  if ¬ m.part then h
  else h.modGrp k.grp (fun x => { x with axes := tmod {} x.axes m.rank (fun a => { a with got := sat32 (a.got + 1) }) })

/-- Take n buffers of class C4 at a complex for a run's partial. (DEDUCED, log 81, unsafe.) -/
def Hw.takeKept (h : Hw) (c : Nat) : Nat → List Nat → Hw × List Nat
  | 0, ps => (h, ps)
  | n + 1, ps => match h.alloc c { pkt := { hdr := [w32 8192], payload := [], trailer := 0 }, cls := 4, owner := homeUnit } with
    | some (h', p) => Hw.takeKept h' c n (ps ++ [p])
    | none => (h, ps)

/-- A chunk may finish once its contribution is in (R267). -/
def Hw.finishIfDone (h : Hw) (g no k : Nat) : Hw :=
  match (h.grp? g).bind (fun x => (x.gen? no).map (fun n => (x, n))) with
  | some (x, n) => if ¬ n.done.contains k ∧ x.mayFinish n k then h.finish g no k false else h
  | none => h

/-- The buffer of a contribution that waited at complex c is freed. -/
def Hw.freeHeldAt (h : Hw) (c : Nat) (q : HeldC) : Hw := match q.ptr with | some p => h.dropStored c p homeUnit | none => h

/-- The core cycles of one contribution at its home (R84, R86). -/
def Hw.spendAdd (h : Hw) (c g : Nat) (x : Group) : Hw := h.spendCycles c g (cdiv x.cfg.elems (if x.cfg.gather then 16 else coreRate x.cfg.arith))

/-- Add one contribution in ORDERED mode: into the partial of the lowest run, or with its whole later run into a kept partial. -/
def Hw.addOrdered (h : Hw) (c : Nat) (x : Group) (n : Gen) (k : Pkt) (i : Nat) (ch : Chunk) : Hw :=
  let r := listPlace x n k.chunk i / 16
  let rankOf (i : Nat) (q : Pkt) : Nat := if (memberOf x.cfg i).part then q.src else (memberOf x.cfg i).rank
  if r ≤ ch.run then
    let (part, ctr) := addInto x.cfg 1 i k ch.part ch.ctr
    let ch := { ch with part := part, ctr := ctr, partRank := min ch.partRank (rankOf i k), counted := ch.counted ++ [i] }
    let (ch, freed) := x.settleRuns n k.chunk false ch
    (h.countIn x n k i { ch with counted := ch.counted.filter (· ≠ i) }).freeKept c freed
  else
    let mine := (h.cx c).held.filter (fun q => q.mp.pkt.grp = k.grp ∧ q.mp.pkt.gen = k.gen ∧ q.mp.pkt.chunk = k.chunk
      ∧ (x.entryOf q.mp.pkt).any (fun j => decide (listPlace x n k.chunk j / 16 = r ∧ j ≠ i)))
    let h := h.modCx c (fun y => { y with held := y.held.filter (fun q => ¬ mine.contains q) })
    let h := mine.foldl (fun h q => (h.freeHeldAt c q).spendAdd c k.grp x) h
    let all := ((x.runPending n k.chunk r).mergeSort (fun a b => listPlace x n k.chunk a ≤ listPlace x n k.chunk b)).filterMap (fun j =>
      if j = i then some (j, k) else ((mine.map (·.mp.pkt)).find? (fun q => x.entryOf q = some j)).map (fun q => (j, q)))
    let start : List Nat × Counters × Nat := (List.replicate x.cfg.elems x.cfg.start, ch.ctr, 65536)
    let (ws, ctr, rank) := all.foldl (fun (a : List Nat × Counters × Nat) (e : Nat × Pkt) =>
      let (w, t) := addInto x.cfg 1 e.1 e.2 a.1 a.2.1
      (w, t, min a.2.2 (rankOf e.1 e.2))) start
    let (h, ps) := h.takeKept c (keptBuffers x.cfg) []
    let ch := { ch with kept := ch.kept ++ [(r, ws, ps, rank)], ctr := ctr }
    all.foldl (fun h e => match (h.grp? k.grp).bind (fun x => (x.gen? n.no).map (fun n => (x, n))) with
      | some (x, n') => h.countIn x n' e.2 e.1 ((tget? n'.open_ k.chunk).getD ch)
      | none => h) (h.modGen k.grp n.no (fun n => { n with open_ := tput n.open_ k.chunk ch }))

/-- What names the staging buffer of a partial of a generation, while what is made of it is being sent: the group, the chunk, the axis and the half. -/
def HeldC.tag (q : HeldC) (no : Nat) : Option (Nat × Nat × Nat × Bool) := q.half.map (fun f => (q.mp.pkt.grp, no * 2 ^ 24 + q.mp.pkt.chunk, f.1, f.2))

/-- A contribution is added at its home (R265, R272, R297): built-in, by the on_contribution hook of a program, or in an all-gather delivered. -/
def Hw.addContrib (h : Hw) (c : Nat) (q : HeldC) : Hw :=
  let k := q.mp.pkt
  let free (h : Hw) : Hw := match q.ptr with | some p => h.dropStored c p homeUnit | none => h
  match (h.grp? k.grp).bind (fun x => (x.gens.find? (fun n => n.no % 2 ^ 16 = k.gen)).bind (fun n => (x.entryOf k).map (fun i => (x, n, i)))) with
  | none => free h
  | some (x, n, i) =>
    let ch := (tget? n.open_ k.chunk).getD (h.newChunk k.grp x n k.chunk x.cfg.patience true)
    match h.contribAtt x n with
    | some a =>
      let h := h.modGen k.grp n.no (fun n => { n with open_ := tput n.open_ k.chunk ch })
      let ev : HookEvent := { hook := 0, gen := n.no, chunk := k.chunk, entry := n.list.idxOf i, rank := k.src, part := (memberOf x.cfg i).part, ptr := q.ptr }
      if q.ptr.isSome then h.queueEvent a c ev
      else if q.half.isSome then h.queueEvent a c { ev with held := some q }
      else match h.alloc c { pkt := k, cls := 0, owner := homeUnit, epoch := q.mp.epoch } with
        | some (h, p) => h.queueEvent a c { ev with ptr := some p }
        | none => h
    | none =>
      let h := (free h).spendAdd c k.grp x
      if x.cfg.gather then
        let m := memberOf x.cfg i
        let tr := if m.part then (k.hdr.drop 7).take 8
          else trailerWords false false 1 1 (bitmapDigest 1 (fun _ => true)) {} x.cfg.arith.input 0
        let h := h.countIn x n k i ch
        if (h.chunkAtt x n).isSome then h.finishIfDone k.grp n.no k.chunk
        else (h.sentFrom (h.sendGathered k.grp c x n.no k.chunk k.payload tr) c (q.tag n.no)).chunkDone k.grp n.no k.chunk (trailerCounted tr = 0) {}
      else
        let h := if x.cfg.ordered then h.addOrdered c x n k i ch
          else
            let (accs, ctr) := addInto x.cfg x.cfg.arith.mode i k ch.accs ch.ctr
            h.countIn x n k i { ch with accs := accs, ctr := ctr }
        h.finishIfDone k.grp n.no k.chunk

/-- The home acts on its verdict. -/
def Hw.settleContrib (h : Hw) (c : Nat) (q : HeldC) : Verdict → Hw
  | .gone => h.freeHeldAt c q
  | .drop n => (h.freeHeldAt c q).countG q.mp.pkt.grp n
  | .mismatch => (h.freeHeldAt c q).modGrp q.mp.pkt.grp (fun x => { x with mismatch := sat32 (x.mismatch + 1) })
  | .away dst => (h.freeHeldAt c q).ownSend c { base := meshBase q.mp.pkt q.mp.epoch (cxRouter c) q.mp.pkt.job 511, addr := some (cxRouter dst, attachOf dst) }
  | .hold => h.holdAtHome c q.mp
  | .add => h.addContrib c q

/-- Whether a contribution that waits in a virtual channel can be taken: one that must wait or run needs a buffer, a partial that of its reserve while that has room (R303). -/
def Hw.canTake (h : Hw) (c : Nat) (mp : MeshPkt) : Bool :=
  match h.verdict c mp with
  | .drop _ => true
  | .gone => true
  | .mismatch => true
  | _ => (mp.pkt.partialBit && (h.reserveHalf c mp.pkt).isSome) || ((h.cx c).pick c mp.pkt.len false).isSome

/-- CONTRIB_AT_HOME (R265): the first contribution at a complex that need not wait, those held there before those that arrive. -/
def execContribAtHome (cx : Nat) : State → Out := atUnit cx 144 <| onHw (fun _ h =>
  let x := h.cx cx
  if x.attach = .detached then h
  else match x.held.find? (fun q => h.verdict cx q.mp ≠ .hold) with
  | some q =>
    let v := h.verdict cx q.mp
    (h.modCx cx (fun x => { x with held := x.held.erase q })).settleContrib cx q v
  | none => match (x.work.filter (fun mp => mp.pkt.ptype = 2)).find? (fun mp => wholeIn x.work mp && h.canTake cx mp) with
    | none => h
    | some mp =>
      let v := h.verdict cx mp
      ((h.partialIn cx mp.pkt v).modCx cx (fun x => { x with work := x.work.filter (fun q => ¬ (q.pkt = mp.pkt ∧ q.src = mp.src)) })).settleContrib cx
        { mp := mp, half := if mp.pkt.partialBit then h.reserveHalf cx mp.pkt else none } v)

/-! ### Patience (R267, R268, R304) -/

/-- Whether a chunk's patience stands still: its home is fenced, or its slot is on its way (R279). -/
def Hw.still (h : Hw) (c : Chunk) : Bool := c.frozen || c.slotLost || (h.cx c.cx).attach ≠ .serving

/-- Whether the patience of a context counts: it is ACTIVE or DRAINING, outside the safe state (R268, R282, R467). -/
def Hw.counting (h : Hw) (x : Group) : Bool := (x.state = .active ∨ x.state = .draining) ∧ h.faults.state ≠ .safe

/-- Whether a chunk that is not open must wait (R268, R279, R283): it is done or open, its bank slot is taken, its home is fenced with its flip still to come, or
contributions for it are still to be handed over by the complex that was its home. -/
def Hw.opensLater (h : Hw) (g : Nat) (x : Group) (n : Gen) (k : Nat) : Bool :=
  let c := locCx (h.locate h.mesh.injEpoch (homeOf g n.homes k))
  n.done.contains k || (tget? n.open_ k).isSome || ! x.slotFree g n k || decide ((h.cx c).attach ≠ .serving)
  || h.cxs.any (fun (e : Nat × Complex) => decide (e.1 ≠ c) && e.2.held.any (fun q =>
      decide (q.mp.pkt.grp = g ∧ q.mp.pkt.gen = n.no % 2 ^ 16 ∧ q.mp.pkt.chunk = k)))

/-- Chunks of a draining generation open with PATIENCE, each when its bank is free (R283). -/
def Hw.drainOpen (h : Hw) (g : Nat) : Hw :=
  match h.grp? g with
  | none => h
  | some x => x.gens.foldl (fun h n => match n.openWith with
      | some 0 => h
      | none => h
      | some pat => (List.range x.cfg.chunks).foldl (fun h k =>
          match (h.grp? g).bind (fun x => (x.gen? n.no).map (fun n => (x, n))) with
          | none => h
          | some (x, n) =>
            if h.opensLater g x n k then h
            else h.modGen g n.no (fun n => { n with open_ := tput n.open_ k (h.newChunk g x n k pat false) })) h) h

/-! ### Admission waits, closing and wipes -/

/-- A RANK entry pending when the patience of a chunk ends is LOST: in the generation of a chunk that a contribution opened (Table 9.5), only in the
chunk when it restarted (R280); a chunk opened without one marks nobody. -/
def Hw.patienceEnds (h : Hw) (g no k : Nat) : Hw :=
  match (h.grp? g).bind (fun x => (x.gen? no).bind (fun n => (tget? n.open_ k).map (fun c => (x, n, c)))) with
  | none => h
  | some (x, n, c) =>
    let pend := (x.pending n k).filter (fun i => ! (memberOf x.cfg i).part)
    let h := if ¬ c.opened then h
      else if c.restarted then (h.modChunk g no k (fun c => { c with lost := c.lost ++ pend })).settleGen g no
      else
        let h := pend.foldl (fun h i => h.markLost g no i) h
        h.modGrp g (fun x => { x with clearNow := x.clearNow ++ pend.filter (fun i => ! x.clearNow.contains i) })
    let h := match x.plan with
      | none => h.finish g no k true
      | some _ => (h.modChunk g no k (fun c => { c with short := true })).finishIfDone g no k
    if c.opened ∧ ¬ c.restarted then h.finishReady g no else h

/-- An open chunk whose patience has reached zero finishes at that E5 (R268, R269), in a context whose patience counts. -/
def Hw.expire (h : Hw) (g no k : Nat) : Hw :=
  match (h.grp? g).bind (fun x => (x.gen? no).bind (fun n => (tget? n.open_ k).map (fun c => (x, c)))) with
  | none => h
  | some (x, c) => if 0 < c.patience ∨ h.still c ∨ c.ending ∨ ¬ h.counting x then h else h.patienceEnds g no k

/-- Every chunk of a context whose patience has ended finishes. -/
def Hw.expireAll (h : Hw) (g : Nat) : Hw :=
  match h.grp? g with
  | none => h
  | some x => x.gens.foldl (fun h n => (n.open_.map (·.1)).foldl (fun h k => h.expire g n.no k) h) h

/-- PATIENCE_EXPIRY (R268): one chunk at E5. Its bank is free at once (R269), so in a draining context the next chunk of the bank opens at that E5 (R283). -/
def execPatienceExpiry (grp gen chunk : Nat) : State → Out := atEdge (fun _ h =>
  let h := h.expire grp gen chunk
  if (h.grp? grp).any (fun x => decide (x.state = .draining)) then h.drainOpen grp else h)

/-- A chunk opens without a contribution (R268): it finishes at once, with what it counted, unless a ring's partial is still to come. -/
def Hw.openIdle (h : Hw) (g no k : Nat) : Hw :=
  match (h.grp? g).bind (fun x => (x.gen? no).map (fun n => (x, n))) with
  | none => h
  | some (x, n) =>
    if h.opensLater g x n k then h
    else if (x.pending n k).any (fun i => (memberOf x.cfg i).part) then
      h.modGen g no (fun n => { n with open_ := tput n.open_ k { h.newChunk g x n k 0 false with short := true } })
    else h.finish g no k true

/-- A generation whose RECEIVED has stood still for PATIENCE latches opens its chunks at E5 (R268). -/
def Hw.openIdleGens (h : Hw) (g : Nat) : Hw :=
  match h.grp? g with
  | none => h
  | some x =>
    if ¬ h.counting x then h
    else (x.gens.filter (fun n => x.cfg.patience ≤ n.idle ∨ n.openWith = some 0)).foldl (fun h n =>
      let h := h.modGen g n.no (fun n => { n with openWith := some 0 })
      (List.range x.cfg.chunks).foldl (fun h k => h.openIdle g n.no k) h) h

/-- IDLE_GENERATION_OPEN (R268), at E5. -/
def execIdleGenerationOpen (grp : Nat) : State → Out := atEdge (fun _ h => h.openIdleGens grp)

/-- A generation that has waited 64 ticks is told of once (R259). -/
def Hw.tellWaiting (h : Hw) (g : Nat) : Hw :=
  match h.grp? g with
  | none => h
  | some x =>
    if x.wait < 64 ∨ x.told then h
    else (h.modGrp g (fun x => { x with told := true })).raise 0x0506 [w32 g, w32 x.admitted, w32 (x.admitted / 2 ^ 32)]

/-- ADMISSION_WAITING (R259), at E6. -/
def execAdmissionWaiting (grp : Nat) : State → Out := atEdge (fun _ h => h.tellWaiting grp)

/-- A context being torn down with no generation open becomes CLOSED at E5 (R283, R284); its attachments and plan end, and its storage is wiped. -/
def Hw.closeGroup (h : Hw) (grp : Nat) : Hw :=
  match h.grp? grp with
  | none => h
  | some x =>
    if x.tear.isNone ∨ x.state = .closed ∨ x.gens ≠ [] then h
    else
      let atts := h.attsOf grp
      let h := atts.foldl Hw.clearAtt h
      let h := h.modProgs (fun p => { p with atts := p.atts.filter (fun e => e.2.grp ≠ grp) })
      let h := h.freeHeld grp
      let echo := (tget? h.mem.echo grp).isSome
      let h := h.modEcho grp (fun r => { r with entries := [], served := [] })
      let h := h.modGrp grp (fun x => { x with state := .closed, plan := none, axes := [], echoWipe := echo, wait := 0, told := false, suspendNext := none })
      h.raise 0x0505 [w32 (grp + b2n (x.tear = some true) * 2 ^ 16), w32 h.time.tick]

/-- GROUP_CLOSE (R247, R283), at E5. -/
def execGroupClose (grp : Nat) : State → Out := atEdge (fun _ h => h.closeGroup grp)

/-- STORAGE_WIPE_DONE (R284): the wipes of a group's released storage end; a CLOSED context can be created again from E6 of the next tick. -/
def execStorageWipeDone (grp : Nat) : State → Out := onHw (fun _ h =>
  let h := if (h.grp? grp).any (·.echoWipe) then h.modMem (fun m => { m with echo := tdel m.echo grp }) else h
  let h := (h.grp? grp).elim h (h.endWipes grp)
  h.modGrp grp (fun x => { x with wipes := [], echoWipe := false, wiped := if x.state = .closed ∧ x.wiped.isNone then some h.time.tick else x.wiped }))

/-! ### Slots that move to a tiller (R279) -/

/-- One open chunk moves from a complex to another: its slot, its descriptor and the partials kept for it. -/
def Hw.moveChunk (h : Hw) (g no k dst : Nat) : Hw :=
  match ((h.grp? g).bind (fun x => x.gen? no)).bind (fun n => tget? n.open_ k) with
  | none => h
  | some c =>
    let h := c.kept.foldl (fun h (q : Nat × List Nat × List Nat × Nat) => h.freeKept c.cx q.2.2.1) h
    let (h, kept) := c.kept.foldl (fun (a : Hw × List (Nat × List Nat × List Nat × Nat)) q =>
      let (h, ps) := a.1.takeKept dst q.2.2.1.length []
      (h, a.2 ++ [(q.1, q.2.1, ps, q.2.2.2)])) (h, [])
    h.modChunk g no k (fun c => { c with cx := dst, frozen := false, kept := kept })

/-- Hook events that wait at a complex for chunks that have moved follow them (R279): contributions go on as held ones do, the other hooks wait at the new
home. A move names group, generation, chunk and destination. -/
def Hw.moveEvents (h : Hw) (cx : Nat) (moves : List (Nat × Nat × Nat × Nat)) : Hw :=
  h.progs.atts.foldl (fun h (e : Nat × Att) =>
    let q := tget [] e.2.events cx
    let dst (v : HookEvent) : Option Nat :=
      (moves.find? (fun m => m.1 = e.2.grp ∧ m.2.1 = v.gen ∧ (m.2.2.1 = v.chunk ∨ 2 ≤ v.hook))).map (·.2.2.2)
    let gone := q.filter (fun v => (dst v).isSome)
    if gone = [] then h
    else
      let h := h.modAtt e.1 (fun a => { a with events := tput a.events cx (q.filter (fun v => (dst v).isNone)) })
      gone.foldl (fun h v => match v.held, v.ptr with
        | some q, _ => h.modCx cx (fun x => { x with held := x.held ++ [q] })
        | none, some p => match h.buf? cx p with
          | some b => h.modCx cx (fun x => { x with held := x.held ++ [{ mp := meshBase b.pkt b.epoch (cxRouter cx) b.pkt.job 511, ptr := some p }] })
          | none => h
        | none, none => h.queueEvent e.1 ((dst v).getD cx) v) h) h

/-- SLOT_MOVE_DONE (R279, R476): the open slots of a home whose address is served elsewhere since a flip, its held contributions and its state windows are
there; a tiller whose address has returned is free. -/
def execSlotMoveDone (cx : Nat) : State → Out := atUnit cx 144 <| onHw (fun _ h =>
  if (h.cx cx).attach = .detached then h
  else
    let now (a : Nat) : Nat := locCx (h.locate h.mesh.injEpoch a)
    let moves := h.groups.flatMap (fun (e : Nat × Group) => e.2.gens.flatMap (fun n => (n.open_.filter (fun (q : Nat × Chunk) =>
      decide (q.2.cx = cx ∧ now q.2.addr ≠ cx ∧ (h.cx (now q.2.addr)).attach = .serving))).map (fun q => (e.1, n.no, q.1, now q.2.addr))))
    let h := moves.foldl (fun h m => h.moveChunk m.1 m.2.1 m.2.2.1 m.2.2.2) h
    let h := h.moveEvents cx moves
    let touched := if h.isFenced (unitNo 4 cx) then (moves.map (fun m => (m.1, m.2.1))).dedup else []
    let h := touched.foldl (fun h m => h.modGen m.1 m.2 (fun n => { n with touched := n.touched + 1 })) h
    let tiller := now (h.cxAddress cx)
    if tiller = cx ∨ (h.cx tiller).attach ≠ .serving ∨ (128 ≤ cx ∧ (h.cx cx).tillerOf = none) then h
    else
      let h := h.modCx cx (fun x => { x with tillerOf := none })
      let h := h.modProgs (fun p => { p with atts := p.atts.map (fun (e : Nat × Att) =>
        match tget? e.2.windows cx with
        | some w => (e.1, { e.2 with windows := tput (tdel e.2.windows cx) tiller w, places := tdel e.2.places cx })
        | none => e) })
      (h.progs.atts.map (·.1)).foldl Hw.placeWindows h)

end Sys2Proof.Machine
end

