-- ==== Sys2Proof/Machine/Memory.lean ====
section
/-!
DEFINITION. Fabric memory: the regions of the stacks, the echo cache and the snapshot store (R378 to R404).
-/

namespace Sys2Proof.Machine
open Sys2Proof

def gib : Nat := 2 ^ 30

def Hw.stack (h : Hw) (s : Nat) : Stack := tget {} h.mem.hbms s
def Hw.modStack (h : Hw) (s : Nat) (f : Stack → Stack) : Hw := h.modMem (fun m => { m with hbms := tmod {} m.hbms s f })
def Hw.part? (h : Hw) (p : Nat) : Option Part := tget? h.mem.parts p
def Hw.modPart (h : Hw) (p : Nat) (f : Part → Part) : Hw :=
  h.modMem (fun m => match tget? m.parts p with | some x => { m with parts := tput m.parts p (f x) } | none => m)

/-! ### Regions (R382, R384, R389, R400) -/

/-- Bytes of a region (0 echo, 1 snapshot) of a stack whose wipe has not ended. -/
def Stack.wipingOf (k : Stack) (region : Nat) : Nat := ((k.wiping.filter (·.1 = region)).map (·.2)).sum

/-- MiB that echo regions take on a stack, wipes counted. -/
def Hw.echoUsed (h : Hw) (s : Nat) : Nat :=
  ((h.mem.echo.filter (fun e => e.2.stack = s)).map (fun e => e.2.mib)).sum + (h.stack s).wipingOf 0 / 1048576

/-- Bytes that snapshot parts take on a stack. -/
def Hw.snapUsed (h : Hw) (s : Nat) : Nat := ((h.mem.parts.filter (fun e => e.2.stack = s)).map (fun e => e.2.reserved)).sum

/-- Free bytes of a stack's snapshot region. -/
def Hw.snapFree (h : Hw) (s : Nat) : Nat := (h.stack s).snap * gib - h.snapUsed s

/-- The refusal of R38 and of a fenced stack. -/
def Hw.stackFail (h : Hw) (s : Nat) : Option Fail :=
  if ¬ h.stackOk 0 ∧ ¬ h.stackOk 1 then some (stAbsent, unitNo 10 0) else failIf (¬ h.stackOk s) (some (stFenced, unitNo 10 s))

/-- What MEMORY_PARTITION_SET checks of its payload, beyond the envelope (R53). -/
def failMemoryPartitionSet (_fz : Fuses) (h : Hw) (_ch : Nat) (p : List Word) (_bulk : List Byte) : Option Fail :=
  firstFail [failIf (¬ h.stackOk (fld p 0 0 0)) (some (stFenced, unitNo 10 (fld p 0 0 0))), failIf (95 < fld p 1 7 0 + fld p 1 15 8 + fld p 1 23 16) (bad 4)]

/-- MEMORY_PARTITION_SET (R382). -/
def execMemoryPartitionSet (ch : Nat) : State → Out := atUnit ch 16 <| onHw (fun fz h => h.configure ch 0x0801 (failMemoryPartitionSet fz h ch))

/-- At the commit: a shrunk region that holds anything refuses the set (R382). -/
def partitionBusy (h : Hw) (p : List Word) : Option Fail :=
  let s := fld p 0 0 0
  let k := h.stack s
  let spill := decide (fld p 1 7 0 < k.spill ∧ h.spillReserved s ≠ 0)
  let echo := decide (fld p 1 15 8 < k.echo) && (h.mem.echo.any (fun e => e.2.stack = s && e.2.entries ≠ []) || decide (k.wipingOf 0 ≠ 0))
  let snap := decide (fld p 1 23 16 < k.snap ∧ h.snapUsed s ≠ 0)
  failIf (spill || echo || snap) (some (stNotEmpty, 0xF0 + s))

def applyMemPartition (h : Hw) (p : List Word) : Hw :=
  h.modStack (fld p 0 0 0) (fun k => { k with granules := (fld p 1 7 0 * 131072 - k.granules.2, k.granules.2), spill := fld p 1 7 0, echo := fld p 1 15 8, snap := fld p 1 23 16 })

/-! ### The echo cache (R384 to R388) -/

/-- Entries that a size holds for a group (R384). -/
def echoRoom (c : GroupCfg) (mib : Nat) : Nat := mib * 1048576 / (c.inBytes + 128)

/-- What ECHO_REGION_SET checks of its payload, beyond the envelope (R53). -/
def failEchoRegionSet (_fz : Fuses) (h : Hw) (ch : Nat) (p : List Word) (_bulk : List Byte) : Option Fail :=
  match h.stagedGroup ch (fld p 0 12 0) with
  | none => bad 0
  | some x =>
    let mib := fld p 1 15 0
    firstFail [failIf (¬ x.cfg.gather ∨ ¬ x.cfg.echoKeep) (bad 0), h.stackFail (fld p 0 16 16), failIf (mib ≠ 0 ∧ echoRoom x.cfg mib = 0) (bad 4)]

/-- ECHO_REGION_SET (R384). -/
def execEchoRegionSet (ch : Nat) : State → Out := atUnit ch 16 <| onHw (fun fz h => h.configure ch 0x0802 (failEchoRegionSet fz h ch))

/-- At E2 every entry of the group is invalid; a region that is released, or leaves its stack, is wiped. -/
def applyEchoRegion (h : Hw) (p : List Word) : Hw :=
  let g := fld p 0 12 0
  let s := fld p 0 16 16
  let mib := fld p 1 15 0
  let old := tget? h.mem.echo g
  let h := match old with
    | some r =>
      let h := if mib = r.mib ∧ s = r.stack then h else h.echoInvalidate g
      if (mib = 0 ∨ s ≠ r.stack) ∧ r.mib ≠ 0 then h.modStack r.stack (fun k => { k with wiping := k.wiping ++ [(0, r.mib * 1048576)] }) else h
    | none => h
  let next (m : Mem) : Tbl EchoRegion := match old with
    | some r => if mib = 0 then tdel m.echo g else if mib = r.mib ∧ s = r.stack then m.echo else tput m.echo g { stack := s, mib := mib }
    | none => if mib = 0 then m.echo else tput m.echo g { stack := s, mib := mib }
  h.modMem (fun m => { m with echo := next m })

/-- Pair 0x0801: the echo regions of each stack fit within its ECHO_GIB. -/
def pairEcho (after : Hw) : Option Nat :=
  if (List.range 2).any (fun s => decide ((after.stack s).echo * 1024 < after.echoUsed s)) then some 0x0801 else none

/-- Whether an ECHO_REQ is dropped by check 6 of Table 5.1 (R386). (DEDUCED, log 83, unsafe.) -/
def Hw.echoRejected (h : Hw) (k : Pkt) (port : Nat) : Bool :=
  match h.grp? k.grp with
  | none => true
  | some x =>
    let entry := (entriesWhere x.cfg (fun m => decide (¬ m.part ∧ m.rank = k.src))).head?
    decide (x.cfg.job ≠ k.job ∨ x.state = .closed ∨ ¬ x.cfg.gather ∨ ¬ x.cfg.echoKeep) || (tget? h.mem.echo k.grp).isNone
    || (match entry with | some i => ! x.mask.getD i false || decide (tget? x.ports i ≠ some port) | none => true)
    || decide (x.cfg.chunks < k.chunk + k.word 6)

/-! ### Sending from a memory node (R378, R387, R392) -/

/-- The memory node, numbered as 144 to 151, puts a packet for ports on its way, by TREE where it is a multicast. -/
def Hw.nodeSend (h : Hw) (node : Nat) (k : Pkt) (ports : BitVec 264) (multi : Bool) : Hw :=
  let c := 144 + node
  let (es, _) := h.injections c (meshBase k h.mesh.injEpoch (cxRouter c) k.job 511) ports multi false
  h.modMesh (fun m => { m with nodeOut := tmod [] m.nodeOut (cxRouter c) (· ++ es.flatMap (·.parts)) })

/-- A node sends a unicast by R121 in the injection epoch; false when the lookup fails. Sprayed sets use the pointers of the complex at the node's
router. -/
def Hw.nodeUnicast (h : Hw) (node : Nat) (k : Pkt) : Hw × Bool :=
  let e := h.mesh.injEpoch
  let k := k.setEpoch e
  match h.route e (300 + cxRouter (144 + node)) k with
  | (h, .inl _) => (h, false)
  | (h, .inr p) => (h.nodeSend node k (portMask [p]) false, true)

/-- One chunk of an accepted ECHO_REQ (R387): a duplicate, a hit or a miss. -/
def Hw.serveEcho (h : Hw) (node : Nat) (k : Pkt) (x : Group) (chunk : Nat) : Hw :=
  match tget? h.mem.echo k.grp with
  | none => h
  | some r =>
    if r.served.any (fun e => e.1 = chunk ∧ h.time.tick ≤ e.2 + x.cfg.patience) then h.countM 4
    else match r.entries.find? (fun e => e.chunk = chunk ∧ e.gen % 2 ^ 16 = k.gen) with
      | some e =>
        let pk := mkPkt (lmod 0 e.pkt.hdr 7 (fun w => setBits w 30 1 1)) e.pkt.payload
        let pk := pk.setEpoch h.mesh.injEpoch
        let h := (h.countM 2).modEcho k.grp (fun r => { r with served := (chunk, h.time.tick) :: r.served.filter (fun e => e.1 ≠ chunk) })
        match h.sheafMask h.mesh.injEpoch 511 pk with
        | (h, .inl _) => h
        | (h, .inr (m, _)) => h.nodeSend node pk m true
      | none =>
        let tr := trailerWords false true 0 1 0 {} x.cfg.arith.input 0
        ((h.countM 3).nodeUnicast node (mkPkt (groupHdr 3 false 0 k.job k.src 0 k.grp k.gen chunk 0 0 tr) [])).1

/-- The first whole packet of a type that waits at a node, and the hardware without it. -/
def Hw.nodeTake (h : Hw) (node ptype : Nat) : Option (MeshPkt × Hw) :=
  let r := nodeRouter node
  let l := tget [] h.mesh.nodes r
  (l.find? (fun mp => mp.pkt.ptype = ptype && wholeIn l mp)).map (fun mp =>
    (mp, h.modMesh (fun m => { m with nodes := tmod [] m.nodes r (·.filter (fun q => ¬ (q.pkt = mp.pkt ∧ q.src = mp.src))) })))

/-- ECHO_REQ_SERVE (R387). -/
def execEchoReqServe (node : Nat) : State → Out := atUnit node 8 <| onHw (fun _ h =>
  match h.nodeTake node 9 with
  | none => h
  | some (mp, h) => match h.grp? mp.pkt.grp with
    | none => h
    | some x => (List.range (mp.pkt.word 6)).foldl (fun h i => h.serveEcho node mp.pkt x (mp.pkt.chunk + i)) h)

/-! ### Parts (R389, R390) -/

def chunkBytes : Nat := 65536

/-- Digests of a part: its chunks. -/
def digestsOf (ranks : List (Nat × Nat)) : Nat := (ranks.map (fun e => cdiv e.2 chunkBytes)).sum

/-- Bytes of a part's record area, a whole number of chunks (R389). -/
def recordArea (ranks : List (Nat × Nat)) : Nat := cdiv (72 + 16 * ranks.length + 8 * digestsOf ranks + 18612224) chunkBytes * chunkBytes

/-- RESERVED_BYTES. -/
def partReserve (ranks : List (Nat × Nat)) : Nat := digestsOf ranks * chunkBytes + recordArea ranks

/-- Ranks and SHARD_BYTES of a SNAPSHOT_OPEN request. -/
def openRanks (p : List Word) : List (Nat × Nat) :=
  (List.range (fld p 2 8 0)).map (fun i => (fld p (3 + 3 * i) 15 0, wnat p (4 + 3 * i) + wnat p (5 + 3 * i) * 2 ^ 32))

/-- Bytes that staged opens will take on a stack. -/
def Hw.stagedOpen (h : Hw) (s : Nat) : Nat :=
  (h.ctl.chans.map (fun e => ((e.2.staging.filter (fun q => q.opcode = 0x0803 ∧ fld q.words 0 10 9 = s)).map (fun q => partReserve (openRanks q.words))).sum)).sum

/-- The stack an open uses: the one asked for, or the one with more free room. -/
def Hw.openStack (h : Hw) (p : List Word) : Nat :=
  if fld p 0 10 9 ≠ 2 then fld p 0 10 9
  else
    let free (s : Nat) : Nat := if h.stackOk s then h.snapFree s - h.stagedOpen s + 1 else 0
    if free 0 < free 1 then 1 else 0

/-- The checks of SNAPSHOT_OPEN (R389, Table 13.10). -/
def checkOpen (h : Hw) (p : List Word) : Option Fail :=
  let ranks := openRanks p
  let s := h.openStack p
  let handle := fld p 0 5 0
  let job := fld p 1 11 0
  let id := fld p 1 31 16
  let staged := h.ctl.chans.any (fun e => e.2.staging.any (fun q => q.opcode = 0x0803 ∧ fld q.words 0 5 0 = handle))
  let held (r : Nat) : Bool := h.mem.parts.any (fun e => e.2.job = job && e.2.snapshot = id && e.2.ranks.any (·.1 = r))
  firstFail ([failIf (fld p 0 10 9 = 3 ∨ (h.part? handle).isSome ∨ staged) (bad 0), failIf (job = 0) (bad 4),
    failIf (ranks = [] ∨ 256 < ranks.length) (bad 8)]
    ++ (List.range ranks.length).map (fun i =>
      let e := ranks.getD i (0, 0)
      firstFail [failIf ((0 < i ∧ e.1 ≤ (ranks.getD (i - 1) (0, 0)).1) ∨ held e.1) (bad (12 + 12 * i)),
        failIf (e.2 < 4 ∨ 2 ^ 38 < e.2 ∨ e.2 % 4 ≠ 0) (bad (16 + 12 * i))])
    ++ [h.stackFail s, failIf (h.snapFree s < h.stagedOpen s + partReserve ranks) (some (stNoResource, 5))])

/-- SNAPSHOT_OPEN (R389): what is staged names the stack the response gives. -/
def execSnapshotOpen (ch : Nat) : State → Out := atUnit ch 16 <| onHw (fun _ h => h.withRequest ch 0x0803 (fun r =>
  let p := r.payload
  match checkOpen h p with
  | some (s, d) => h.reply ch s d
  | none =>
    let s := h.openStack p
    let words := r.words.take 4 ++ lmod 0 p 0 (fun w => setBits w 9 2 s)
    h.stage ch { r with words := words } [] ([w32 s] ++ le64 (partReserve (openRanks p)))))

def applyOpen (h : Hw) (p : List Word) : Hw :=
  let job := fld p 1 11 0
  let buddy := decide (fld p 0 8 8 = 1)
  let x : Part := { buddy := buddy, stack := fld p 0 9 9, job := job, snapshot := fld p 1 31 16, ranks := openRanks p, reserved := partReserve (openRanks p),
                    mirror := if buddy then none else tget? h.mem.buddies job }
  h.modMem (fun m => { m with parts := tput m.parts (fld p 0 5 0) x })

/-- Pair 0x0802: a PRIMARY part's ranks are hosted here. -/
def pairOpen (after : Hw) (p : List Word) : Option Nat :=
  let here (r : Nat) : Bool := match after.rankEntry (fld p 1 11 0) r with | some (s, _) => s = after.disc.switchNo | none => false
  if fld p 0 8 8 = 0 ∧ (openRanks p).any (fun e => ! here e.1) then some 0x0802 else none

/-- What SNAPSHOT_BUDDY_SET checks of its payload, beyond the envelope (R53). -/
def failSnapshotBuddySet (_fz : Fuses) (_h : Hw) (_ch : Nat) (p : List Word) (_bulk : List Byte) : Option Fail := failIf (fld p 0 11 0 = 0) (bad 0)

/-- SNAPSHOT_BUDDY_SET (R392). -/
def execSnapshotBuddySet (ch : Nat) : State → Out := atUnit ch 16 <| onHw (fun fz h => h.configure ch 0x0806 (failSnapshotBuddySet fz h ch))

def applyBuddy (h : Hw) (p : List Word) : Hw :=
  let job := fld p 0 11 0
  h.modMem (fun m => { m with buddies := if fld p 0 16 16 = 1 then tput m.buddies job (fld p 1 15 0) else tdel m.buddies job })

/-- The state code of Table 13.2. -/
def PState.code (s : PState) : Nat :=
  match s with | .opened => 0 | .sealing => 1 | .sealed => 2 | .damaged => 3 | .incomplete => 4 | .deleting => 5

/-- CHUNKS_FAILED of a part. -/
def Part.failedCount (x : Part) : Nat := if x.allFailed then digestsOf x.ranks else x.failed.length

/-- The response of SNAPSHOT_CLOSE (Table 13.11). -/
def Part.closeOut (x : Part) : List Word :=
  [w32 x.state.code, w32 x.failedCount] ++ le64 (if x.buddy then x.received else x.mirrored) ++ le64 (if x.state = .deleting then 0 else x.recBytes)

/-- What SNAPSHOT_CLOSE checks of its payload, beyond the envelope (R53). -/
def failSnapshotClose (_fz : Fuses) (h : Hw) (_ch : Nat) (p : List Word) (_bulk : List Byte) : Option Fail :=
  let action := fld p 0 9 8
  match h.part? (fld p 0 5 0) with
  | none => bad 0
  | some x =>
    let buddySeal := decide (action = 0) && x.buddy
    firstFail [failIf (action = 3) (bad 0), failIf (action = 0 ∧ (x.state ≠ .opened ∨ x.closing.isSome)) (bad 0),
      failIf (action = 1 ∧ x.state ≠ .sealed ∧ x.state ≠ .damaged) (bad 0), failIf (action = 2 ∧ x.state = .deleting) (bad 0),
      failIf (¬ buddySeal ∧ fld p 0 31 16 ≠ 0) (bad 0), failIf (¬ buddySeal ∧ (wnat p 1 ≠ 0 ∨ wnat p 2 ≠ 0)) (bad 4)]

/-- SNAPSHOT_CLOSE (R394 to R396). -/
def execSnapshotClose (ch : Nat) : State → Out := atUnit ch 16 <| onHw (fun fz h => h.configure ch 0x0804 (failSnapshotClose fz h ch))

/-! ### Group records (R398, Table 13.5) -/

/-- The group record of a context, as bytes. `epoch` is the injection epoch. -/
def Hw.groupRecord (h : Hw) (g : Nat) (x : Group) : List Byte :=
  let sheaf := if x.cfg.gather then tget? h.mesh.sheaves (h.mesh.injEpoch * 4096 + x.cfg.sheaf) else none
  let plan := x.plan.elim [] (fun p => p.image.flatMap leBytes)
  let create := x.cfg.image.flatMap leBytes
  let bytes := 96 + create.length + plan.length
  let prog (ring : Bool) : Nat := ((h.progs.atts.find? (fun e => e.2.grp = g ∧ e.2.ring = ring ∧ e.2.live)).map (fun e => e.2.image.progId)).getD 0
  let mask := (List.range 256).foldl (fun a i => a + b2n (x.mask.getD i false) * 2 ^ i) 0
  natBytes 4 (bytes * 2 ^ 16 + b2n sheaf.isSome * 2 ^ 15 + b2n x.plan.isSome * 2 ^ 13 + g) ++ natBytes 8 x.current ++ natBytes 32 mask
  ++ natBytes 4 (sheaf.elim 0 (fun s => x.cfg.sheaf * 2 ^ 16 + b2n s.line)) ++ natBytes 36 (sheaf.elim 0 (fun s => s.ports.toNat))
  ++ natBytes 4 (prog false) ++ natBytes 4 (prog true) ++ natBytes 4 (plan.length * 2 ^ 16 + create.length) ++ create ++ plan

/-- The group records of a job, in ascending group identifier. -/
def Hw.jobRecords (h : Hw) (job : Nat) : List (List Byte) :=
  (h.groups.filter (fun (e : Nat × Group) => e.2.cfg.job = job)).map (fun (e : Nat × Group) => h.groupRecord e.1 e.2)

/-- A close takes hold at E2. Whether the command's own channel waits for its end is `ch`; the answer of a DELETE is given by the commit. -/
def applyClose (h : Hw) (ch : Option Nat) (p : List Word) : Hw :=
  let handle := fld p 0 5 0
  match h.part? handle with
  | none => h
  | some x =>
    let t := h.time.tick
    match fld p 0 9 8 with
    | 0 =>
      if x.buddy then h.modPart handle (fun x => { x with closing := some {
        ch := ch, tick := t, expected := wnat p 1 + wnat p 2 * 2 ^ 32, deadline := t + fld p 0 31 16 } })
      else
        h.modPart handle (fun x => { x with state := .sealing, closing := some { ch := ch, tick := t } })
    | 1 => h.modPart handle (fun x => { x with state := .sealing, closing := some { ch := ch, tick := t, verify := true } })
    | _ =>
      let h := h.modPart handle (fun x => { x with state := .deleting, closing := none })
      match x.closing.bind (·.ch), h.part? handle with
      | some c, some x => h.reply c stOk 0 x.closeOut
      | _, _ => h

/-! ### Digests and the record (R393, R397) -/

/-- Where a rank's entry stands in a part. -/
def Part.entryOf (x : Part) (rank : Nat) : Option Nat := (List.range x.ranks.length).find? (fun i => (x.ranks.getD i (0, 0)).1 = rank)

/-- SHARD_BYTES of an entry. -/
def Part.shardBytes (x : Part) (i : Nat) : Nat := (x.ranks.getD i (0, 0)).2

/-- The digest of chunk c of entry i. -/
def Part.digest (x : Part) (i c : Nat) : Nat :=
  crc64 (memReadList 0 x.shards (2 ^ 38 * i + c * chunkBytes) (min chunkBytes (x.shardBytes i - c * chunkBytes)))

/-- The chunks of a part, as entry and chunk, in the order of the digest list. -/
def Part.chunks (x : Part) : List (Nat × Nat) :=
  (List.range x.ranks.length).flatMap (fun i => (List.range (cdiv (x.shardBytes i) chunkBytes)).map (fun c => (i, c)))

/-- The index of an entry's first digest. -/
def Part.firstDigest (x : Part) (i : Nat) : Nat := digestsOf (x.ranks.take i)

/-- Digest n of the list as the record holds it. -/
def Part.storedDigest (x : Part) (n : Nat) : Nat := beNat (memReadList 0 x.record (64 + 16 * x.ranks.length + 8 * n) 8)

/-- The record of a PRIMARY part (Table 13.4). -/
def Part.makeRecord (x : Part) (sealTick : Nat) (groups : List (List Byte)) : List Byte :=
  let list := x.chunks.flatMap (fun e => natBytes 8 (x.digest e.1 e.2))
  let recs := groups.flatMap id
  let ranks := (List.range x.ranks.length).flatMap (fun i =>
    natBytes 4 (x.ranks.getD i (0, 0)).1 ++ natBytes 8 (x.shardBytes i) ++ natBytes 4 (x.firstDigest i))
  let bytes := 64 + ranks.length + list.length + recs.length + 8
  let body := natBytes 4 0x534E5031 ++ natBytes 4 (x.job * 2 ^ 20 + x.snapshot) ++ natBytes 8 sealTick ++ natBytes 4 (groups.length * 2 ^ 16 + x.ranks.length)
    ++ natBytes 4 (list.length / 8) ++ natBytes 8 bytes ++ sha256 list ++ ranks ++ list ++ recs
  body ++ natBytes 8 (crc64 body)

/-- The length of a mirrored record whose RECORD_CRC holds, else none. -/
def Part.recordOk (x : Part) : Option Nat :=
  let n := beNat (memReadList 0 x.record 24 8)
  if beNat (memReadList 0 x.record 0 4) = 0x534E5031 ∧ 72 ≤ n ∧ n ≤ recordArea x.ranks
      ∧ beNat (memReadList 0 x.record (n - 8) 8) = crc64 (memReadList 0 x.record 0 (n - 8)) then some n else none

/-- Whether a chunk fails its digest: it differs from the record's, or the chunk holds a lost word (Table 13.1). -/
def Part.differs (x : Part) (e : Nat × Nat) : Bool := x.lost.contains e || decide (x.digest e.1 e.2 ≠ x.storedDigest (x.firstDigest e.1 + e.2))

/-- The chunks that fail their digests. -/
def Part.differing (x : Part) : List (Nat × Nat) := x.chunks.filter x.differs

/-- Whether ROOT_DIGEST is that of the stored digest list. -/
def Part.rootOk (x : Part) : Bool :=
  decide (sha256 (memReadList 0 x.record (64 + 16 * x.ranks.length) (8 * digestsOf x.ranks)) = memReadList 0 x.record 32 32)

/-! ### Packets of the store (R391, R392, R399) -/

def snapshotIdOf (k : Pkt) : Nat := fld k.hdr 6 31 16
def snapOffsetOf (k : Pkt) : Nat := fld k.hdr 6 15 0 * 2 ^ 32 + k.word 7

/-- The header of a packet of the store, class TC0 (Table 4.1). -/
def snapHdr (ptype : Nat) (reply : Bool) (len job dst src snapshot offset : Nat) : List Word :=
  [w32 (2 ^ 28 + ptype * 2 ^ 22 + b2n reply * 2 ^ 17 + len), w32 (job * 2 ^ 20), w32 (dst * 2 ^ 16 + src), 0, 0, 0,
   w32 (snapshot * 2 ^ 16 + offset / 2 ^ 32), w32 offset]

/-- The part that holds a rank of a snapshot. -/
def Hw.partOf (h : Hw) (k : Pkt) : Option (Nat × Part) :=
  h.mem.parts.find? (fun e => e.2.job = k.job && e.2.snapshot = snapshotIdOf k && e.2.ranks.any (·.1 = k.src))

/-- Relay a packet by its DST_RANK (row 2 of Table 13.3). -/
def Hw.relaySnap (h : Hw) (node : Nat) (k : Pkt) : Hw :=
  match h.rankEntry k.job k.dst with
  | none => h.countM 10
  | some (s, _) =>
    if s = h.disc.switchNo then h.countM 10
    else match h.nodeUnicast node k with
      | (h, true) => h.countM 7
      | (h, false) => h.countM 10

/-- Send a mirror copy of bytes of a PRIMARY part to its buddy (R392). (DEDUCED, log 94, unsafe.) -/
def Hw.mirrorCopy (h : Hw) (node handle anchor : Nat) (x : Part) (src offset : Nat) (b : List Byte) : Hw :=
  match h.nodeUnicast node (mkPkt (snapHdr 7 false b.length x.job anchor src x.snapshot offset) b) with
  | (h, true) => (h.countM 8).modPart handle (fun x => { x with mirrored := x.mirrored + b.length })
  | (h, false) => h.countM 9

/-- The mesh packets under way: to be injected, in routers and on links, and at memory nodes. -/
def Hw.meshPackets (h : Hw) : List MeshPkt :=
  h.cxs.flatMap (fun (e : Nat × Complex) => e.2.inject.flatMap (·.parts))
  ++ h.mesh.routers.flatMap (fun (e : Nat × Router) => e.2.vcs.map (·.2.mp) ++ e.2.inputs.flatMap (fun i => i.2.wire.map (·.mp)))
  ++ (h.mesh.nodes ++ h.mesh.nodeOut).flatMap (·.2)

/-- Whether a write finished its ingress checks before E2 of the seal that a part runs: it is part of the snapshot (R391). -/
def Part.before (x : Part) (mp : MeshPkt) : Bool :=
  x.closing.any (fun c => ! c.verify && mp.checked.any (fun t => decide (t < c.tick))) && (x.state = .opened || x.state = .sealing)

/-- Whether such a write for the part is still under way. -/
def Hw.writesUnderWay (h : Hw) (x : Part) : Bool :=
  h.meshPackets.any (fun mp => decide (mp.pkt.ptype = 7 ∧ mp.pkt.job = x.job ∧ snapshotIdOf mp.pkt = x.snapshot) && x.before mp && x.ranks.any (·.1 = mp.pkt.src))

/-- SNAP_WRITE_RECEIVE (R391): the first row of Table 13.3 that applies. -/
def execSnapWriteReceive (node : Nat) : State → Out := atUnit node 8 <| onHw (fun _ h =>
  match h.nodeTake node 7 with
  | none => h
  | some (mp, h) =>
    let k := mp.pkt
    let o := snapOffsetOf k
    if k.len = 0 then h
    else match h.partOf k with
      | none => h.relaySnap node k
      | some (handle, x) =>
        let i := (x.entryOf k.src).getD 0
        let rec_ := o.testBit 47
        let low := o % 2 ^ 47
        if x.state ≠ .opened ∧ ¬ x.before mp then h.countM 11
        else if (rec_ ∧ ¬ x.buddy) ∨ (¬ rec_ ∧ x.shardBytes i < low + k.len) ∨ (rec_ ∧ recordArea x.ranks < low + k.len) then h.countM 12
        else
          let h := (h.countM 6).modPart handle (fun x =>
            let x := if rec_ then { x with record := memWriteList 0 x.record low k.payload }
              else { x with shards := memWriteList 0 x.shards (2 ^ 38 * i + low) k.payload }
            { x with received := if x.buddy then x.received + k.len else x.received })
          match x.mirror with
          | some a => h.mirrorCopy node handle a x k.src o k.payload
          | none => h)

/-- Whether a chunk of a part is failed. -/
def Part.isFailed (x : Part) (e : Nat × Nat) : Bool := x.allFailed || x.failed.contains e

/-- Check the digests of chunks before their first read since the seal (R399): the part with them checked, or with the failed ones marked. -/
def Part.checkChunks (x : Part) (l : List (Nat × Nat)) : Part :=
  let fresh := l.filter (fun e => ! x.checked.contains e)
  let wrong := fresh.filter x.differs
  { x with checked := x.checked ++ fresh, failed := x.failed ++ wrong.filter (fun e => ! x.failed.contains e), state := if wrong = [] then x.state else .damaged }

/-- SNAP_READ_RECEIVE (R399). (DEDUCED, log 93, unsafe.) -/
def execSnapReadReceive (node : Nat) : State → Out := atUnit node 8 <| onHw (fun _ h =>
  match h.nodeTake node 8 with
  | none => h
  | some (mp, h) =>
    let k := mp.pkt
    let o := snapOffsetOf k
    let low := o % 2 ^ 47
    let n := k.word 8
    match h.partOf k with
    | none => h.relaySnap node k
    | some (handle, x) =>
      let i := (x.entryOf k.src).getD 0
      let rec_ := o.testBit 47
      let touched := if rec_ ∨ n = 0 then [] else (List.range ((low + n - 1) / chunkBytes + 1 - low / chunkBytes)).map (fun c => (i, low / chunkBytes + c))
      if x.state ≠ .sealed ∧ x.state ≠ .damaged then h.relaySnap node k
      else if (if rec_ then x.recBytes else x.shardBytes i) < low + n ∨ 8192 < n then h.countM 12
      else if touched.any x.isFailed ∨ (rec_ ∧ x.allFailed) then h.relaySnap node k
      else
        let y := x.checkChunks touched
        let h := h.modPart handle (fun _ => y)
        if touched.any y.isFailed then
          ((h.raise 0x0802 [w32 handle, w32 y.failedCount]).countM 14).relaySnap node k
        else
          let b := if rec_ then memReadList 0 x.record low n else memReadList 0 x.shards (2 ^ 38 * i + low) n
          ((h.countM 13).nodeUnicast node (mkPkt (snapHdr 8 true n k.job k.src 0 (snapshotIdOf k) o) b)).1)

/-! ### The ends of seals and verifies (R394 to R396) -/

/-- A seal or verify ends in a state: its answer goes to the channel that waits. -/
def Hw.endClose (h : Hw) (handle : Nat) (c : Closing) : Hw :=
  let h := h.modPart handle (fun x => { x with closing := none })
  match c.ch, h.part? handle with
  | some ch, some x => h.reply ch stOk 0 x.closeOut
  | _, _ => h

/-- SNAPSHOT_SEALED names the state a seal has ended in. -/
def Hw.raiseSealed (h : Hw) (handle : Nat) : Hw :=
  match h.part? handle with
  | none => h
  | some x =>
    let b := if x.buddy then x.received else x.mirrored
    h.raise 0x0801 [w32 (handle + x.state.code * 2 ^ 8), w32 b, w32 (b / 2 ^ 32)]

/-- SNAPSHOT_SEAL_DONE (R394, R395): not before the writes already accepted are stored. The record goes to the buddy in copies of at most 8,192 bytes from the first node of the stack. -/
def execSnapshotSealDone (handle : Nat) : State → Out := onHw (fun _ h =>
  match h.part? handle with
  | none => h
  | some x => match x.closing with
    | none => h
    | some c =>
      if x.state = .damaged then h.endClose handle c
      else if x.state ≠ .sealing ∨ c.verify ∨ h.writesUnderWay x then h
      else if x.buddy then
        let h := match x.recordOk with
          | none => h.modPart handle (fun x => { x with state := .incomplete })
          | some n =>
            let x := { x with recBytes := n }
            let wrong := x.differing
            h.modPart handle (fun x => { x with recBytes := n, failed := wrong, state := if wrong = [] then .sealed else .damaged })
        (h.raiseSealed handle).endClose handle c
      else
        let b := x.makeRecord c.tick x.groups
        let h := h.modPart handle (fun x => { x with record := memWriteList 0 x.record 0 b, recBytes := b.length, state := .sealed })
        let h := match x.mirror with
          | none => h
          | some a => (List.range (cdiv b.length 8192)).foldl (fun h i =>
              h.mirrorCopy (4 * x.stack) handle a x (x.ranks.getD 0 (0, 0)).1 (2 ^ 47 + 8192 * i) ((b.drop (8192 * i)).take 8192)) h
        (h.raiseSealed handle).endClose handle c)

/-- SNAPSHOT_BUDDY_DEADLINE (R395): the bytes awaited are all there, or the wait is over. -/
def execSnapshotBuddyDeadline (handle : Nat) : State → Out := onHw (fun _ h =>
  match h.part? handle with
  | none => h
  | some x => match x.closing with
    | none => h
    | some c =>
      if x.state ≠ .opened then h
      else if x.received = c.expected ∨ (c.deadline ≤ h.time.tick ∧ c.expected ≤ x.received) then h.modPart handle (fun x => { x with state := .sealing })
      else if h.time.tick < c.deadline then h
      else ((h.modPart handle (fun x => { x with state := .incomplete })).raiseSealed handle).endClose handle c)

/-- SNAPSHOT_VERIFY_DONE (R396). -/
def execSnapshotVerifyDone (handle : Nat) : State → Out := onHw (fun _ h =>
  match h.part? handle with
  | none => h
  | some x => match x.closing with
    | none => h
    | some c =>
      if x.state = .damaged then h.endClose handle c
      else if x.state ≠ .sealing ∨ ¬ c.verify then h
      else
        let wrong := (x.differing).filter (fun e => ! x.failed.contains e)
        let all := x.allFailed || ! x.rootOk
        let h := h.modPart handle (fun x => { x with
          failed := x.failed ++ wrong, allFailed := all, state := if all ∨ x.failed ++ wrong ≠ [] then .damaged else .sealed })
        h.endClose handle c)

/-- SNAPSHOT_RECORD_READ (Table 13.12). -/
def execSnapshotRecordRead (ch : Nat) : State → Out := atUnit ch 16 <| onHw (fun _ h => h.answer ch 0x0805 (fun p =>
  let off := wnat p 1
  let n := fld p 2 11 0
  let counters := decide (fld p 0 8 8 = 1)
  let x := if counters then none else h.part? (fld p 0 5 0)
  let size := if counters then 64 else x.elim 0 (·.recBytes)
  if off % 4 ≠ 0 then h.refuse (stInvalid, 4)
  else if n % 4 ≠ 0 ∨ 4064 < n then h.refuse (stInvalid, 8)
  else if size < off + n then h.refuse (stInvalid, 4)
  else
    let head := match x with
      | some x => [w32 (x.state.code + b2n x.buddy * 2 ^ 8 + x.snapshot * 2 ^ 16), w32 x.job] ++ le64 x.recBytes
      | none => [0, 0, 0, 0]
    let data := if counters then (List.range (n / 4)).map (fun i => w32 (tget 0 h.mem.counters (off / 4 + i)))
      else x.elim [] (fun x => leWords (memReadList 0 x.record off n))
    (h, stOk, 0, head ++ data)))

/-! ### Lost words, wipes and the spare channel (R379, R380, R400) -/

/-- What can lose a word in a stack (Table 13.1): the spilled slot of a chunk, an echo entry, a chunk of a part. The firmware area is restored from the other stack. -/
inductive HbmItem where
  | slot (grp gen chunk : Nat) | echo (grp : Nat) (e : EchoEntry) | chunk (handle : Nat) (c : Nat × Nat)
  deriving DecidableEq, Repr

/-- The items a stack holds. -/
def Hw.hbmItems (h : Hw) (s : Nat) : List HbmItem :=
  h.groups.flatMap (fun (e : Nat × Group) => e.2.gens.flatMap (fun n =>
    (n.open_.filter (fun q => decide (tget? n.spilled q.2.addr = some s) && ! q.2.slotLost)).map (fun q => .slot e.1 n.no q.1)))
  ++ (h.mem.echo.filter (fun e => e.2.stack = s)).flatMap (fun (e : Nat × EchoRegion) => e.2.entries.map (.echo e.1 ·))
  ++ (h.mem.parts.filter (fun e => e.2.stack = s)).flatMap (fun (e : Nat × Part) => e.2.chunks.map (.chunk e.1 ·))

/-- A word of a stack is lost: which one is open, and it may lie in no item. (DESIGN CHOICE, log 134, safe.) -/
def Hw.loseWord (h : Hw) (s : Nat) : Hw :=
  let items := h.hbmItems s
  let (h, q) := h.draw
  match items[q % (items.length + 1)]? with
  | none => h
  | some (.slot g no k) => h.loseSlots (fun g' n k' _ => decide (g' = g ∧ n.no = no ∧ k' = k))
  | some (.echo g e) => h.modEcho g (fun r => { r with entries := r.entries.erase e })
  | some (.chunk p c) => h.modPart p (fun x => { x with lost := if x.lost.contains c then x.lost else x.lost ++ [c], checked := x.checked.filter (· ≠ c) })

/-- HBM_WIPE_DONE (R400): the first wipe of a region or part on a stack ends. (DEDUCED, log 95, unsafe.) -/
def execHbmWipeDone (stack : Nat) : State → Out := atUnit stack 2 <| onHw (fun _ h =>
  match (h.stack stack).wiping with
  | _ :: rest => h.modStack stack (fun k => { k with wiping := rest })
  | [] => match h.mem.parts.find? (fun e => e.2.stack = stack ∧ e.2.state = .deleting) with
    | some e => h.modMem (fun m => { m with parts := tdel m.parts e.1 })
    | none => h)

/-- HBM_SPARE_COPY_DONE (R380): the copy of a fenced channel into the spare ends. -/
def execHbmSpareCopyDone (stack : Nat) : State → Out := atUnit stack 2 <| onHw (fun _ h => h.modStack stack (fun k => { k with copying := none }))

end Sys2Proof.Machine
end

