-- ==== Sys2Proof/Machine/Shaping.lean ====
section
/-!
DEFINITION. Counted length, shapers, meters, the port scheduler and the shaping commands (R189 to R210).
-/

namespace Sys2Proof.Machine
open Sys2Proof

/-! ### Counted length and buckets (R189, R191, R203) -/

/-- The counted length of a packet at a port. -/
def Port.counted (x : Port) (k : Pkt) : Nat := (68 + (k.len : Int) + x.overhead).toNat

/-- INCREMENT of a rate, in units of 2^-16 byte. -/
def increment (rate mult : Nat) : Nat := 400 * rate * mult

/-- Take the committed settings of a queue at the refill of slot 1 (R193, R199). -/
def Queue.settle (q : Queue) : Queue :=
  let q := match q.nextShaper with
    | some s => { q with
        shaper := s, nextShaper := none,
        tokens := if s.enable ∧ ¬ q.shaper.enable then (s.burst : Int) * 65536 else min q.tokens ((s.burst : Int) * 65536) }
    | none => q
  match q.nextQuantum with
  | some n => { q with quantum := n, nextQuantum := none, deficit := min q.deficit (n + 8515) }
  | none => q

/-- One refill of a queue's bucket (R191). -/
def Queue.refill (q : Queue) (mult : Nat) : Queue :=
  { q with tokens := min ((q.shaper.burst : Int) * 65536) (q.tokens + (increment q.shaper.rate mult : Int)) }

/-- Take the committed settings of a meter; one that was never set starts full (R203). -/
def Meter.settle (m : Meter) : Meter :=
  match m.next with
  | some c =>
    { m with
      cfg := c, next := none, used := true,
      tc := if m.used then min m.tc (c.cbs * 65536) else c.cbs * 65536, tp := if m.used then min m.tp (c.pbs * 65536) else c.pbs * 65536 }
  | none => m

def Meter.refill (m : Meter) (mult : Nat) : Meter :=
  { m with tc := min (m.cfg.cbs * 65536) (m.tc + increment m.cfg.cir mult), tp := min (m.cfg.pbs * 65536) (m.tp + increment m.cfg.pir mult) }

/-- A slot start at one port: at slot 1 the committed settings apply, then every bucket refills; the held slots are counted (Table 7.8). -/
def Hw.refillPort (slot : Nat) (h : Hw) (p : Nat) : Hw :=
  let mult := h.time.mult
  let c := h.home p
  let held := (h.port p).link.held
  h.modPort p (fun x =>
    let x := if slot = 1 then { x with
        overhead := x.nextOverhead.getD x.overhead, nextOverhead := none,
        classQuantum := x.nextClassQuantum.getD x.classQuantum, nextClassQuantum := none,
        meterMap := x.nextMeterMap.getD x.meterMap, nextMeterMap := none,
        classDeficit := match x.nextClassQuantum with
          | some q => (min x.classDeficit.1 (q.1 + 8515), min x.classDeficit.2 (q.2 + 8515))
          | none => x.classDeficit }
      else x
    { x with
      queues := x.queues.map (fun e =>
        let q := (if slot = 1 then e.2.settle else e.2).refill mult
        let lacks := match q.entries with
          | d :: _ => (match h.entryPkt c d with | some k => decide (held.getD k.cls 0 < (k.cells : Int)) | none => false)
          | [] => false
        (e.1, { q with
          shaperHeld := if q.entries ≠ [] ∧ q.tokens ≤ 0 then sat64 (q.shaperHeld + 1) else q.shaperHeld,
          creditHeld := if lacks then sat64 (q.creditHeld + 1) else q.creditHeld }))
      meters := x.meters.map (fun e => (e.1, (if slot = 1 then e.2.settle else e.2).refill mult)) })

/-- SHAPER_REFILL at every slot start (R191). -/
def Hw.refillAll (h : Hw) (slot : Nat) : Hw := (h.ports.map (·.1)).foldl (Hw.refillPort slot) h

/-! ### Meters (R201, R202, R204) -/

/-- Colours: 0 green, 1 yellow, 2 red. -/
def Meter.judge (m : Meter) (colour len : Nat) : Meter × Nat :=
  let l := len * 65536
  if m.tp < l then (m, 2)
  else if (m.cfg.aware ∧ colour ≠ 0) ∨ m.tc < l then ({ m with tp := m.tp - l }, 1)
  else ({ m with tc := m.tc - l, tp := m.tp - l }, 0)

/-- The meter check of a packet at its ingress port (Table 5.1, check 3): the port and packet after it, or none when it is dropped. -/
def Hw.meterCheck (h : Hw) (p : Nat) (k : Pkt) : Hw × Option Pkt :=
  let x := h.port p
  let w := tget 0 x.meterMap k.job
  if ¬ w.testBit 7 then (h, some k)
  else
    let n := w % 64
    let (m, col) := (x.meter n).judge k.colour (x.counted k)
    let drop := decide (col = 2 ∧ (k.cls = 0 ∨ k.cls = 3))
    let m := { m with
      green := if col = 0 then sat64 (m.green + 1) else m.green, yellow := if col = 1 then sat64 (m.yellow + 1) else m.yellow,
      redDrop := if drop then sat64 (m.redDrop + 1) else m.redDrop, redPass := if col = 2 ∧ ¬ drop then sat64 (m.redPass + 1) else m.redPass }
    let h := h.modPort p (fun x => { x with meters := tput x.meters n m })
    if drop then (h.count p 18, none) else (h, some (k.setColour (min col 1)))

/-! ### The port scheduler (R192, R196 to R198) -/

/-- The head packet of queue q at a port. -/
def Hw.headPkt (h : Hw) (p q : Nat) : Option Pkt := (((h.port p).queue q).entries.head?).bind (h.entryPkt (h.home p))

/-- Whether a queue is eligible (R196). -/
def Hw.eligible (h : Hw) (p q : Nat) : Bool :=
  match h.headPkt p q with
  | none => false
  | some k =>
    let u := (h.port p).queue q
    (¬ u.shaper.enable || decide (0 < u.tokens)) && decide ((k.cells : Int) ≤ (h.port p).link.held.getD k.cls 0)

/-- The order of a class's queues from its round pointer. -/
def fromPointer (cls ptr : Nat) : List Nat := (List.range 16).map (fun i => 16 * cls + (ptr + i) % 16)

/-- Deficit round robin among the active queues of a class (R197): the loop the hardware resolves within one selection. The result is the port with its
new deficits and pointer, and the queue. -/
def drrLoop (cls : Nat) (len : Nat → Nat) (active : Nat → Bool) : Nat → Port → Option (Port × Nat)
  | 0, _ => none
  | n + 1, x =>
    let ptr := tget 0 x.rrPtr cls
    match (fromPointer cls ptr).find? active with
    | none => none
    | some q =>
      let x := x.modQueue q (fun u => if u.fresh then { u with deficit := min (u.deficit + u.quantum) (u.quantum + 8515), fresh := false } else u)
      if len q ≤ (x.queue q).deficit then
        some ({ x.modQueue q (fun u => { u with deficit := u.deficit - len q }) with rrPtr := tput x.rrPtr cls (q % 16) }, q)
      else drrLoop cls len active n { x.modQueue q (fun u => { u with fresh := true }) with rrPtr := tput x.rrPtr cls ((q % 16 + 1) % 16) }

/-- Select in one class: the active list by deficit round robin, else the background list in turn. -/
def Hw.selectClass (h : Hw) (p cls : Nat) (x : Port) : Option (Port × Nat) :=
  let len (q : Nat) : Nat := match h.headPkt p q with | some k => x.counted k | none => 0
  let active (q : Nat) : Bool := h.eligible p q && decide ((x.queue q).quantum ≠ 0)
  let back (q : Nat) : Bool := h.eligible p q && decide ((x.queue q).quantum = 0)
  match (fromPointer cls 0).find? active with
  | some _ => drrLoop cls len active (17 * 8516) x
  | none =>
    ((fromPointer cls (tget 0 x.bgPtr cls)).find? back).map (fun q => ({ x with bgPtr := tput x.bgPtr cls ((q % 16 + 1) % 16) }, q))

def Port.classQ (x : Port) (c : Nat) : Nat := if c = 0 then x.classQuantum.1 else x.classQuantum.2
def Port.classD (x : Port) (c : Nat) : Nat := if c = 0 then x.classDeficit.1 else x.classDeficit.2
def Port.setClass (x : Port) (c d : Nat) (f : Bool) : Port :=
  if c = 0 then { x with classDeficit := (d, x.classDeficit.2), classFresh := (f, x.classFresh.2) }
  else { x with classDeficit := (x.classDeficit.1, d), classFresh := (x.classFresh.1, f) }

/-- Deficit round robin between TC0 and TC1 (R198). -/
def Hw.classLoop (h : Hw) (p : Nat) : Nat → Port → Option (Port × Nat)
  | 0, _ => none
  | n + 1, x =>
    let has (c : Nat) : Bool := (h.selectClass p c x).isSome && decide (x.classQ c ≠ 0)
    let c := if has x.classPtr then x.classPtr else 1 - x.classPtr
    if ¬ has c then none
    else
      let fresh := if c = 0 then x.classFresh.1 else x.classFresh.2
      let d := if fresh then min (x.classD c + x.classQ c) (x.classQ c + 8515) else x.classD c
      match h.selectClass p c x with
      | none => none
      | some (x', q) =>
        let l := match h.headPkt p q with | some k => x.counted k | none => 0
        if l ≤ d then some ({ x'.setClass c (d - l) false with classPtr := c }, q)
        else h.classLoop p n { x.setClass c d true with classPtr := 1 - c }

/-- The selection order of Table 7.1. -/
def Hw.selectQueue (h : Hw) (p : Nat) : Option (Port × Nat) :=
  let x := h.port p
  ((h.selectClass p 2 x).or (h.selectClass p 3 x)).or
    ((h.classLoop p (17 * 8516) x).or ((h.selectClass p 0 x).or (h.selectClass p 1 x)))

/-- A queue, or a class of level 3, that has become empty loses its deficit and is fresh (R197, R198). -/
def Port.emptied (x : Port) (q : Nat) : Port :=
  if (x.queue q).entries ≠ [] then x
  else
    let x := x.modQueue q (fun u => { u with deficit := 0, fresh := true })
    if 32 ≤ q ∨ ¬ (List.range 16).all (fun i => (x.queue (16 * (q / 16) + i)).entries = []) then x else x.setClass (q / 16) 0 true

/-- An entry at dequeue on a port whose winnow bit is set is discarded (R144); glean messages from firmware are the exception. -/
def Hw.discardWinnowed (h : Hw) (p : Nat) : Hw :=
  if ¬ h.winnowed p then h
  else
    let c := h.home p
    ((h.port p).queues.map (·.1)).foldl (fun h q =>
      let gone := ((h.port p).queue q).entries.takeWhile (fun e => ¬ e.glean)
      let h := h.modPort p (fun x => (x.modQueue q (fun u => { u with entries := u.entries.drop gone.length })).emptied q)
      gone.foldl (fun h e => (h.dropInjected c e.ptr (egressOwner p) (some p)).count p 23) h) h

/-- The selected packet leaves its queue (R192, R197, R113): the bucket and the credits are charged, its reference drops, and it waits to be framed. -/
def Hw.takeHead (h : Hw) (p q : Nat) : Hw :=
  let c := h.home p
  match ((h.port p).queue q).entries with
  | [] => h
  | e :: rest =>
    match (if h.ptrOk c e.ptr then h.buf? c e.ptr else none) with
    | none => (h.modPort p (fun x => (x.modQueue q (fun u => { u with entries := rest })).emptied q)).badPtr c e.ptr (some p)
    | some b =>
      let k := b.pkt
      let l := (h.port p).counted k
      let h := h.modPort p (fun x =>
        let x := (x.modQueue q (fun u => { u with
          entries := rest, tokens := if u.shaper.enable then u.tokens - (l : Int) * 65536 else u.tokens,
          txPackets := sat64 (u.txPackets + 1), txBytes := sat64 (u.txBytes + l) })).emptied q
        { x with link := { x.link with
          txPkts := x.link.txPkts ++ [{ pkt := k, rest := k.unitBytes }],
          held := lmod 0 x.link.held k.cls (· - (k.cells : Int)), outstanding := lmod 0 x.link.outstanding k.cls (· + k.cells) } })
      h.dropInjected c e.ptr (egressOwner p) (some p)

/-- The scheduler selects one packet, if one is eligible; in the safe state no packet starts (R196, R467). -/
def Hw.selectOne (h : Hw) (p : Nat) : Hw :=
  let h := h.discardWinnowed p
  if ¬ (h.port p).link.up ∨ h.faults.state = .safe then h
  else match h.selectQueue p with
    | none => h
    | some (x, q) => (h.setPort p x).takeHead p q

/-- PACKET_SELECT (R196): when no packet is in progress the link layer can start one. -/
def execPacketSelect (port : Nat) : State → Out := atUnit port 264 <| onHw (fun _ h =>
  if h.inLehr then h else if (h.port port).link.txPkts ≠ [] then h.discardWinnowed port else h.selectOne port)

/-- The units that the packets selected still fill. -/
def Link.waiting (k : Link) : Nat := (k.txPkts.map (fun t => cdiv t.rest.length 64)).sum

/-- Each time a packet ends in the block that is framed, with room for another to start, the scheduler selects (R105, R196). (DEDUCED, log 33, unsafe.) -/
def Hw.selectFor : Nat → Hw → Nat → Nat → Hw
  | 0, h, _, _ => h
  | n + 1, h, p, room =>
    if room ≤ (h.port p).link.waiting then h
    else
      let h' := h.selectOne p
      if (h'.port p).link.txPkts = (h.port p).link.txPkts then h' else Hw.selectFor n h' p room

/-- The units of a port's next block that are not unit 0 of a marker or a notice. -/
def Hw.roomInBlock (h : Hw) (p : Nat) : Nat :=
  let k := (h.port p).link
  if (k.sendMarker ∧ ¬ h.isV16 p) ∨ k.sendNotice ≠ 0 then 63 else 64

/-- LINK_BLOCK_TRANSMIT (R104): a port that is up and awake sends its next block, for which packets are selected as the ones before them end; a replay that waits goes first, by
LINK_REPLAY. A port that begins a retrain sends its RETRAIN_REQUEST (R415). -/
def execLinkBlockTransmit (port : Nat) : State → Out := atUnit port 264 <| onHw (fun _ h =>
  let k := (h.port port).link
  let l := (h.port port).lanes
  if h.inLehr ∨ l.txAsleep ∨ (k.up ∧ k.replayFrom.isSome) then h
  else if k.up then ((if k.kept.length < 512 then h.selectFor 64 port (h.roomInBlock port) else h).sendBlock port)
  else if k.sendNotice = 2 then h.sendBlock port
  else h)

/-! ### Shaping commands (Tables 7.3 to 7.9) -/

/-- OVERHEAD, signed in nine bits. -/
def overheadOf (p : List Word) : Int := if 256 ≤ fld p 0 24 16 then (fld p 0 24 16 : Int) - 512 else fld p 0 24 16

/-- What SCHEDULER_SET checks of its payload, beyond the envelope (R53). -/
def failSchedulerSet (_fz : Fuses) (_h : Hw) (_ch : Nat) (p : List Word) (_bulk : List Byte) : Option Fail :=
  firstFail [checkPortOnly p, failIf (overheadOf p < -64) (bad 0), failIf (fld p 1 23 0 = 0 ∧ fld p 2 23 0 = 0) (bad 8)]

/-- SCHEDULER_SET (R198). -/
def execSchedulerSet (ch : Nat) : State → Out := atUnit ch 16 <| onHw (fun fz h => h.configure ch 0x0401 (failSchedulerSet fz h ch))

def applyScheduler (h : Hw) (p : List Word) : Hw :=
  h.modPort (fld p 0 8 0) (fun x => { x with nextOverhead := some (overheadOf p), nextClassQuantum := some (fld p 1 23 0, fld p 2 23 0) })

/-- What SHAPER_SET checks of its payload, beyond the envelope (R53). -/
def failShaperSet (_fz : Fuses) (_h : Hw) (_ch : Nat) (p : List Word) (_bulk : List Byte) : Option Fail :=
  firstFail [checkPortOnly p, failIf (48 ≤ fld p 0 21 16 ∧ fld p 0 31 31 = 0) (bad 0), failIf (800000 < fld p 1 19 0) (bad 4)]

/-- SHAPER_SET (R191, R194). -/
def execShaperSet (ch : Nat) : State → Out := atUnit ch 16 <| onHw (fun fz h => h.configure ch 0x0402 (failShaperSet fz h ch))

def applyShaper (h : Hw) (p : List Word) : Hw :=
  h.modPort (fld p 0 8 0) (fun x => x.modQueue (fld p 0 21 16) (fun q => { q with
    nextShaper := some { enable := fld p 0 31 31 = 1, rate := fld p 1 19 0, burst := fld p 2 23 0 } }))

/-- What METER_SET checks of its payload, beyond the envelope (R53). -/
def failMeterSet (_fz : Fuses) (_h : Hw) (ch : Nat) (p : List Word) (bulk : List Byte) : Option Fail :=
  firstFail [checkPortOnly p, failIf (800000 < fld p 1 19 0) (bad 4), failIf (800000 < fld p 2 19 0) (bad 8),
    failIf (bulk.any (fun b => b.getLsbD 6)) (bad 20), failIf (wnat p 6 ≠ 0 ∧ (wnat p 6 ≠ 4096 ∨ 12 ≤ ch)) (bad 24)]

/-- METER_SET (R202). -/
def execMeterSet (ch : Nat) : State → Out := atUnit ch 16 <| onHw (fun fz h => h.configure ch 0x0403 (failMeterSet fz h ch))

def applyMeter (h : Hw) (s : Staged) : Hw :=
  let p := s.words
  let c : MeterCfg := { aware := fld p 0 30 30 = 1, cir := fld p 1 19 0, pir := fld p 2 19 0, cbs := fld p 3 23 0, pbs := fld p 4 23 0 }
  h.modPort (fld p 0 8 0) (fun x => { x with
    meters := tmod {} x.meters (fld p 0 21 16) (fun m => { m with next := some c }),
    nextMeterMap := if wnat p 6 = 0 then x.nextMeterMap
      else some ((List.range 4096).filterMap (fun j => let b := (s.bulk.getD j 0).toNat; if b = 0 then none else some (j, b))) })

/-- Pair 0x0401 at a port: CIR at most PIR for every meter that some job uses. -/
def pairMeters (h : Hw) (port : Nat) : Option Nat :=
  let x := h.port port
  if (x.nextMeterMap.getD x.meterMap).any (fun e => e.2.testBit 7 && (let m := x.meter (e.2 % 64); let c := m.next.getD m.cfg; decide (c.pir < c.cir))) then some 0x0401 else none

/-- What JOB_SHARE_SET checks of its payload, beyond the envelope (R53). -/
def failJobShareSet (_fz : Fuses) (_h : Hw) (_ch : Nat) (p : List Word) (_bulk : List Byte) : Option Fail := checkPortOnly p

/-- JOB_SHARE_SET (R205). -/
def execJobShareSet (ch : Nat) : State → Out := atUnit ch 16 <| onHw (fun fz h => h.configure ch 0x0404 (failJobShareSet fz h ch))

def applyJobShare (h : Hw) (p : List Word) : Hw :=
  h.modPort (fld p 0 8 0) (fun x => (List.range 4).foldl (fun x t =>
    x.modQueue (16 * t + fld p 0 19 16) (fun q => { q with nextQuantum := some (fld p (1 + t) 23 0) })) x)

/-- SHAPING_COUNTERS_READ (R207, Table 7.8). -/
def execShapingCountersRead (ch : Nat) : State → Out := atUnit ch 16 <| onHw (fun _ h => h.answer ch 0x0405 (fun p =>
  match checkPortOnly p with
  | some f => h.refuse f
  | none =>
    let port := fld p 0 8 0
    let i := fld p 0 23 18
    let clear := decide (fld p 0 16 16 = 1)
    let head := le64 h.time.tick
    if fld p 0 17 17 = 0 then
      let q := (h.port port).queue i
      let out := head ++ le64 q.txPackets ++ le64 q.txBytes ++ le64 q.shaperHeld ++ le64 q.creditHeld
        ++ le64 ((q.tokens / 65536) % (2 ^ 64 : Int)).toNat ++ le64 q.deficit
      (if clear then h.modPort port (fun x => x.modQueue i (fun q => { q with txPackets := 0, txBytes := 0, shaperHeld := 0, creditHeld := 0 })) else h,
       stOk, 0, out)
    else
      let m := (h.port port).meter i
      let out := head ++ le64 m.green ++ le64 m.yellow ++ le64 m.redDrop ++ le64 m.redPass ++ le64 (m.tc / 65536) ++ le64 (m.tp / 65536)
      (if clear then h.modPort port (fun x => { x with meters := tmod {} x.meters i (fun m => { m with green := 0, yellow := 0, redDrop := 0, redPass := 0 }) })
       else h, stOk, 0, out)))

end Sys2Proof.Machine
end

