-- ==== Sys2Proof/Machine/Ingress.lean ====
section
/-!
DEFINITION. A packet stored whole at its ingress complex: the buffer it takes, the checks of Table 5.1 in their order, and its way on (R117 to R122,
R132, R142, R262, R264, R386, R491).
-/

namespace Sys2Proof.Machine
open Sys2Proof

/-- A packet finds its buffer in the ingress reserve, else in the shared part (R117, R132). -/
def Hw.allocIngress (h : Hw) (p : Nat) (k : Pkt) : Option (Hw × Nat) :=
  let c := h.home p
  let b : Buf := { pkt := k, cls := 0, owner := ingressOwner p, reserve := true, epoch := h.mesh.injEpoch, ingress := p }
  (h.alloc c b).or (h.alloc c { b with reserve := false })

/-- Whether a port is in the window of a move: from its start until the partner has echoed the limits of the new home (R145; the end of the window is
the model's reading). (DEDUCED, log 35, unsafe.) -/
def Hw.moveWindow (h : Hw) (p : Nat) : Bool := decide ((h.port p).move ≠ .none) || (h.port p).window

/-- The stored packet with the EPOCH and colour its checks gave it (R119, R204). -/
def Hw.restore (h : Hw) (c ptr : Nat) (k : Pkt) : Hw := h.modBuf c ptr (fun b => { b with pkt := k })

/-- A drop: the buffer and the cells are freed, and the counter of the port takes it. -/
def Hw.dropAt (h : Hw) (p c ptr i : Nat) : Hw := (h.dropStored c ptr (ingressOwner p)).count p i

/-- A packet of a job whose rollback flushes it (R491). -/
def Hw.countStale (h : Hw) (g job : Nat) : Hw := (h.countG g 1).modJob job (fun s => { s with stale := sat32 (s.stale + 1) })

/-- The memory node that serves a packet: the node of the chunk or offset in the stack of its region or part; node 0 of HBM0
when there is none (R378, R391, R399; the model's choice). -/
def Hw.nodeOf (h : Hw) (k : Pkt) : Nat :=
  if k.ptype = 9 then (match tget? h.mem.echo k.grp with | some r => 4 * r.stack + k.chunk % 4 | none => 0)
  else match h.partOf k with | some (_, x) => 4 * x.stack + snapOffsetOf k / 2048 % 4 | none => 0

/-- A stored packet goes to its memory node; with none that serves it is dropped, NO_ROUTE. (DESIGN CHOICE, log 131, unsafe.) -/
def Hw.toNode (h : Hw) (p c ptr : Nat) (k : Pkt) (b : MeshPkt) : Hw :=
  match h.nodeLocation b.epoch (h.nodeOf k) with
  | some l => h.modCx c (fun x => { x with inject := x.inject ++ [{ ptr := some ptr, parts := meshParts (meshUnicast { b with checked := some h.time.tick } l 0 false) }] })
  | none => h.dropAt p c ptr 19

/-- A stored packet goes to a port. -/
def Hw.sendStored (h : Hw) (p c ptr : Nat) (k : Pkt) (b : MeshPkt) : Hw :=
  match h.route b.epoch p k with
  | (h, .inl i) => h.dropAt p c ptr i
  | (h, .inr q) => h.forward c ptr b (portMask [q]) false false

/-- Checks 4 to 6 and the way on, by packet type (Table 5.2). -/
def Hw.ingressOn (h : Hw) (p c ptr : Nat) (k : Pkt) : Hw :=
  let e := k.epoch
  let b := meshBase k e (cxRouter c) k.job p
  if k.mcast ∧ k.ptype ≠ 1 ∧ k.ptype ≠ 3 ∧ k.ptype ≠ 4 then h.dropAt p c ptr 21
  else if k.mcast then
    match h.sheafMask e p k with
    | (h, .inl i) => h.dropAt p c ptr i
    | (h, .inr (m, line)) => h.forward c ptr b m true line
  else if k.ptype = 2 then
    match h.grp? k.grp with
    | none => h.sendStored p c ptr k b
    | some x => match h.contribFail x k (some p) with
      | some i =>
        let h := h.dropStored c ptr (ingressOwner p)
        if i = 1 ∧ (h.job k.job).running.isSome then h.countStale k.grp k.job else h.countG k.grp i
      | none => match h.buf? c ptr with
        | some buf => h.contribOn c ptr (ingressOwner p) b buf
        | none => h
  else if k.ptype = 9 ∨ k.ptype = 7 ∨ (k.ptype = 8 ∧ ! k.reply) then
    if k.ptype = 9 ∧ (h.job k.job).running.isSome then (h.dropStored c ptr (ingressOwner p)).countStale k.grp k.job
    else if k.ptype = 9 ∧ h.echoRejected k p then (h.dropStored c ptr (ingressOwner p)).countM 5
    else h.toNode p c ptr k b
  else h.sendStored p c ptr k b

/-- A packet other than GLEAN and LINKMGMT at its ingress port. (DEDUCED, log 109, unsafe.) -/
def Hw.ingress (h : Hw) (p : Nat) (k : Pkt) : Hw :=
  let c := h.home p
  let credit := h.linkCheck p k
  if credit = some 12 then (h.count p 12).freeCells p k.cls k.cells
  else match h.allocIngress p k with
    | none => (h.count p (if h.moveWindow p then 32 else 12)).freeCells p k.cls k.cells
    | some (h, ptr) => match credit with
      | some i => h.dropAt p c ptr i
      | none =>
        if (h.port p).glean.state = 4 then h.dropAt p c ptr 16
        else if ¬ h.admits p k.job then h.dropAt p c ptr 17
        else match h.meterCheck p k with
          | (h, none) => h.dropStored c ptr (ingressOwner p)
          | (h, some k) =>
            let k := k.setEpoch h.mesh.injEpoch
            (h.restore c ptr k).ingressOn p c ptr k

/-- PACKET_RECEIVE (R117, R118): the last byte of a packet is stored at a port that is up. -/
def execPacketReceive (port : Nat) (pkt : Pkt) : State → Out := atUnit port 264 <| onHw (fun fz h =>
  if h.inLehr ∨ ¬ (h.port port).link.up then h
  else
    let h := h.arrive port pkt
    if pkt.ptype = 6 then h.recvParams port pkt
    else if pkt.ptype = 5 then h.recvGlean fz.deviceUid port pkt
    else h.ingress port pkt)

end Sys2Proof.Machine
end

