-- ==== Sys2Proof/Machine/Rings.lean ====
section
/-!
DEFINITION. Ring plans and the loss of a ring's partials (R291 to R317).
-/

namespace Sys2Proof.Machine
open Sys2Proof

/-- The plan of a RING_PLAN_SET request (Table 10.7). -/
def ringPlanOf (p : List Word) : RingPlan :=
  { image := p, id := fld p 1 15 0, slack := fld p 1 23 16, anchor := fld p 2 15 0, owners := fld p 2 24 16,
    axes := (List.range (fld p 0 18 16)).map (fun a => {
      ring := fld p 0 (20 + a) (20 + a) = 1, length := fld p (3 + a) 8 0, pos := fld p (3 + a) 23 16,
      up := fld p (7 + 2 * a) 15 0, down := fld p (7 + 2 * a) 31 16, downGrp := fld p (8 + 2 * a) 12 0 }) }

/-- The checks of a request's fields (R292, Table 10.7). -/
def checkRingFields (p : List Word) : Option Fail :=
  let r := ringPlanOf p
  let d := fld p 0 18 16
  firstFail ([failIf (d = 0 ∨ 4 < d ∨ fld p 0 23 20 = 0) (bad 0), failIf (r.slack = 0) (bad 4), failIf (r.owners = 0 ∨ 256 < r.owners) (bad 8)]
    ++ (List.range d).map (fun a =>
      let x := r.axis a
      failIf (x.length = 0 ∨ 256 < x.length ∨ (x.ring ∧ (x.length < 2 ∨ x.length ≤ x.pos)) ∨ (¬ x.ring ∧ x.pos ≠ 0)) (bad (12 + 4 * a)))
    ++ [failIf (65536 < (r.axes.map (·.length)).foldl (· * ·) 1) (bad 12)])

/-- The hardware with a context and a plan as a request asks for them. -/
def Hw.withPlan (h : Hw) (ch : Nat) (p : List Word) : Hw :=
  let g := fld p 0 12 0
  match h.stagedGroup ch g with
  | some x => { h with groups := tput h.groups g { x with plan := some (ringPlanOf p) } }
  | none => h

/-- The member contexts of one ring group, the unit of admission (R307). -/
def Hw.ringUnit (h : Hw) (id : Nat) : List (Nat × Group) := h.groups.filter (fun e => e.2.plan.any (fun r => decide (r.id = id)) ∧ e.2.state ≠ .closed)

/-- Granules and descriptors by complex of one generation of each context of a list. -/
def Hw.unitParts (h : Hw) (l : List (Nat × Group)) : Tbl (Nat × Nat) :=
  l.foldl (fun t e => (h.pipeline e.1 e.2 (h.genNow e.1 e.2 e.2.admitted)).foldl (fun t q =>
    tmod (0, 0) t (locCx (h.locate h.mesh.injEpoch q.1)) (fun v => (v.1 + q.2.1, v.2 + q.2.2))) t) []

/-- What RING_PLAN_SET checks of its payload, beyond the envelope (R53). -/
def failRingPlanSet (_fz : Fuses) (h : Hw) (ch : Nat) (p : List Word) (_bulk : List Byte) : Option Fail :=
  let g := fld p 0 12 0
  match h.stagedGroup ch g with
  | none => bad 0
  | some x =>
    firstFail [checkRingFields p,
      failIf (x.plan.isSome ∨ (h.chan ch).staging.any (fun s => s.opcode = 0x0601 ∧ fld s.words 0 12 0 = g)) (bad 0),
      failIf (¬ x.cfg.gather ∧ ¬ [0, 1, 2, 13].contains x.cfg.arith.input) (bad 0)]

/-- What the response of RING_PLAN_SET carries. -/
def outRingPlanSet (h : Hw) (ch : Nat) (p : List Word) : List Word :=
  let g := fld p 0 12 0
  let r := ringPlanOf p
  let h' := h.withPlan ch p
  let stage := (List.range 144).map (fun c => (h'.grp? g).elim 0 (h'.stagingReserve g c))
  let unit := (h'.unitParts (h'.ringUnit r.id)).map (·.2.1)
  [w32 r.index, w32 r.members, w32 (stage.foldl max 0 + (unit.foldl max 0) * 2 ^ 16)]

/-- RING_PLAN_SET (R315). -/
def execRingPlanSet (ch : Nat) : State → Out := atUnit ch 16 <| onHw (fun fz h => h.configure ch 0x0601 (failRingPlanSet fz h ch) (outRingPlanSet h ch))

def applyRingPlan (h : Hw) (p : List Word) : Hw := h.modGrp (fld p 0 12 0) (fun x => { x with plan := some (ringPlanOf p), axes := [], mismatch := 0, heldOut := 0 })

/-- What the contexts of one ring group must share (pair 0x0603). -/
def ringShape (x : Group) (r : RingPlan) : List Nat × ArithCfg :=
  ([r.axes.length, r.slack, r.owners, b2n x.cfg.gather, x.cfg.chunks, x.cfg.shard, x.cfg.perTick, x.cfg.prio, x.cfg.size]
    ++ r.axes.flatMap (fun a => [b2n a.ring, a.length]), x.cfg.arith)

/-- Whether the PARTIAL entries of a member context are as R293 has them: OWNER and WEIGHT zero, CONTRIB one in a reduce-scatter and zero in an all-gather. A commit that finds another
entry fails pair 0x0604, whose entries these are. (DEDUCED, log 22, unsafe.) -/
def partialEntries (c : GroupCfg) : Bool := c.members.all (fun m => ! m.part || (! m.owner && decide (m.weight = 0) && m.contrib != c.gather))

/-- The pairs of Table 10.9 for one context; `created` says whether its GROUP_CREATE is in the same set. -/
def pairRing (after : Hw) (g : Nat) (created : Bool) : Option Nat :=
  match (after.grp? g).bind (fun x => x.plan.map (fun r => (x, r))) with
  | none => none
  | some (x, r) =>
    let unit := (after.ringUnit r.id).filterMap (fun e => e.2.plan.map (fun q => (e.1, e.2, q)))
    let parts := ((x.cfg.members.filter (·.part)).map (·.rank))
    if ¬ created then some 0x0601
    else if x.cfg.depth < x.cfg.patience + r.slack + 2 then some 0x0602
    else if unit.any (fun e => e.1 ≠ g && (decide (ringShape e.2.1 e.2.2 ≠ ringShape x r) || decide (e.2.2.index = r.index))) then some 0x0603
    else if r.owners ≠ x.cfg.owners.length ∨ parts ≠ r.rings ∨ ¬ partialEntries x.cfg ∨ x.cfg.shard * r.owners * r.members < x.cfg.chunks then some 0x0604
    else if ¬ after.stagingFits then some 0x0605
    else
      let need := after.unitParts (after.ringUnit r.id)
      let room := if x.cfg.spill then max (after.spillTotal 0) (after.spillTotal 1) else 0
      if need.any (fun e => decide ((768 < e.2.1 ∧ room < e.2.1) ∨ (768 < e.2.2 ∧ room = 0))) then some 0x0605 else none

/-- RING_STATUS_GET (Table 10.8). -/
def execRingStatusGet (ch : Nat) : State → Out := atUnit ch 16 <| onHw (fun _ h => h.answer ch 0x0602 (fun p =>
  match (h.grp? (fld p 0 12 0)).bind (fun x => x.plan.map (fun r => (x, r))) with
  | none => h.refuse (stInvalid, 0)
  | some (x, r) =>
    (h, stOk, 0, [w32 (r.id + b2n x.ringLost * 2 ^ 16), w32 r.index, w32 x.mismatch, w32 x.heldOut]
      ++ (List.range 4).flatMap (fun a =>
        let c := tget {} x.axes a
        [w32 c.heard, w32 c.got, w32 c.sent, w32 c.halfB]))))

/-- An axis of an ACTIVE or DRAINING context has been silent for PATIENCE + RING_SLACK while a chunk of the current generation awaits its partial: at that E5 R305 acts (R304). -/
def Hw.ringSilent (grp : Nat) (h : Hw) (axis : Nat) : Hw :=
  match (h.grp? grp).bind (fun x => x.plan.bind (fun r => (x.gen? x.current).map (fun n => (x, r, n)))) with
  | none => h
  | some (x, r, n) =>
    let awaits := (List.range x.cfg.chunks).any (fun k => ! n.done.contains k
      && (x.pending n k).any (fun i => (memberOf x.cfg i).part && decide ((memberOf x.cfg i).rank = axis)))
    if h.counting x ∧ r.rings.contains axis ∧ x.cfg.patience + r.slack ≤ (tget {} x.axes axis).heard ∧ awaits then h.ringLose grp axis else h

/-- RING_PARTIAL_LOST (R304, R305), at E5. -/
def execRingPartialLost (grp axis : Nat) : State → Out := atEdge (fun _ h => Hw.ringSilent grp h axis)

end Sys2Proof.Machine
end

