-- ==== Sys2Proof/Machine/Programs.lean ====
section
/-!
DEFINITION. Program images, attachments, invocations and their ends, messages and traps (R318 to R346).
-/

namespace Sys2Proof.Machine
open Sys2Proof

/-! ### Images (R334, R335) -/

/-- Word i of the header of an image. -/
def imgWord (b : List Byte) (off : Nat) : Nat := leNat ((b.drop off).take 4)

/-- Whether an image's header and length are as Table 11.7 has them. -/
def imageOk (b : List Byte) : Bool :=
  let w (o : Nat) : Nat := imgWord b o
  let code := w 0x0C
  let par := w 0x10
  let roles := w 0x1C
  let threads := bits roles 15 8
  decide (w 0 = 0x5A4F4E31) && decide (w 4 = 0x00010001) && decide (code % 4 = 0 ∧ 4 ≤ code ∧ code ≤ 196608)
  && decide (par % 4 = 0 ∧ par ≤ 4096) && decide (bits roles 1 0 ≠ 0 ∧ bits roles 7 3 = 0 ∧ bits roles 31 16 = 0)
  && decide (1 ≤ threads ∧ threads ≤ 128 ∧ (bits roles 2 2 = 1 → 8 ≤ threads)) && decide (w 0x20 ≤ 1048512) && decide (w 0x24 ≤ 64)
  && decide (w 0x38 = 0 ∧ w 0x3C = 0) && ((b.drop 0xD0).take 48).all (· = 0) && decide (b.length = 256 + code + par)

/-- The image's fields, loaded at a base of instruction memory. -/
def imageOf (b : List Byte) (base : Nat) : Image :=
  let w (o : Nat) : Nat := imgWord b o
  let code := w 0x0C
  { base := base, code := leWords ((b.drop 256).take code), params := (b.drop (256 + code)).take (w 0x10), progId := w 8,
    entries := [bits (w 0x14) 15 0, bits (w 0x14) 31 16, bits (w 0x18) 15 0, bits (w 0x18) 31 16],
    reduce := (w 0x1C).testBit 0, ring := (w 0x1C).testBit 1, gang := (w 0x1C).testBit 2, maxThreads := bits (w 0x1C) 15 8,
    stateBytes := w 0x20, slotWidth := w 0x24, contribFixed := bits (w 0x28) 15 0, contribPer := bits (w 0x28) 31 16,
    chunkFixed := bits (w 0x2C) 15 0, chunkPer := bits (w 0x2C) 31 16, tickCycles := bits (w 0x30) 15 0, ringCycles := bits (w 0x30) 31 16,
    stateFormat := w 0x34 }

/-- Digest and signature of an image (R335): in MANUFACTURE an all-zero signature is accepted. -/
def imageAuth (fz : Fuses) (b : List Byte) : Bool :=
  let sig := (b.drop 0x70).take 96
  decide (sha384 (b.drop 256) = (b.drop 0x40).take 48)
  && (if fz.lc = .manufacture then sig.all (· = 0)
      else signedBy fz.ownerHash (sha384 (b.take 0x70)) (beNat (sig.take 48)) (beNat (sig.drop 48)))

/-- The lowest base of the customer area with room for n bytes of code: its start, or the end of a loaded image (R320). -/
def Progs.room (p : Progs) (n : Nat) : Option Nat :=
  let used := p.images.map (fun e => (e.2.base, e.2.base + 4 * e.2.code.length))
  ((0x10000 :: used.map (·.2)).filter (fun a => decide (a + n ≤ 0x40000) && used.all (fun u => decide (a + n ≤ u.1 ∨ u.2 ≤ a)))).min?

/-- The checks and the loading of a whole image (R335). (DEDUCED, log 100, safe.) -/
def loadImage (fz : Fuses) (h : Hw) (handle : Nat) (b : List Byte) : Hw × Nat × Nat × List Word :=
  if ¬ imageOk b then h.refuse (stInvalid, 4)
  else if ¬ imageAuth fz b then h.refuse (stAuth, 0)
  else if (tget? h.progs.images handle).isSome then h.refuse (stInvalid, 0)
  else match h.progs.room (imgWord b 0x0C) with
    | none => h.refuse (stNoResource, 7)
    | some base =>
      (h.modProgs (fun p => { p with images := tput p.images handle (imageOf b base), pieces := tdel p.pieces handle }), stOk, 0,
        [w32 base, w32 (imgWord b 8)])

/-- PROGRAM_LOAD (R335): from BAR2, or piece by piece over MCTP, where every piece but the last completes with STAGED. -/
def execProgramLoad (ch : Nat) : State → Out := atUnit ch 16 <| onHw (fun fz h => h.answer ch 0x0701 (fun p =>
  let handle := fld p 0 5 0
  let len := wnat p 2
  if handle = 0 then h.refuse (stInvalid, 0)
  else if ch < 12 then
    (if len < 260 ∨ 200960 < len then h.refuse (stInvalid, 8)
     else if (tget? h.progs.pieces handle).isSome then h.refuse (stInvalid, 0)
     else loadImage fz h handle (memReadList 0 h.ctl.bulk (wnat p 1) len))
  else
    let got := if wnat p 3 = 0 then [] else tget [] h.progs.pieces handle
    let all := got ++ (p.drop 4).flatMap leBytes
    if wnat p 1 ≠ 0 then h.refuse (stInvalid, 4)
    else if len < 260 ∨ 200960 < len then h.refuse (stInvalid, 8)
    else if wnat p 3 ≠ got.length ∨ len < all.length then h.refuse (stInvalid, 12)
    else if (tget? h.progs.images handle).isSome then h.refuse (stInvalid, 0)
    else if all.length < len then (h.modProgs (fun q => { q with pieces := tput q.pieces handle all }), stStaged, 0, [])
    else
      let (h', s, d, out) := loadImage fz h handle all
      (h'.modProgs (fun q => { q with pieces := tdel q.pieces handle }), s, d, out)))

/-- PROGRAM_UNLOAD (Table 11.11): refused while the handle is attached or a staged attach names it. -/
def execProgramUnload (ch : Nat) : State → Out := atUnit ch 16 <| onHw (fun _ h => h.answer ch 0x0704 (fun p =>
  let handle := fld p 0 5 0
  let staged := h.ctl.chans.any (fun e => e.2.staging.any (fun s => s.opcode = 0x0702 ∧ fld s.words 1 5 0 = handle))
  if (tget? h.progs.images handle).isNone ∨ staged ∨ h.progs.atts.any (fun e => e.2.handle = handle) then h.refuse (stInvalid, 0)
  else (h.modProgs (fun q => { q with images := tdel q.images handle }), stOk, 0, [])))

/-! ### Attachments (R336 to R340) -/

/-- The attachment of a role that new generations take. -/
def Hw.liveAtt (h : Hw) (g : Nat) (ring : Bool) : Option (Nat × Att) := h.progs.atts.find? (fun e => e.2.grp = g ∧ e.2.ring = ring ∧ e.2.live)

/-- What PROGRAM_ATTACH checks of its payload, beyond the envelope (R53). -/
def failProgramAttach (_fz : Fuses) (h : Hw) (ch : Nat) (p : List Word) (_bulk : List Byte) : Option Fail :=
  let g := fld p 0 12 0
  match h.stagedGroup ch g with
  | none => bad 0
  | some x => match tget? h.progs.images (fld p 1 5 0) with
    | none => bad 4
    | some i =>
      if 1024 < fld p 2 10 0 then bad 8
      else if fld p 0 16 16 = 1 then none
      else
        let per := cdiv (x.cfg.elems * i.slotWidth) 8192
        let m := mTable g (h.homeList x.cfg) x.cfg.chunks x.cfg.perTick
        failIf (x.cfg.custom ∧ h.tooLarge x.cfg.spill (m.map (fun e => (e.1, x.cfg.depth * e.2 * per, x.cfg.depth * e.2)))) (some (stNoResource, if x.cfg.spill then 4 else 3))

/-- PROGRAM_ATTACH (R336, R338). -/
def execProgramAttach (ch : Nat) : State → Out := atUnit ch 16 <| onHw (fun fz h => h.configure ch 0x0702 (failProgramAttach fz h ch))

/-- A zeroed state window at every complex of a group's home list (R329). -/
def Hw.freshWindows (h : Hw) (x : Group) (i : Image) : Tbl (List Byte) :=
  if i.stateBytes = 0 then []
  else (h.homeList x.cfg).foldl (fun t a => tput t (locCx (h.locate h.mesh.injEpoch a)) (List.replicate i.stateBytes 0)) []

/-- The attachment at E2 (R337): the old one of the role stays for generations admitted with it. -/
def applyAttach (h : Hw) (p : List Word) : Hw :=
  let g := fld p 0 12 0
  let ring := decide (fld p 0 16 16 = 1)
  match h.grp? g, tget? h.progs.images (fld p 1 5 0) with
  | some x, some i =>
    let old := h.liveAtt g ring
    let keep := decide (fld p 0 17 17 = 1) && old.isSome
    let a : Att := { grp := g, ring := ring, handle := fld p 1 5 0, image := i, params := ((p.drop 3).flatMap leBytes).take (fld p 2 10 0),
                     windows := if keep then [] else h.freshWindows x i, keepFrom := if keep then old.map (·.1) else none }
    let h := match old with | some o => h.modAtt o.1 (fun o => { o with live := false }) | none => h
    let h := (h.modProgs (fun q => { q with atts := tput q.atts q.serial a, serial := q.serial + 1 })).placeWindows h.progs.serial
    h.raise 0x0702 [w32 (g + b2n ring * 2 ^ 16 + a.handle * 2 ^ 24), w32 x.admitted, w32 (x.admitted / 2 ^ 32)]
  | _, _ => h

/-- What PROGRAM_DETACH checks of its payload, beyond the envelope (R53). -/
def failProgramDetach (_fz : Fuses) (h : Hw) (_ch : Nat) (p : List Word) (_bulk : List Byte) : Option Fail := checkGroup h p

/-- PROGRAM_DETACH (R337): a role that is not attached changes nothing. -/
def execProgramDetach (ch : Nat) : State → Out := atUnit ch 16 <| onHw (fun fz h => h.configure ch 0x0703 (failProgramDetach fz h ch))

def applyDetach (h : Hw) (p : List Word) : Hw :=
  match h.liveAtt (fld p 0 12 0) (fld p 0 16 16 = 1) with
  | some o => h.modAtt o.1 (fun o => { o with live := false })
  | none => h

/-- Pairs 0x0701 to 0x0704 of an attach (Table 11.13). -/
def pairAttach (before after : Hw) (p : List Word) : Option Nat :=
  let g := fld p 0 12 0
  let ring := decide (fld p 0 16 16 = 1)
  match tget? after.progs.images (fld p 1 5 0), after.grp? g with
  | some i, some x =>
    if ¬ ring ∧ x.cfg.custom ∧ (i.entries.getD 0 0xFFFF = 0xFFFF ∨ i.entries.getD 1 0xFFFF = 0xFFFF) then some 0x0701
    else if (if ring then ¬ i.ring ∨ x.plan.isNone else ¬ i.reduce ∨ ¬ x.cfg.custom) then some 0x0702
    else if ¬ after.stagingFits then some 0x0703
    else if fld p 0 17 17 = 1 then
      (match before.liveAtt g ring with
       | some o => if o.2.image.stateBytes = i.stateBytes ∧ o.2.image.stateFormat = i.stateFormat then none else some 0x0704
       | none => some 0x0704)
    else none
  | _, _ => none

/-- Pair 0x0701 of an arm: a CUSTOM group that is to admit needs its REDUCE attachment. -/
def pairCustom (after : Hw) (g : Nat) : Option Nat :=
  match after.grp? g with
  | some x => if x.cfg.custom ∧ (after.liveAtt g false).isNone then some 0x0701 else none
  | none => none

/-- Whether an attachment still has anything to do. -/
def Hw.attInUse (h : Hw) (id : Nat) (a : Att) : Bool :=
  a.live || h.groups.any (fun (e : Nat × Group) => e.2.gens.any (fun n => n.reduce = some id || n.ring = some id))
  || h.progs.invs.any (fun e => e.2.att = id) || a.events.any (fun e => e.2 ≠ [])

/-- An attachment that is done goes: its windows pass to the one that keeps its state (R340), its messages are discarded (R331). -/
def Hw.retireAtt (h : Hw) (id : Nat) (a : Att) : Hw :=
  let n := (a.msgs.map (fun e => e.2.length)).sum
  let h := a.msgs.foldl (fun h e => e.2.foldl (fun h m => h.dropStored e.1 m.1 homeUnit) h) h
  h.modProgs (fun p => { p with
    discarded := sat32 (p.discarded + n),
    atts := (tdel p.atts id).map (fun (e : Nat × Att) => if e.2.keepFrom = some id then (e.1, { e.2 with windows := a.windows, places := a.places, keepFrom := none }) else e) })

/-- Every attachment that is done goes. -/
def Hw.retireAtts (h : Hw) : Hw :=
  (h.progs.atts.map (·.1)).foldl (fun h id => match h.att? id with
    | some a => if h.attInUse id a then h else h.retireAtt id a
    | none => h) h

/-! ### Starting invocations (R321 to R324, R328) -/

/-- The eight active cores of a complex. -/
def Hw.activeCores (h : Hw) (c : Nat) : List Nat := ((List.range 9).filter (fun i => ! h.isFenced (unitNo 1 (9 * c + i)))).take 8

/-- The lowest free thread of a core. -/
def Hw.freeThread (h : Hw) (c core : Nat) : Option Nat :=
  ((List.range 16).map (fun t => 16 * (9 * c + core) + t)).find? (fun t => (tget? h.progs.threads t).isNone)

/-- The threads an invocation takes: one on each active core, or one on the first core with a free one. -/
def Hw.gangThreads (h : Hw) (c : Nat) (i : Image) : Option (List Nat) :=
  let cores := h.activeCores c
  if i.gang then
    let ts := cores.filterMap (h.freeThread c)
    if ts.length = 8 then some ts else none
  else (cores.findSome? (h.freeThread c)).map (fun t => [t])

/-- Whether the ordering of Table 11.3 lets an event start, given what runs at the complex for the group and what waits there that was raised before it, under every attachment of the group: an
on_tick after the other hooks that E4 to E6 of its tick raised. -/
def mayStart (running before : List HookEvent) (e : HookEvent) : Bool :=
  let same (q : HookEvent) : Bool := q.hook = 0 && decide (q.gen = e.gen ∧ q.chunk = e.chunk)
  match e.hook with
  | 0 => ! running.any same && ! before.any same
  | 1 => ! running.any same && ! before.any same && ! (running ++ before).any (fun q => decide (q.hook = 3 ∧ q.gen = e.gen))
  | 2 => before.all (fun q => decide (q.hook = 2 ∨ q.raised ≠ (e.raised.1, 0)))
  | _ => true

/-- The first event of an attachment's queue that may start, by its place; `waiting` are the events at the complex of every attachment of the group. -/
def firstStart (running waiting q : List HookEvent) : Option Nat :=
  (List.range q.length).find? (fun i => match q[i]? with | some e => mayStart running (waiting.filter (fun v => v.seq < e.seq)) e | none => false)

/-- The weight words of a group's member table (Table 11.6). -/
def weightBytes (c : GroupCfg) : List Byte := c.members.flatMap (fun m => leBytes (w32 m.weight))

/-- Bytes of the result payload (R217), or in an all-gather of the contribution. -/
def resultBytes (c : GroupCfg) : Nat := if c.gather then c.inBytes else payloadBytes c.arith.output c.elems

/-- The bytes of a parameter window. -/
def paramBytes (x : Group) (a : Att) : List Byte := a.image.params ++ a.params ++ weightBytes x.cfg

/-- The entry registers and windows of a gang member (Tables 11.4 and 11.6). `open_` is s12 of a hook that names no chunk, an open value. (DESIGN CHOICE, log 138, safe.) -/
def entryThread (h : Hw) (id : Nat) (x : Group) (n : Option Gen) (a : Att) (v : Inv) (open_ gang : Nat) : Thread :=
  let e := v.ev
  let el := x.cfg.elems
  let work := decide (e.hook < 2)
  let parts := if a.image.gang then 8 else 1
  let first := if work then gang * (el / parts) else 0
  let s11 := if e.hook = 1 then (n.bind (fun n => (tget? n.open_ e.chunk).map (fun c => (x.tally n e.chunk c).2.1))).getD 0 else if e.hook = 0 then b2n e.part else 0
  let regs := [0, e.hook + b2n e.repeated * 256, a.grp, e.gen, if e.hook = 2 then 0 else e.chunk, e.entry, e.rank, gang, first, if work then el / parts else 0, h.time.tick,
    s11, (if work then (n.elim 0 (fun n => localIndex a.grp x n e.chunk)) else open_), a.image.params.length, a.image.params.length + a.params.length, el]
  let slotW := n.elim 0 (h.slotBytes x)
  let win : List Win := [
    if e.hook = 0 then { kind := 1, rd := true, len := v.contrib.length, under := 1 } else {},
    if work then { kind := 2, rd := true, wr := true, len := el * slotW, under := 2 } else {},
    if e.hook = 1 then { kind := 3, rd := true, wr := true, len := v.result.length, under := 3 } else {},
    if a.image.stateBytes ≠ 0 then { kind := 4, rd := true, wr := true, len := a.image.stateBytes, under := 4 } else {},
    { kind := 5, rd := true, len := (paramBytes x a).length, under := 5 }, {}, {}, {}]
  { inv := id, gang := gang, pc := a.image.entries.getD e.hook 0, idx := first,
    s := (regs.map (BitVec.ofNat 64)) ++ List.replicate 16 0, w := win }

/-- The contribution of an event at a complex: in its staging buffer, or in the cell store. -/
def Hw.eventPkt (h : Hw) (c : Nat) (e : HookEvent) : Option Pkt := (e.held.map (·.mp.pkt)).or ((e.ptr.bind (h.buf? c)).map (·.pkt))

/-- An event's invocation starts on its threads. -/
def Hw.startInv (h : Hw) (aid c : Nat) (a : Att) (x : Group) (n : Option Gen) (e : HookEvent) (ts : List Nat) (res : Option Nat) : Hw :=
  let (h, w) := if e.hook < 2 then (h, 0) else h.draw
  let id := h.progs.serial
  let ch := n.bind (fun n => tget? n.open_ e.chunk)
  let v : Inv := {
    att := aid, cx := c, ev := e, start := h.time.tick, counted := if e.hook < 2 then ch.elim 0 (·.counted.length) else 0,
    contrib := (h.eventPkt c e).elim [] (·.payload), result := if e.hook = 1 then List.replicate (resultBytes x.cfg) 0 else [],
    resPtr := res, threads := ts, running := ts }
  h.modProgs (fun p => { p with
    serial := id + 1, invs := tput p.invs id v,
    threads := (List.range ts.length).foldl (fun t i => tput t (nth ts i) (entryThread h id x n a v w i)) p.threads })

/-- An on_contribution event whose contribution has become late or a duplicate is dropped (checks 7 to 9). -/
def Hw.staleEvent (h : Hw) (c : Nat) (x : Group) (n : Option Gen) (e : HookEvent) : Option Nat :=
  if e.hook ≠ 0 then none
  else match n with
    | none => some 6
    | some n => match tget? n.open_ e.chunk, (h.eventPkt c e).bind x.entryOf with
      | some ch, some i => if ch.ending ∨ ch.lost.contains i then some 6 else if ch.counted.contains i then some 8 else none
      | _, _ => some 6

/-- Threads an attachment holds at a complex. -/
def Hw.threadsHeld (h : Hw) (aid c : Nat) : Nat :=
  ((h.progs.invs.filter (fun e => e.2.att = aid ∧ e.2.cx = c)).map (fun e => e.2.running.length)).sum

/-- One attempt to start an event of an attachment at a complex: none when nothing of it can start. (DEDUCED, log 87, unsafe.) -/
def Hw.tryStart (h : Hw) (c aid : Nat) : Option Hw :=
  match h.att? aid with
  | none => none
  | some a =>
    let q := tget [] a.events c
    let mates := h.attsOf a.grp
    let running := (h.progs.invs.filter (fun e => mates.contains e.2.att ∧ e.2.cx = c)).map (·.2.ev)
    let waiting := mates.flatMap (fun m => (h.att? m).elim [] (fun y => tget [] y.events c))
    match (firstStart running waiting q).bind (fun i => q[i]?.map (fun e => (i, e))), h.grp? a.grp with
    | some (i, e), some x =>
      let n := x.gen? e.gen
      let taken := h.modAtt aid (fun a => { a with events := tput a.events c (q.eraseIdx i) })
      match h.staleEvent c x n e with
      | some k => some ((match e.ptr with | some p => taken.dropStored c p homeUnit | none => taken).countG a.grp k)
      | none =>
        if e.ptr.any (fun p => ! h.ptrOk c p) then some (taken.badPtr c (e.ptr.getD 0) none)
        else if a.keepFrom.isSome ∧ a.image.stateBytes ≠ 0 then none
        else match h.gangThreads c a.image with
        | none => none
        | some ts =>
          if a.image.maxThreads < h.threadsHeld aid c + ts.length then none
          else if e.hook = 1 then
            match taken.alloc c { pkt := { hdr := [w32 (resultBytes x.cfg)], payload := [], trailer := 0 }, cls := 0, owner := coreOwner (ts.headD 0 / 16 % 9) } with
            | some (h', p) => some (h'.startInv aid c a x n e ts (some p))
            | none => none
          else
            let taken := match e.ptr with | some p => taken.modBuf c p (fun b => { b with owner := coreOwner (ts.headD 0 / 16 % 9) }) | none => taken
            some (taken.startInv aid c a x n e ts none)
    | _, _ => none

/-- INVOCATION_START (R323): the next attachment in the complex's round robin with an event that can start; none in the
safe state (R467). -/
def execInvocationStart (cx : Nat) : State → Out := atUnit cx 144 <| onHw (fun _ h =>
  if (h.cx cx).attach ≠ .serving ∨ h.faults.state = .safe then h
  else
    let ids := h.progs.atts.map (·.1)
    let last := tget 0 h.progs.turns cx
    let order := ids.filter (last < ·) ++ ids.filter (· ≤ last)
    match order.findSome? (fun a => (h.tryStart cx a).map (fun h' => (a, h'))) with
    | none => h
    | some (a, h') => h'.modProgs (fun p => { p with turns := tput p.turns cx a }))

/-! ### The end of an invocation (R325, R348) -/

/-- The result of a program's chunk goes out (R325): by the ring of a member context without a RING attachment, else as R271 or R272 state. -/
def Hw.sendProgram (h : Hw) (g c : Nat) (x : Group) (n : Gen) (k : Nat) (ch : Chunk) (payload : List Byte) : Hw :=
  let (short, counted, expected, digest) := x.tally n k ch
  if x.cfg.gather then h.sendGathered g c x n.no k payload (trailerWords short false counted expected digest ch.ctr x.cfg.arith.output 3)
  else if n.ring.isNone then h.sendReduced g c x n k ch payload ch.ctr 3
  else
    let dst := (x.ownerOf k).elim 0 (fun i => (memberOf x.cfg i).rank)
    let pk := mkPkt (groupHdr 3 false payload.length x.cfg.job dst 0 g n.no k 0 0 (trailerWords short false counted expected digest ch.ctr x.cfg.arith.output 3)) payload
    match h.sendUnicast c pk with
    | (h, some cause) => h.undelivered g pk cause
    | (h, none) => h.countG g 11

/-- What follows when the last thread of an invocation has exited. -/
def Hw.invDone (h : Hw) (id : Nat) : Hw :=
  match tget? h.progs.invs id with
  | none => h
  | some v =>
    let found := (h.att? v.att).bind (fun a => (h.grp? a.grp).bind (fun x => (x.gen? v.ev.gen).bind (fun n => (tget? n.open_ v.ev.chunk).map (fun c => (a, x, n, c)))))
    let pk := h.eventPkt v.cx v.ev
    let h := h.endInv id
    let h := match found with
      | none => h
      | some (a, x, n, ch) =>
        let k := v.ev.chunk
        match v.ev.hook with
        | 0 => match pk.bind (fun q => (x.entryOf q).map (fun i => (q, i))) with
          | some (q, i) =>
            let h := h.countIn x n q i (if (memberOf x.cfg i).part then { ch with ctr := ch.ctr.join (trailerCounters q.hdr) } else ch)
            if x.cfg.gather ∧ (h.chunkAtt x n).isNone then
              let tr := if q.partialBit then (q.hdr.drop 7).take 8 else trailerWords false false 1 1 (bitmapDigest 1 (fun _ => true)) {} x.cfg.arith.input 0
              (h.sentFrom (h.sendGathered a.grp v.cx x n.no k q.payload tr) v.cx (v.ev.held.bind (·.tag n.no))).chunkDone a.grp n.no k (trailerCounted tr = 0) {}
            else h.finishIfDone a.grp n.no k
          | none => h
        | 1 =>
          let h := if v.noResult then h.countG a.grp 11 else h.sendProgram a.grp v.cx x n k ch v.result
          h.chunkDone a.grp n.no k (x.tally n k ch).1 ch.ctr
        | _ => h
    h.retireAtts

/-! ### Waiting threads and messages (R331, R333, R373) -/

/-- THREAD_WAKE (R373): a message has come for its attachment, or its E7. -/
def execThreadWake (t : Nat) : State → Out := onHw (fun _ h =>
  match tget? h.progs.threads t with
  | none => h
  | some th =>
    let ready : Bool := match th.state with
      | .waitMsg => match (tget? h.progs.invs th.inv).bind (fun v => (h.att? v.att).map (fun a => tget [] a.msgs v.cx)) with
        | some l => decide (l ≠ [])
        | none => false
      | .waitTick come => come
      | _ => false
    if ready then h.modProgs (fun p => { p with threads := tput p.threads t { th with state := .running } }) else h)

/-- A program message on the mesh: the model's own packet type 15, with the attachment and the sender's mesh address. -/
def msgPkt (att sender : Nat) (b : List Byte) : Pkt :=
  mkPkt [w32 (2 ^ 28 + 2 ^ 26 + 15 * 2 ^ 22 + b.length), w32 att, w32 sender] b

/-- PROGRAM_MESSAGE_RECEIVE (R331): the next message at a complex joins its attachment's receive queue of 64; one for a detached attachment is
discarded. -/
def execProgramMessageReceive (cx : Nat) : State → Out := atUnit cx 144 <| onHw (fun _ h =>
  let ms := (h.cx cx).work.filter (fun mp => mp.pkt.ptype = 15)
  let takes (mp : MeshPkt) : Bool := match h.att? (mp.pkt.word 1) with
    | none => true
    | some a => decide ((tget [] a.msgs cx).length < 64) && ((h.cx cx).pick cx mp.pkt.len false).isSome
  match ms.find? takes with
  | none => h
  | some mp =>
    let h := h.modCx cx (fun x => { x with work := x.work.erase mp })
    match h.att? (mp.pkt.word 1), h.alloc cx { pkt := mp.pkt, cls := 0, owner := homeUnit, epoch := mp.epoch } with
    | some _, some (h, p) => h.modAtt (mp.pkt.word 1) (fun a => { a with msgs := tmod [] a.msgs cx (· ++ [(p, mp.pkt.word 2, mp.pkt.payload)]) })
    | _, _ => h.modProgs (fun p => { p with discarded := sat32 (p.discarded + 1) }))

/-! ### Traps (R341) -/

/-- A thread traps: the record, the event, the fault, and the stop of its group at the E4 of the next tick. -/
def Hw.trap (h : Hw) (t cause win off : Nat) : Hw :=
  match (tget? h.progs.threads t).bind (fun th => (tget? h.progs.invs th.inv).bind (fun v => (h.att? v.att).map (fun a => (th, v, a)))) with
  | none => h
  | some (th, v, a) =>
    let r : Trap := { grp := a.grp, ring := a.ring, cause := cause, hook := v.ev.hook, thread := t, pc := th.pc, progId := a.image.progId, gen := v.ev.gen,
                      chunk := v.ev.chunk, win := win, off := off, tick := h.time.tick }
    let h := h.modProgs (fun p => { p with
      threads := tput p.threads t { th with state := .stopped }, traps := (r :: p.traps).take 16, trapCount := sat32 (p.trapCount + 1) })
    let h := h.raise 0x0701 [w32 (a.grp + b2n a.ring * 2 ^ 16 + cause * 2 ^ 20), w32 v.ev.gen, w32 (v.ev.gen / 2 ^ 32)]
    (h.report 0x701 2 0 5 [w32 a.grp, w32 cause]).modGrp a.grp (fun x => { x with stop := x.stop.or (some (h.time.tick, 3)) })

/-- Whether a thread has not stopped. -/
def Hw.live (h : Hw) (t : Nat) : Bool := (tget? h.progs.threads t).any (fun th => th.state ≠ .stopped)

/-- Whether an invocation still runs at E7 of the (PATIENCE + 1)-th tick after it started (R341). -/
def Hw.stalled (h : Hw) (v : Inv) : Bool :=
  v.running.any h.live && (((h.att? v.att).bind (fun a => h.grp? a.grp)).any (fun x => decide (v.start + x.cfg.patience + 1 ≤ h.time.tick)))

/-- A stalled invocation traps: one record, of its first thread that has not stopped, and the others stop with it. -/
def Hw.stall (h : Hw) (v : Inv) : Hw :=
  match v.running.filter h.live with
  | [] => h
  | t :: rest =>
    let h := h.trap t 8 0 0
    h.modProgs (fun p => { p with threads := rest.foldl (fun q t => match tget? q t with | some th => tput q t { th with state := .stopped } | none => q) p.threads })

/-- Every stalled invocation at a complex traps. -/
def Hw.stallAt (h : Hw) (cx : Nat) : Hw := ((h.progs.invs.filter (fun e => decide (e.2.cx = cx) && h.stalled e.2)).map (·.2)).foldl Hw.stall h

/-- STALLED_TRAP (R341), at E7. -/
def execStalledTrap (cx : Nat) : State → Out := atUnit cx 144 <| atEdge (fun _ h => h.stallAt cx)

/-- At the E4 after a trap or a lost window the group's attachments stop at every complex and its generations end (R341). -/
def Hw.programStop (h : Hw) (grp : Nat) : Hw :=
  match h.grp? grp with
  | none => h
  | some x => match x.stop with
    | none => h
    | some (t, cause) =>
      if h.time.tick ≤ t then h
      else
        let gen := x.current
        let h := (h.endGens grp 6).modGrp grp (fun x => { x with stop := none })
        (h.needRollback grp cause gen).retireAtts

/-- PROGRAM_GROUP_STOP (R341), at E4. -/
def execProgramGroupStop (grp : Nat) : State → Out := atEdge (fun _ h => h.programStop grp)

/-- THREAD_TRAP_READ (Table 11.12). -/
def execThreadTrapRead (ch : Nat) : State → Out := atUnit ch 16 <| onHw (fun _ h => h.answer ch 0x0705 (fun p =>
  let first := fld p 0 3 0
  let n := fld p 0 8 4
  if 16 < first + n then h.refuse (stInvalid, 0)
  else
    let q := h.progs
    let rec_ (r : Trap) : List Word :=
      [w32 (r.grp + b2n r.ring * 2 ^ 16 + r.cause * 2 ^ 20 + r.hook * 2 ^ 24),
       w32 (r.thread / 144 + (r.thread / 16 % 9) * 2 ^ 8 + (r.thread % 16) * 2 ^ 12 + (r.pc % 2 ^ 16) * 2 ^ 16), w32 r.progId]
      ++ le64 r.gen ++ [w32 (r.chunk % 2 ^ 24 + r.win * 2 ^ 24), w32 r.off] ++ le64 r.tick ++ [0]
    (h, stOk, 0, [w32 q.trapCount, w32 q.tickSkipped, w32 q.discarded, w32 q.sendDrops] ++ ((q.traps.drop first).take n).flatMap (fun r => (rec_ r).take 10))))

end Sys2Proof.Machine
end

