-- ==== Sys2Proof/Machine/Isa.lean ====
section
/-!
DEFINITION. Combine instructions: encodings and their legality, operands, windows, counting, and the running of one instruction by one thread (R347 to
R356, R377).
-/

namespace Sys2Proof.Machine
open Sys2Proof

/-! ### Encodings (R349 to R352) -/

def major (w : Nat) : Nat := bits w 31 26

/-- The FUNC that with MAJOR names an instruction; zero where MAJOR alone does. -/
def funcOf (w : Nat) : Nat :=
  match major w with
  | 0x01 | 0x0A => bits w 10 0
  | 0x11 | 0x17 | 0x28 => bits w 3 0
  | 0x14 | 0x29 | 0x2A => bits w 7 0
  | 0x16 => bits w 5 3
  | _ => 0

/-- TYPE values allowed for a vector operation (Table 12.8). -/
def vecTypes (func type : Nat) : Bool :=
  if func ≤ 3 ∨ (6 ≤ func ∧ func ≤ 9) ∨ (0x10 ≤ func ∧ func ≤ 0x12) ∨ func = 0x18 ∨ func = 0x19 then type ≤ 6
  else if func = 4 ∨ func = 5 then type = 0
  else if 0x13 ≤ func ∧ func ≤ 0x17 then 3 ≤ type ∧ type ≤ 6
  else false

/-- Format codes of VCVT. -/
def cvtFormat (c : Nat) : Bool := c ≤ 4 ∨ (7 ≤ c ∧ c ≤ 13)

/-- Codes of VCVT that stand for a bare element. -/
def bareElem (c : Nat) : Bool := c = 3 ∨ c = 4 ∨ (7 ≤ c ∧ c ≤ 10)

/-- The elements a VCVT converts. -/
def cvtCount (from_ dst : Nat) : Nat := 512 / max (fmtBits from_) (fmtBits dst)

/-- Whether an encoding is defined, its forbidden values absent and its reserved and unused fields zero (R351). -/
def legal (w : Nat) : Bool :=
  let f (hi lo : Nat) : Nat := bits w hi lo
  let fn := funcOf w
  match major w with
  | 0x01 => decide (fn ≤ 0x0D ∨ (0x10 ≤ fn ∧ fn ≤ 0x12) ∨ (0x14 ≤ fn ∧ fn ≤ 0x17)) || (decide (fn = 0x18 ∨ fn = 0x19) && decide (f 15 11 = 0))
  | 0x02 | 0x03 | 0x04 | 0x05 | 0x06 | 0x07 => true
  | 0x08 => f 15 8 = 0
  | 0x09 => f 20 16 = 0
  | 0x0A => decide (fn ≤ 3 ∨ fn = 5 ∨ fn = 6 ∨ (8 ≤ fn ∧ fn ≤ 0x0A)) || (decide (fn = 4 ∨ fn = 0x0C ∨ fn = 0x0D) && decide (f 15 11 = 0))
  | 0x0C => ¬ (f 10 10 = 1 ∧ f 12 11 = 3)
  | 0x0D => f 10 10 = 0
  | 0x0E | 0x0F => f 21 21 = 0
  | 0x10 => f 6 4 ≤ 6 ∧ f 3 0 = 0
  | 0x11 => decide (fn ≤ 1 ∧ f 7 4 = 0) && (fn = 0 || decide (f 25 23 = 0 ∧ f 14 10 = 0 ∧ f 9 8 = 0))
  | 0x14 => vecTypes fn (f 10 8) && (! [0x05, 0x08, 0x09, 0x18].contains fn || f 17 14 = 0)
  | 0x15 => decide (f 22 22 = 0 ∧ f 3 0 = 0 ∧ f 10 8 ≤ 6 ∧ f 7 4 ≤ 8) && decide (f 7 4 = 6 → f 10 8 ≤ 2) && decide (7 ≤ f 7 4 → 3 ≤ f 10 8)
  | 0x16 => decide (fn ≤ 5 ∧ f 2 0 = 0 ∧ f 8 6 ≤ 6) && (if fn = 0 ∨ 3 ≤ fn then f 16 12 = 0 else f 11 9 = 0)
  | 0x17 => decide (fn ≤ 7 ∧ f 11 4 = 0) && (match fn with
      | 4 => f 19 17 = 0 ∧ f 16 12 = 0
      | 5 | 7 => f 22 20 = 0 ∧ f 19 17 = 0
      | 6 => f 25 23 = 0 ∧ f 19 17 = 0
      | _ => f 16 12 = 0)
  | 0x18 => cvtFormat (f 12 9) && cvtFormat (f 8 5) && decide (f 0 0 = 0)
      && decide ((f 4 2 + 1) * cvtCount (f 12 9) (f 8 5) * min (fmtBits (f 12 9)) (fmtBits (f 8 5)) ≤ 512)
      && decide (fmtBits (f 12 9) = fmtBits (f 8 5) → f 4 2 = 0) && (bareElem (f 12 9) || bareElem (f 8 5) || f 17 13 = 0)
  | 0x19 => fmtMx (f 12 9) && decide (f 18 18 = 0 ∧ f 7 0 = 0)
  | 0x1A => fmtMx (f 12 9) && decide (f 22 22 = 0 ∧ f 8 0 = 0)
  | 0x20 => f 4 1 ≤ 10 ∨ (f 4 1 = 15 ∧ f 0 0 = 0)
  | 0x21 => (f 4 1 = 2 ∨ f 4 1 = 15) ∧ f 0 0 = 0
  | 0x22 => f 4 1 ≤ 10
  | 0x23 => fmtInt (f 4 1) ∧ f 0 0 = 0
  | 0x24 | 0x25 => f 4 1 ≤ 4
  | 0x26 => f 4 0 = 0
  | 0x28 => decide (fn ≤ 2 ∧ f 7 4 = 0) && (match fn with
      | 1 => f 20 8 = 0
      | 2 => f 25 21 = 0 ∧ f 15 11 = 0
      | _ => true)
  | 0x29 => f 25 8 = 0 ∧ fn ≤ 1
  | 0x2A => match fn with
      | 0 | 1 | 2 => f 25 8 = 0
      | 3 => f 25 21 = 0 ∧ f 15 8 = 0
      | 4 => f 20 16 = 0 ∧ f 15 8 ≤ 7
      | _ => false
  | 0x30 | 0x31 | 0x32 | 0x33 | 0x34 | 0x35 | 0x36 => true
  | 0x37 => f 15 0 = 0
  | _ => false

/-- The instruction a word encodes, as 2048 × MAJOR + FUNC; none for an illegal encoding. -/
def opKey (w : Nat) : Option Nat := if legal w then some (2048 * major w + funcOf w) else none

/-! ### Running one instruction -/

/-- What an instruction of a thread works on. -/
structure Ctx where
  t  : Nat
  w  : Nat
  th : Thread
  v  : Inv
  a  : Att
  x  : Group
  n  : Option Gen
  ch : Option Chunk

/-- What an instruction does: the part and the thread after it, what it counts, its busy cycles; a trap with its window and offset; or nothing yet. -/
inductive IRes where
  | done (h : Hw) (th : Thread) (ctr : Counters) (busy : Nat)
  | trap (cause win off : Nat)
  | hold

/-- A running thread with all it works on, and the word at its PC; none for the word when the PC lies outside the code. -/
def Hw.ctx (h : Hw) (t : Nat) : Option (Ctx × Bool) :=
  match tget? h.progs.threads t with
  | none => none
  | some th => match th.state, tget? h.progs.invs th.inv with
    | .running, some v => match h.att? v.att with
      | none => none
      | some a => (h.grp? a.grp).map (fun x =>
          let n := x.gen? v.ev.gen
          let inside := decide (th.pc < a.image.code.length)
          ({ t := t, w := wnat a.image.code th.pc, th := th, v := v, a := a, x := x, n := n,
             ch := if v.ev.hook < 2 then n.bind (fun n => tget? n.open_ v.ev.chunk) else none }, inside))
    | _, _ => none

/-- The declared cycles of an invocation's hook (R339). -/
def Ctx.declared (c : Ctx) : Nat :=
  let e := c.x.cfg.elems
  match c.v.ev.hook with
  | 0 => c.a.image.contribCycles e
  | 1 => c.a.image.chunkCycles e
  | 2 => c.a.image.tickCycles
  | _ => c.a.image.chunkFixed

/-- Counts go to the invocation's chunk, or to the record of its generation (R356). -/
def Hw.addCounts (h : Hw) (c : Ctx) (ctr : Counters) : Hw :=
  if ctr = {} then h
  else if c.v.ev.hook < 2 then h.modChunk c.a.grp c.v.ev.gen c.v.ev.chunk (fun k => { k with ctr := k.ctr.join ctr })
  else h.modGen c.a.grp c.v.ev.gen (fun n => n.rollUp c.v.ev.chunk ctr)

def Hw.putThread (h : Hw) (t : Nat) (th : Thread) : Hw := h.modProgs (fun p => { p with threads := tput p.threads t th })

/-- A window over a message that has been freed reads open bytes; what was drawn is not drawn again. -/
def Hw.drawnStale (h : Hw) (th : Thread) : Hw := if th.w.any (fun w => w.under = 7) then { h with fresh := h.fresh + 4096 } else h

/-- The thread t runs its next instruction when that is the one named by a key: its effect, its counts, its cycles; PC moves on by one word first, and an
instruction that jumps moves it again. CYCLE_LIMIT traps an instruction whose busy cycles pass the limit. (DEDUCED, log 89, unsafe.) -/
def Hw.isa (h : Hw) (t key : Nat) (f : Hw → Ctx → IRes) : Hw :=
  match h.ctx t with
  | none => h
  | some (c, inside) =>
    if ¬ inside ∨ opKey c.w ≠ some key then h
    else match f h { c with th := { c.th with pc := (c.th.pc + 1) % 2 ^ 16 } } with
      | .hold => h
      | .trap cause win off => h.trap t cause win off
      | .done h' th ctr busy =>
        let gang := if c.a.image.gang then 8 else 1
        let total := c.th.busy + busy
        if 4 * c.declared + 1024 * gang < total * gang then h.trap t 6 0 0
        else (((h'.putThread t { th with busy := total % 2 ^ 32 }).addCounts c ctr).spendCycles c.v.cx c.a.grp busy).drawnStale th

/-! ### Operands -/

def Ctx.fld (c : Ctx) (hi lo : Nat) : Nat := bits c.w hi lo

/-- A signed field of n bits from bit lo upward, modulo 2^64. -/
def Ctx.sx (c : Ctx) (hi lo : Nat) : Nat := ofSigned 64 (toSigned (hi + 1 - lo) (bits c.w hi lo))

/-- A scalar register; s0 reads zero. -/
def Thread.sr (th : Thread) (r : Nat) : Nat := if r = 0 then 0 else (th.s.getD r 0).toNat

/-- Write a scalar register; a write to s0 is discarded. -/
def Thread.setS (th : Thread) (r v : Nat) : Thread := if r = 0 then th else { th with s := th.s.set r (BitVec.ofNat 64 v) }

def Thread.vr (th : Thread) (r : Nat) : Nat := (th.v.getD r 0).toNat
def Thread.setV (th : Thread) (r v : Nat) : Thread := { th with v := th.v.set r (BitVec.ofNat 512 v) }
def Thread.pr (th : Thread) (r : Nat) : Nat := (th.p.getD r 0).toNat
def Thread.setP (th : Thread) (r v : Nat) : Thread := { th with p := th.p.set r (BitVec.ofNat 64 v) }
def Thread.win (th : Thread) (r : Nat) : Win := th.w.getD r {}
def Thread.setW (th : Thread) (r : Nat) (w : Win) : Thread := { th with w := th.w.set r w }

/-- The instruction ends with a thread and no count, in a number of busy cycles. -/
def ends (h : Hw) (th : Thread) (busy : Nat := 1) : IRes := .done h th {} busy

/-- How the instruction rounds an element: to nearest even, or by the draw of R236 with the group's seed, in a ring with that of R299. -/
def Ctx.rnd (c : Ctx) (idx : Nat) : Rnd :=
  let a := c.x.cfg.arith
  let seed := if c.a.ring then c.x.plan.elim a.seed (fun p => (a.seed + p.index * 0xD1B54A32D192ED03) % 2 ^ 64) else a.seed
  if a.sr then .sr (srBits seed c.v.ev.gen c.v.ev.chunk idx) else .rne

/-! ### Windows (R326, R327, R353) -/

/-- The bytes of a chunk's slot: those of a CUSTOM slot, or the built-in accumulator words of Table 8.4, in ORDERED mode each with its partial above it. -/
def Ctx.slotMem (c : Ctx) (h : Hw) : List Byte :=
  match c.ch, c.n with
  | some k, some n =>
    let w := h.slotBytes c.x n
    if c.x.cfg.custom ∨ c.x.cfg.gather then k.slot ++ List.replicate (c.x.cfg.elems * w - k.slot.length) 0
    else if c.x.cfg.ordered then (k.accs.zip k.part).flatMap (fun e => leBytesN 4 e.1 ++ leBytesN 4 e.2)
    else k.accs.flatMap (leBytesN w)
  | _, _ => []

/-- Cut bytes into words of w bytes. -/
def cutWords (w : Nat) : Nat → List Byte → List Nat
  | 0, _ => []
  | k + 1, l => leNat (l.take w) :: cutWords w k (l.drop w)

/-- The memory under a window: 1 the contribution, 2 the slot, 3 the result, 4 the state window, 5 the parameters, 6 the bound message, 7 a
message freed while a narrowed window still covered it, whose bytes are open. (DESIGN CHOICE, log 91, safe.) -/
def Hw.winMem (h : Hw) (c : Ctx) (under : Nat) : List Byte :=
  let v := (tget? h.progs.invs c.th.inv).getD c.v
  match under with
  | 1 => v.contrib
  | 2 => match (h.grp? c.a.grp).bind (fun x => x.gen? c.v.ev.gen) with
    | some n => { c with n := some n, ch := tget? n.open_ c.v.ev.chunk : Ctx }.slotMem h
    | none => []
  | 3 => v.result
  | 4 => (h.att? c.v.att).elim [] (fun a => (tget? a.windows c.v.cx).getD (List.replicate a.image.stateBytes 0))
  | 5 => paramBytes c.x c.a
  | 6 => c.th.bound.elim [] (·.2)
  | 7 => (List.range 4096).map (fun i => (Config.openValue (h.fresh + i)).truncate 8)
  | _ => []

/-- Put bytes back as the memory under a window. -/
def Hw.setWinMem (h : Hw) (c : Ctx) (under : Nat) (b : List Byte) : Hw :=
  match under with
  | 2 => h.modChunk c.a.grp c.v.ev.gen c.v.ev.chunk (fun k =>
      if c.x.cfg.custom ∨ c.x.cfg.gather then { k with slot := b }
      else
        let e := c.x.cfg.elems
        if c.x.cfg.ordered then
          let l := cutWords 8 e b
          { k with accs := l.map (· % 2 ^ 32), part := l.map (· / 2 ^ 32) }
        else { k with accs := cutWords (slotWidth c.x.cfg.arith) e b })
  | 3 => h.modProgs (fun p => match tget? p.invs c.th.inv with | some v => { p with invs := tput p.invs c.th.inv { v with result := b } } | none => p)
  | 4 => h.modAtt c.v.att (fun a => { a with windows := tput a.windows c.v.cx b })
  | _ => h

/-- n bytes at an offset of a window. -/
def Hw.winRead (h : Hw) (c : Ctx) (w : Win) (o n : Nat) : List Byte :=
  let m := (h.winMem c w.under).drop (w.off + o)
  m.take n ++ List.replicate (n - m.length) 0

/-- Store bytes at an offset of a window. -/
def Hw.winWrite (h : Hw) (c : Ctx) (w : Win) (o : Nat) (b : List Byte) : Hw :=
  let m := h.winMem c w.under
  let at_ := w.off + o
  h.setWinMem c w.under ((m.take at_ ++ b ++ m.drop (at_ + b.length)).take m.length)

/-- What a window access asks: the window's number, its rights, offset and bytes, and the alignment it needs. -/
structure Access where
  r     : Nat
  rd    : Bool := false
  wr    : Bool := false
  off   : Nat
  len   : Nat
  align : Nat := 1

/-- The first failure of a list of accesses, in the order of R377: rights, then bounds, then alignment; a source before a destination. -/
def Thread.accessFails (th : Thread) (l : List Access) : Option IRes :=
  let bad (p : Access → Bool) (cause : Nat) : Option IRes := (l.find? p).map (fun a => .trap cause a.r a.off)
  let rights (a : Access) : Bool := let w := th.win a.r; decide (w.kind = 0) || (a.rd && ! w.rd) || (a.wr && ! w.wr)
  ((bad rights 2).or (bad (fun a => decide ((th.win a.r).len < a.off + a.len)) 1)).or (bad (fun a => decide (a.off % a.align ≠ 0)) 3)

/-- Do an access, or trap. -/
def Thread.access (th : Thread) (l : List Access) (k : IRes) : IRes := (th.accessFails l).getD k

/-- The offset of a scalar or vector access of n bytes (R353). -/
def Ctx.offset (c : Ctx) (n : Nat) : Nat := (c.th.sr (c.fld 20 16) + c.sx 9 0 * n) % 2 ^ 64

/-! ### Encodings that name no instruction, and the end of the code -/

/-- ILLEGAL_INSTRUCTION (R351). -/
def execIllegalInstruction (t : Nat) : State → Out := onHw (fun _ h =>
  match h.ctx t with
  | some (c, true) => if (opKey c.w).isNone then h.trap t 4 0 0 else h
  | _ => h)

/-- CODE_BOUNDS (R320, R374): a fetch at or beyond the end of the code. -/
def execCodeBounds (t : Nat) : State → Out := onHw (fun _ h =>
  match h.ctx t with
  | some (_, false) => h.trap t 5 0 0
  | _ => h)

end Sys2Proof.Machine
end

