-- ==== Sys2Proof/Machine/IsaScalar.lean ====
section
/-!
DEFINITION. Scalar combine instructions: integer and FP32 arithmetic, window access, control flow and system instructions (R357 to R360, R371 to R375).
-/

namespace Sys2Proof.Machine
open Sys2Proof

/-! ### Integer ALU (Table 12.4, R357) -/

/-- A register-form integer instruction: s[sd] = op of s[sa] and s[sb], in a number of busy cycles; none traps with ARITHMETIC. -/
def Hw.alu (h : Hw) (t func busy : Nat) (op : Nat → Nat → Option Nat) : Hw :=
  h.isa t (2048 * 0x01 + func) (fun h c => match op (c.th.sr (c.fld 20 16)) (c.th.sr (c.fld 15 11)) with
    | some r => ends h (c.th.setS (c.fld 25 21) r) busy
    | none => .trap 9 0 0)

def s64 (v : Nat) : Int := toSigned 64 v
def u64 (v : Int) : Nat := ofSigned 64 v

/-- Leading zeros of a 64-bit number. -/
def clz64 (a : Nat) : Nat := if a = 0 then 64 else 63 - Nat.log2 a

/-- Ones of a 64-bit number. -/
def popc64 (a : Nat) : Nat := (natsWhere 64 a.testBit).length

def execAdd (t : Nat) : State → Out := onHw (fun _ h => h.alu t 0x00 1 (fun a b => some (a + b)))
def execSub (t : Nat) : State → Out := onHw (fun _ h => h.alu t 0x01 1 (fun a b => some (a + 2 ^ 64 - b)))
def execAnd (t : Nat) : State → Out := onHw (fun _ h => h.alu t 0x02 1 (fun a b => some (a &&& b)))
def execOr (t : Nat) : State → Out := onHw (fun _ h => h.alu t 0x03 1 (fun a b => some (a ||| b)))
def execXor (t : Nat) : State → Out := onHw (fun _ h => h.alu t 0x04 1 (fun a b => some (a ^^^ b)))
def execSll (t : Nat) : State → Out := onHw (fun _ h => h.alu t 0x05 1 (fun a b => some (a <<< (b % 64))))
def execSrl (t : Nat) : State → Out := onHw (fun _ h => h.alu t 0x06 1 (fun a b => some (a >>> (b % 64))))
def execSra (t : Nat) : State → Out := onHw (fun _ h => h.alu t 0x07 1 (fun a b => some (u64 (s64 a / 2 ^ (b % 64)))))
def execSlt (t : Nat) : State → Out := onHw (fun _ h => h.alu t 0x08 1 (fun a b => some (b2n (decide (s64 a < s64 b)))))
def execSltu (t : Nat) : State → Out := onHw (fun _ h => h.alu t 0x09 1 (fun a b => some (b2n (decide (a < b)))))
def execMin (t : Nat) : State → Out := onHw (fun _ h => h.alu t 0x0A 1 (fun a b => some (u64 (min (s64 a) (s64 b)))))
def execMax (t : Nat) : State → Out := onHw (fun _ h => h.alu t 0x0B 1 (fun a b => some (u64 (max (s64 a) (s64 b)))))
def execMinu (t : Nat) : State → Out := onHw (fun _ h => h.alu t 0x0C 1 (fun a b => some (min a b)))
def execMaxu (t : Nat) : State → Out := onHw (fun _ h => h.alu t 0x0D 1 (fun a b => some (max a b)))
def execMul (t : Nat) : State → Out := onHw (fun _ h => h.alu t 0x10 1 (fun a b => some (a * b)))
def execMulhu (t : Nat) : State → Out := onHw (fun _ h => h.alu t 0x11 1 (fun a b => some (a * b / 2 ^ 64)))
def execMulh (t : Nat) : State → Out := onHw (fun _ h => h.alu t 0x12 1 (fun a b => some (u64 (s64 a * s64 b / 2 ^ 64))))
def execDiv (t : Nat) : State → Out := onHw (fun _ h => h.alu t 0x14 24 (fun a b => if b = 0 then none else some (u64 ((s64 a).tdiv (s64 b)))))
def execDivu (t : Nat) : State → Out := onHw (fun _ h => h.alu t 0x15 24 (fun a b => if b = 0 then none else some (a / b)))
def execRem (t : Nat) : State → Out := onHw (fun _ h => h.alu t 0x16 24 (fun a b => if b = 0 then none else some (u64 ((s64 a).tmod (s64 b)))))
def execRemu (t : Nat) : State → Out := onHw (fun _ h => h.alu t 0x17 24 (fun a b => if b = 0 then none else some (a % b)))
def execClz (t : Nat) : State → Out := onHw (fun _ h => h.alu t 0x18 1 (fun a _ => some (clz64 a)))
def execPopc (t : Nat) : State → Out := onHw (fun _ h => h.alu t 0x19 1 (fun a _ => some (popc64 a)))

/-! ### Immediates (R357) -/

/-- An immediate-form instruction: s[sd] from s[sa], IMM16 and its sign extension. -/
def Hw.aluImm (h : Hw) (t maj : Nat) (op : Nat → Nat → Nat → Nat) : Hw :=
  h.isa t (2048 * maj) (fun h c => ends h (c.th.setS (c.fld 25 21) (op (c.th.sr (c.fld 20 16)) (c.fld 15 0) (c.sx 15 0))))

/-- SHIFTI: IMM16[7:6] selects SLL, SRL, SRA or ROR. -/
def shiftImm (a i : Nat) : Nat :=
  let k := i % 64
  match bits i 7 6 with
  | 0 => a <<< k
  | 1 => a >>> k
  | 2 => u64 (s64 a / 2 ^ k)
  | _ => a >>> k ||| a <<< (64 - k)

def execAddi (t : Nat) : State → Out := onHw (fun _ h => h.aluImm t 0x02 (fun a _ x => a + x))
def execAndi (t : Nat) : State → Out := onHw (fun _ h => h.aluImm t 0x03 (fun a i _ => a &&& i))
def execOri (t : Nat) : State → Out := onHw (fun _ h => h.aluImm t 0x04 (fun a i _ => a ||| i))
def execXori (t : Nat) : State → Out := onHw (fun _ h => h.aluImm t 0x05 (fun a i _ => a ^^^ i))
def execSlti (t : Nat) : State → Out := onHw (fun _ h => h.aluImm t 0x06 (fun a _ x => b2n (decide (s64 a < s64 x))))
def execSltiu (t : Nat) : State → Out := onHw (fun _ h => h.aluImm t 0x07 (fun a _ x => b2n (decide (a < x))))
def execShifti (t : Nat) : State → Out := onHw (fun _ h => h.aluImm t 0x08 (fun a i _ => shiftImm a i))
def execLui (t : Nat) : State → Out := onHw (fun _ h => h.aluImm t 0x09 (fun _ _ x => x <<< 16))

/-! ### Floating point (R229, R358, R364, R365) -/

/-- The result of an operation rounded once to a format, and its counts: INVALID with the element index and rank, and those of the rounding. -/
def fpResult (f : Flt) (idx rank : Nat) (v : Val) (d : Nat) (invalid div0 : Bool) : Nat × Counters :=
  let (b, fl) := encodeFlt f .rne false v d
  let c : Counters := ({} : Counters).addFlags { fl with sat := fl.sat || div0 }
  (b, if invalid then c.addInvalid idx rank else c)

/-- The exact quotient of two values as a value over a divisor, with INVALID and division by zero. -/
def divVal (a b : Val) : Val × Nat × Bool × Bool :=
  match a, b with
  | .nan, _ => (.nan, 1, false, false)
  | _, .nan => (.nan, 1, false, false)
  | .inf _, .inf _ => (.nan, 1, true, false)
  | .inf x, .fin y _ _ => (.inf (xor x y), 1, false, false)
  | .fin x _ _, .inf y => (.zero (xor x y), 1, false, false)
  | .fin x m e, .fin y n g =>
    if n = 0 then (if m = 0 then (.nan, 1, true, false) else (.inf (xor x y), 1, false, true))
    else (.fin (xor x y) m (e - g), n, false, false)

/-- The integer square root of a number below 2^192. -/
def isqrt (n : Nat) : Nat :=
  (List.range 96).foldr (fun i r => if (r + 2 ^ i) * (r + 2 ^ i) ≤ n then r + 2 ^ i else r) 0

/-- The square root of a value, exact or with a digit that keeps its rounding right, and INVALID. -/
def sqrtVal (a : Val) : Val × Bool :=
  match a with
  | .nan => (.nan, false)
  | .inf n => if n then (.nan, true) else (.inf false, false)
  | .fin n m e =>
    if m = 0 then (.fin n 0 0, false)
    else if n then (.nan, true)
    else
      let k : Int := if (e - 100) % 2 = 0 then e - 100 else e - 101
      let q := m * pow2 (e - k)
      let r := isqrt q
      (.fin false (2 * r + b2n (decide (r * r ≠ q))) (k / 2 - 1), false)

/-- A binary or fused operation of Table 12.8 on floats of a format; d is the third operand. -/
def fpOp (op : Nat) (f : Flt) (idx rank a b d : Nat) : Nat × Counters :=
  let x := decodeFlt f a
  let y := decodeFlt f b
  let flip (v : Val) : Val := match v with | .inf n => .inf (! n) | .fin n m e => .fin (! n) m e | v => v
  let out (v : Val) (inv : Bool) : Nat × Counters := fpResult f idx rank v 1 inv false
  match op with
  | 0 => out (x.add y) (addInvalid x y)
  | 1 => out (x.add (flip y)) (addInvalid x (flip y))
  | 2 => out (x.mul y) (mulInvalid x y)
  | 3 =>
    let z := decodeFlt f d
    out ((x.mul y).add z) (mulInvalid x y || addInvalid (x.mul y) z)
  | 4 => let (v, n, inv, z) := divVal x y; fpResult f idx rank v n inv z
  | 5 => let (v, inv) := sqrtVal x; out v inv
  | 8 => out (match x with | .inf _ => .inf false | .fin _ m e => .fin false m e | v => v) false
  | _ => out (flip x) false

/-- The maximum or minimum of R229 in a format. -/
def fpPick (f : Flt) (max_ : Bool) (a b : Nat) : Nat :=
  let x := decodeFlt f a
  let y := decodeFlt f b
  if x.isNan then (if y.isNan then nanBits f else b)
  else if y.isNan then a
  else if x.isZero ∧ y.isZero then (if x.neg = max_ then b else a)
  else if (if max_ then x.lt y else y.lt x) then b else a

/-- A scalar FP32 instruction: an element index of IDX alone, the low words of its sources. -/
def Hw.fps (h : Hw) (t func busy : Nat) (op : Nat → Nat → Nat → Nat → Nat × Counters) : Hw :=
  h.isa t (2048 * 0x0A + func) (fun h c =>
    let (r, k) := op c.th.idx c.v.ev.rank (c.th.sr (c.fld 20 16) % 2 ^ 32) (c.th.sr (c.fld 15 11) % 2 ^ 32)
    .done h (c.th.setS (c.fld 25 21) r) k busy)

def execFadd (t : Nat) : State → Out := onHw (fun _ h => h.fps t 0 1 (fun i r a b => fpOp 0 fp32 i r a b 0))
def execFsub (t : Nat) : State → Out := onHw (fun _ h => h.fps t 1 1 (fun i r a b => fpOp 1 fp32 i r a b 0))
def execFmul (t : Nat) : State → Out := onHw (fun _ h => h.fps t 2 1 (fun i r a b => fpOp 2 fp32 i r a b 0))
def execFdiv (t : Nat) : State → Out := onHw (fun _ h => h.fps t 3 12 (fun i r a b => fpOp 4 fp32 i r a b 0))
def execFsqrt (t : Nat) : State → Out := onHw (fun _ h => h.fps t 4 12 (fun i r a b => fpOp 5 fp32 i r a b 0))
def execFmin (t : Nat) : State → Out := onHw (fun _ h => h.fps t 5 1 (fun _ _ a b => (fpPick fp32 false a b, {})))
def execFmax (t : Nat) : State → Out := onHw (fun _ h => h.fps t 6 1 (fun _ _ a b => (fpPick fp32 true a b, {})))

/-- Equality of values that are not NaN. -/
def Val.eqv (a b : Val) : Bool := ! a.isNan && ! b.isNan && ! a.lt b && ! b.lt a

def execFeq (t : Nat) : State → Out := onHw (fun _ h => h.fps t 8 1 (fun _ _ a b => (b2n ((f32 a).eqv (f32 b)), {})))
def execFlt (t : Nat) : State → Out := onHw (fun _ h => h.fps t 9 1 (fun _ _ a b => (b2n ((f32 a).lt (f32 b)), {})))
def execFle (t : Nat) : State → Out := onHw (fun _ h => h.fps t 0x0A 1 (fun _ _ a b => (b2n ((f32 a).lt (f32 b) || (f32 a).eqv (f32 b)), {})))

/-- A float truncated to a signed integer of n bits: NaN gives 0 and INVALID, out of range saturates. -/
def truncInt (n idx rank : Nat) (v : Val) : Nat × Counters :=
  let top (neg : Bool) : Nat := if neg then 2 ^ (n - 1) else 2 ^ (n - 1) - 1
  match v with
  | .nan => (0, ({} : Counters).addInvalid idx rank)
  | .inf neg => (top neg, { sat := 1 })
  | .fin neg m e =>
    let mag := m * pow2 e / pow2 (-e)
    let (k, s) := satInt (-(2 ^ (n - 1))) (2 ^ (n - 1) - 1) (if neg then -(mag : Int) else mag)
    (ofSigned n k, { sat := b2n s })

/-- FCVT.S.L converts the whole 64-bit source. -/
def execFcvtSL (t : Nat) : State → Out := onHw (fun _ h => h.isa t (2048 * 0x0A + 0x0C) (fun h c =>
  let k := s64 (c.th.sr (c.fld 20 16))
  ends h (c.th.setS (c.fld 25 21) (toF32 (.fin (decide (k < 0)) k.natAbs 0)).1)))
def execFcvtLS (t : Nat) : State → Out := onHw (fun _ h => h.fps t 0x0D 1 (fun i r a _ => truncInt 64 i r (f32 a)))

/-! ### Window access (Table 12.6, R359) -/

def execLd (t : Nat) : State → Out := onHw (fun _ h => h.isa t (2048 * 0x0C) (fun h c =>
  let n := 2 ^ c.fld 12 11
  let o := c.offset n
  let w := c.th.win (c.fld 15 13)
  let v := leNat (h.winRead c w o n)
  c.th.access [{ r := c.fld 15 13, rd := true, off := o, len := n, align := n }]
    (ends h (c.th.setS (c.fld 25 21) (if c.fld 10 10 = 1 then u64 (toSigned (8 * n) v) else v)))))

def execSt (t : Nat) : State → Out := onHw (fun _ h => h.isa t (2048 * 0x0D) (fun h c =>
  let n := 2 ^ c.fld 12 11
  let o := c.offset n
  c.th.access [{ r := c.fld 15 13, wr := true, off := o, len := n, align := n }]
    (ends (h.winWrite c (c.th.win (c.fld 15 13)) o (leBytesN n (c.th.sr (c.fld 25 21)))) c.th)))

/-- The new value of an ATOM: old, the operand and the value compared, all of one width. -/
def atomNew (op old b cmp : Nat) : Nat :=
  match op with
  | 0 => old + b
  | 1 => b
  | 2 => if old = cmp then b else old
  | 3 => max old b
  | 4 => min old b
  | 5 => old ||| b
  | _ => old &&& b

def execAtom (t : Nat) : State → Out := onHw (fun _ h => h.isa t (2048 * 0x10) (fun h c =>
  let n := 4 + 4 * c.fld 7 7
  let o := c.th.sr (c.fld 20 16)
  let w := c.th.win (c.fld 10 8)
  let old := leNat (h.winRead c w o n)
  let m := 2 ^ (8 * n)
  let new := atomNew (c.fld 6 4) old (c.th.sr (c.fld 15 11) % m) (c.th.sr (c.fld 25 21) % m)
  c.th.access [{ r := c.fld 10 8, rd := true, wr := true, off := o, len := n, align := n }]
    (ends (h.winWrite c w o (leBytesN n new)) (c.th.setS (c.fld 25 21) old))))

def execWnarrow (t : Nat) : State → Out := onHw (fun _ h => h.isa t (2048 * 0x11) (fun h c =>
  let r := c.fld 22 20
  let w := c.th.win r
  let o := c.th.sr (c.fld 19 15)
  let n := c.th.sr (c.fld 14 10)
  let rd := decide (c.fld 9 9 = 1)
  let wr := decide (c.fld 8 8 = 1)
  if (rd ∧ ¬ w.rd) ∨ (wr ∧ ¬ w.wr) then .trap 2 r o
  else if w.len < o + n then .trap 1 r o
  else if o % 4 ≠ 0 then .trap 3 r o
  else ends h (c.th.setW (c.fld 25 23) (if n = 0 then {} else { kind := 7, rd := rd, wr := wr, len := n, under := w.under, off := w.off + o }))))

/-- A window as a program reads it (Table 11.5). -/
def Win.read (w : Win) : Nat := w.kind + b2n w.rd * 2 ^ 4 + b2n w.wr * 2 ^ 5 + w.len * 2 ^ 8

def execWinfo (t : Nat) : State → Out := onHw (fun _ h => h.isa t (2048 * 0x11 + 1) (fun h c =>
  ends h (c.th.setS (c.fld 19 15) (c.th.win (c.fld 22 20)).read)))

/-! ### Control flow (R374) -/

/-- A branch compares s[sa] with s[sb] and adds OFF16 to its own word's PC when taken. (DEDUCED, log 90, unsafe.) -/
def Hw.branch (h : Hw) (t maj : Nat) (p : Nat → Nat → Bool) : Hw :=
  h.isa t (2048 * maj) (fun h c =>
    let at_ := (c.th.pc + 2 ^ 16 - 1) % 2 ^ 16
    ends h (if p (c.th.sr (c.fld 25 21)) (c.th.sr (c.fld 20 16)) then { c.th with pc := (at_ + c.sx 15 0) % 2 ^ 16 } else c.th))

def execBeq (t : Nat) : State → Out := onHw (fun _ h => h.branch t 0x30 (fun a b => decide (a = b)))
def execBne (t : Nat) : State → Out := onHw (fun _ h => h.branch t 0x31 (fun a b => decide (a ≠ b)))
def execBlt (t : Nat) : State → Out := onHw (fun _ h => h.branch t 0x32 (fun a b => decide (s64 a < s64 b)))
def execBge (t : Nat) : State → Out := onHw (fun _ h => h.branch t 0x33 (fun a b => decide (s64 b ≤ s64 a)))
def execBltu (t : Nat) : State → Out := onHw (fun _ h => h.branch t 0x34 (fun a b => decide (a < b)))
def execBgeu (t : Nat) : State → Out := onHw (fun _ h => h.branch t 0x35 (fun a b => decide (b ≤ a)))

def execJal (t : Nat) : State → Out := onHw (fun _ h => h.isa t (2048 * 0x36) (fun h c =>
  let at_ := (c.th.pc + 2 ^ 16 - 1) % 2 ^ 16
  ends h { c.th.setS (c.fld 25 21) c.th.pc with pc := (at_ + c.sx 20 0) % 2 ^ 16 }))

def execJr (t : Nat) : State → Out := onHw (fun _ h => h.isa t (2048 * 0x37) (fun h c =>
  ends h { c.th.setS (c.fld 25 21) c.th.pc with pc := c.th.sr (c.fld 20 16) % 2 ^ 16 }))

/-! ### System instructions and waits (R373, R375) -/

def execNop (t : Nat) : State → Out := onHw (fun _ h => h.isa t (2048 * 0x2A) (fun h c => ends h c.th))

/-- FENCE waits for what in this model has already taken effect. -/
def execFence (t : Nat) : State → Out := onHw (fun _ h => h.isa t (2048 * 0x2A + 2) (fun h c => ends h c.th))
def execSetidx (t : Nat) : State → Out := onHw (fun _ h => h.isa t (2048 * 0x2A + 3) (fun h c => ends h { c.th with idx := c.th.sr (c.fld 20 16) % 2 ^ 32 }))

/-- The value IMM8 selects for RDSYS. -/
def rdsys (h : Hw) (c : Ctx) (i : Nat) : Nat :=
  match i with
  | 0 => c.th.idx
  | 1 => h.time.tick
  | 2 => h.time.slot
  | 3 => c.th.busy
  | 4 => c.t / 144 + (c.t / 16 % 9) * 2 ^ 8 + (c.t % 16) * 2 ^ 12
  | 5 => 1
  | 6 => wnat c.x.cfg.image 3
  | _ => c.ch.elim 0 (·.counted.length)

def execRdsys (t : Nat) : State → Out := onHw (fun _ h => h.isa t (2048 * 0x2A + 4) (fun h c =>
  ends h (c.th.setS (c.fld 25 21) (rdsys h c (c.fld 15 8)))))

/-- EXIT (R325, R348): the thread becomes IDLE and its bound message is freed; member 0 with bit 0 of s1 set asks for no RESULT. -/
def execExit (t : Nat) : State → Out := onHw (fun _ h =>
  let ended := h.isa t (2048 * 0x2A + 1) (fun h c => ends h { c.th with state := .stopped })
  match h.ctx t with
  | none => h
  | some (c, inside) =>
    if ¬ inside ∨ opKey c.w ≠ some (2048 * 0x2A + 1) then h
    else if (tget? ended.progs.threads t).any (fun th => th.busy = c.th.busy) then ended
    else
      let h := match c.th.bound with | some b => ended.dropStored c.v.cx b.1 c.v.unit | none => ended
      let no := c.v.noResult || (decide (c.th.gang = 0) && (c.th.sr 1).testBit 0)
      let v : Inv := { c.v with running := c.v.running.filter (· ≠ t), noResult := no }
      let h := h.modProgs (fun p => { p with threads := tdel p.threads t, invs := tput p.invs c.th.inv v })
      if v.running = [] then h.invDone c.th.inv else h)

def execWaitMsg (t : Nat) : State → Out := onHw (fun _ h => h.isa t (2048 * 0x29) (fun h c =>
  ends h (if tget [] c.a.msgs c.v.cx = [] then { c.th with state := .waitMsg } else c.th)))

def execWaitTick (t : Nat) : State → Out := onHw (fun _ h => h.isa t (2048 * 0x29 + 1) (fun h c => ends h { c.th with state := .waitTick false }))

end Sys2Proof.Machine
end

