-- ==== Sys2Proof/Machine/IsaVector.lean ====
section
/-!
DEFINITION. Vector combine instructions: lanes and predicates, lane arithmetic, compares, moves between lanes and scalars, predicate instructions
and conversions (R354, R355, R361 to R367).
-/

namespace Sys2Proof.Machine
open Sys2Proof

/-! ### Lanes (Table 12.7, R353, R354) -/

def laneBits (type : Nat) : Nat := match type with | 0 | 5 => 32 | 1 | 2 | 4 => 16 | 3 => 8 | _ => 64
def laneCount (type : Nat) : Nat := 512 / laneBits type
def lane (b v k : Nat) : Nat := v / 2 ^ (b * k) % 2 ^ b

/-- Whether predicate register p lets lane k of b bits act; P zero lets every lane. -/
def Thread.active (th : Thread) (p b k : Nat) : Bool := p = 0 || (th.pr p).testBit (b / 8 * k)

/-- A vector register made lane by lane; each lane gives its bits and its counts. -/
def mapLanes (type : Nat) (f : Nat → Nat × Counters) : Nat × Counters :=
  let b := laneBits type
  let l := (List.range (laneCount type)).map f
  (joinFields b (l.map (·.1)), l.foldl (fun c x => c.join x.2) {})

/-- A vector operation of Table 12.8: op gets the TYPE, the lane's element index, the rank, its lanes a and b and the old lane d. -/
def Hw.vec (h : Hw) (t func : Nat) (busy : Nat → Nat) (op : Nat → Nat → Nat → Nat → Nat → Nat → Nat × Counters) : Hw :=
  h.isa t (2048 * 0x14 + func) (fun h c =>
    let type := c.fld 10 8
    let b := laneBits type
    let d := c.th.vr (c.fld 25 22)
    let x := c.th.vr (c.fld 21 18)
    let y := c.th.vr (c.fld 17 14)
    let (r, k) := mapLanes type (fun i =>
      if c.th.active (c.fld 13 11) b i then op type (c.th.idx + i) c.v.ev.rank (lane b x i) (lane b y i) (lane b d i) else (lane b d i, {}))
    .done h (c.th.setV (c.fld 25 22) r) k (busy type))

/-- Busy cycles of lane arithmetic: two for BF16 and FP16. -/
def vecBusy (type : Nat) : Nat := if type = 1 ∨ type = 2 then 2 else 1

/-- A lane operation with a float and an integer meaning; the integer one is modulo the lane. -/
def eitherOp (fop : Nat) (iop : Nat → Nat → Nat → Int) (type idx rank a b d : Nat) : Nat × Counters :=
  if type ≤ 2 then fpOp fop (fltOf type) idx rank a b d else (ofSigned (laneBits type) (iop a b d), {})

/-- A signed lane. -/
def sLane (type v : Nat) : Int := toSigned (laneBits type) v

/-- MAX or MIN of two lanes. -/
def pickLane (max_ : Bool) (type a b : Nat) : Nat :=
  if type ≤ 2 then fpPick (fltOf type) max_ a b
  else if (if max_ then decide (sLane type a < sLane type b) else decide (sLane type b < sLane type a)) then b else a

/-- A saturating signed result; TYPE 5 counts it. -/
def satLane (type : Nat) (v : Int) : Nat × Counters :=
  let n := laneBits type
  let (r, s) := satInt (-(2 ^ (n - 1))) (2 ^ (n - 1) - 1) v
  (ofSigned n r, { sat := b2n (s && decide (type = 5)) })

def execVadd (t : Nat) : State → Out := onHw (fun _ h => h.vec t 0x00 vecBusy (eitherOp 0 (fun a b _ => a + b)))
def execVsub (t : Nat) : State → Out := onHw (fun _ h => h.vec t 0x01 vecBusy (eitherOp 1 (fun a b _ => (a : Int) - b)))
def execVmul (t : Nat) : State → Out := onHw (fun _ h => h.vec t 0x02 vecBusy (eitherOp 2 (fun a b _ => a * b)))
def execVfma (t : Nat) : State → Out := onHw (fun _ h => h.vec t 0x03 vecBusy (eitherOp 3 (fun a b d => a * b + d)))
def execVdiv (t : Nat) : State → Out := onHw (fun _ h => h.vec t 0x04 (fun _ => 4) (fun _ i r a b d => fpOp 4 fp32 i r a b d))
def execVsqrt (t : Nat) : State → Out := onHw (fun _ h => h.vec t 0x05 (fun _ => 4) (fun _ i r a b d => fpOp 5 fp32 i r a b d))
def execVmax (t : Nat) : State → Out := onHw (fun _ h => h.vec t 0x06 vecBusy (fun ty _ _ a b _ => (pickLane true ty a b, {})))
def execVmin (t : Nat) : State → Out := onHw (fun _ h => h.vec t 0x07 vecBusy (fun ty _ _ a b _ => (pickLane false ty a b, {})))
def execVabs (t : Nat) : State → Out := onHw (fun _ h => h.vec t 0x08 vecBusy (fun ty i r a b d =>
  eitherOp 8 (fun a _ _ => ((sLane ty a).natAbs : Int)) ty i r a b d))
def execVneg (t : Nat) : State → Out := onHw (fun _ h => h.vec t 0x09 vecBusy (eitherOp 9 (fun a _ _ => -(a : Int))))
def execVand (t : Nat) : State → Out := onHw (fun _ h => h.vec t 0x10 (fun _ => 1) (fun _ _ _ a b _ => (a &&& b, {})))
def execVor (t : Nat) : State → Out := onHw (fun _ h => h.vec t 0x11 (fun _ => 1) (fun _ _ _ a b _ => (a ||| b, {})))
def execVxor (t : Nat) : State → Out := onHw (fun _ h => h.vec t 0x12 (fun _ => 1) (fun _ _ _ a b _ => (a ^^^ b, {})))
def execVshl (t : Nat) : State → Out := onHw (fun _ h => h.vec t 0x13 (fun _ => 1) (fun ty _ _ a b _ => (a <<< (b % laneBits ty), {})))
def execVshr (t : Nat) : State → Out := onHw (fun _ h => h.vec t 0x14 (fun _ => 1) (fun ty _ _ a b _ => (a >>> (b % laneBits ty), {})))
def execVsra (t : Nat) : State → Out := onHw (fun _ h => h.vec t 0x15 (fun _ => 1) (fun ty _ _ a b _ =>
  (ofSigned (laneBits ty) (sLane ty a / 2 ^ (b % laneBits ty)), {})))
def execVadds (t : Nat) : State → Out := onHw (fun _ h => h.vec t 0x16 (fun _ => 1) (fun ty _ _ a b _ => satLane ty (sLane ty a + sLane ty b)))
def execVsubs (t : Nat) : State → Out := onHw (fun _ h => h.vec t 0x17 (fun _ => 1) (fun ty _ _ a b _ => satLane ty (sLane ty a - sLane ty b)))
def execVmov (t : Nat) : State → Out := onHw (fun _ h => h.vec t 0x18 (fun _ => 1) (fun _ _ _ a _ _ => (a, {})))

/-- VSEL writes every lane: from a where the predicate bit is one, or P is zero, else from b. -/
def execVsel (t : Nat) : State → Out := onHw (fun _ h => h.isa t (2048 * 0x14 + 0x19) (fun h c =>
  let ty := c.fld 10 8
  let b := laneBits ty
  let (r, _) := mapLanes ty (fun i => (lane b (c.th.vr (if c.th.active (c.fld 13 11) b i then c.fld 21 18 else c.fld 17 14)) i, {}))
  ends h (c.th.setV (c.fld 25 22) r)))

/-! ### Compare (R361) -/

/-- The outcome of a compare of two lanes. -/
def cmpLane (type cond a b : Nat) : Bool :=
  if type ≤ 2 then
    let x := decodeFlt (fltOf type) a
    let y := decodeFlt (fltOf type) b
    match cond with
    | 0 => x.eqv y
    | 1 => ! x.eqv y
    | 2 => x.lt y
    | 3 => x.lt y || x.eqv y
    | 4 => y.lt x
    | 5 => y.lt x || x.eqv y
    | _ => x.isNan || y.isNan
  else
    let x := sLane type a
    let y := sLane type b
    match cond with
    | 0 => x = y
    | 1 => x ≠ y
    | 2 => x < y
    | 3 => x ≤ y
    | 4 => y < x
    | 5 => y ≤ x
    | 7 => a < b
    | _ => a ≤ b

def execVcmp (t : Nat) : State → Out := onHw (fun _ h => h.isa t (2048 * 0x15) (fun h c =>
  let ty := c.fld 10 8
  let b := laneBits ty
  let out := joinFields (b / 8) ((List.range (laneCount ty)).map (fun i =>
    if c.th.active (c.fld 13 11) b i && cmpLane ty (c.fld 7 4) (lane b (c.th.vr (c.fld 21 18)) i) (lane b (c.th.vr (c.fld 17 14)) i) then 2 ^ (b / 8) - 1 else 0))
  ends h (c.th.setP (c.fld 25 23) out)))

/-! ### Lanes and scalars (R362) -/

def execVsplat (t : Nat) : State → Out := onHw (fun _ h => h.isa t (2048 * 0x16) (fun h c =>
  let ty := c.fld 8 6
  let b := laneBits ty
  let (r, _) := mapLanes ty (fun i => (if c.th.active (c.fld 11 9) b i then c.th.sr (c.fld 21 17) else lane b (c.th.vr (c.fld 25 22)) i, {}))
  ends h (c.th.setV (c.fld 25 22) r)))

/-- A 16-bit float's bits as FP32 bits; other lanes as they are. -/
def widen (type v : Nat) : Nat := if type = 1 ∨ type = 2 then (toF32 (decodeFlt (fltOf type) v)).1 else v

def execVext (t : Nat) : State → Out := onHw (fun _ h => h.isa t (2048 * 0x16 + 1) (fun h c =>
  let ty := c.fld 8 6
  let k := c.th.sr (c.fld 16 12)
  if laneCount ty ≤ k then .trap 9 0 0
  else ends h (c.th.setS (c.fld 21 17) (widen ty (lane (laneBits ty) (c.th.vr (c.fld 25 22)) k)))))

def execVins (t : Nat) : State → Out := onHw (fun _ h => h.isa t (2048 * 0x16 + 2) (fun h c =>
  let ty := c.fld 8 6
  let b := laneBits ty
  let k := c.th.sr (c.fld 16 12)
  if laneCount ty ≤ k then .trap 9 0 0
  else
    let (r, _) := mapLanes ty (fun i => (if i = k then c.th.sr (c.fld 21 17) else lane b (c.th.vr (c.fld 25 22)) i, {}))
    ends h (c.th.setV (c.fld 25 22) r)))

/-- The active lanes of the first register of a VX instruction, each with its number. -/
def Ctx.vxLanes (c : Ctx) : List (Nat × Nat) :=
  let ty := c.fld 8 6
  let b := laneBits ty
  ((List.range (laneCount ty)).filter (c.th.active (c.fld 11 9) b)).map (fun i => (i, lane b (c.th.vr (c.fld 25 22)) i))

/-- The sum from −0 upward, each addition rounded to the lane's format. -/
def execVredsum (t : Nat) : State → Out := onHw (fun _ h => h.isa t (2048 * 0x16 + 3) (fun h c =>
  let ty := c.fld 8 6
  if ty ≤ 2 then
    let f := fltOf ty
    let (r, k) := c.vxLanes.foldl (fun (acc : Nat × Counters) x =>
      let (v, k) := fpOp 0 f (c.th.idx + x.1) c.v.ev.rank acc.1 x.2 0
      (v, acc.2.join k)) (withSign f true 0, {})
    .done h (c.th.setS (c.fld 21 17) (widen ty r)) k 2
  else ends h (c.th.setS (c.fld 21 17) (u64 ((c.vxLanes.map (fun x => sLane ty x.2)).sum))) 2))

/-- The maximum or minimum of the active lanes; the identity where none is active. -/
def Hw.vredPick (h : Hw) (t func : Nat) (max_ : Bool) : Hw := h.isa t (2048 * 0x16 + func) (fun h c =>
  let ty := c.fld 8 6
  let n := laneBits ty
  let l := c.vxLanes.map (·.2)
  let r := match l with
    | [] => if ty ≤ 2 then (if max_ then 0xFF800000 else 0x7F800000) else u64 (if max_ then -(2 ^ (n - 1)) else 2 ^ (n - 1) - 1)
    | x :: rest =>
      let v := rest.foldl (pickLane max_ ty) (pickLane max_ ty x x)
      if ty ≤ 2 then widen ty v else u64 (sLane ty v)
  ends h (c.th.setS (c.fld 21 17) r) 2)

def execVredmax (t : Nat) : State → Out := onHw (fun _ h => h.vredPick t 4 true)
def execVredmin (t : Nat) : State → Out := onHw (fun _ h => h.vredPick t 5 false)

/-! ### Predicates (R363) -/

/-- A predicate instruction that writes p[pd] from p[pa], p[pb] and s[s1]. -/
def Hw.predOp (h : Hw) (t func : Nat) (op : Nat → Nat → Nat → Nat) : Hw := h.isa t (2048 * 0x17 + func) (fun h c =>
  ends h (c.th.setP (c.fld 25 23) (op (c.th.pr (c.fld 22 20)) (c.th.pr (c.fld 19 17)) (c.th.sr (c.fld 16 12)))))

def not64 (a : Nat) : Nat := 2 ^ 64 - 1 - a

def execPand (t : Nat) : State → Out := onHw (fun _ h => h.predOp t 0 (fun a b _ => a &&& b))
def execPor (t : Nat) : State → Out := onHw (fun _ h => h.predOp t 1 (fun a b _ => a ||| b))
def execPxor (t : Nat) : State → Out := onHw (fun _ h => h.predOp t 2 (fun a b _ => a ^^^ b))
def execPandn (t : Nat) : State → Out := onHw (fun _ h => h.predOp t 3 (fun a b _ => a &&& not64 b))
def execPnot (t : Nat) : State → Out := onHw (fun _ h => h.predOp t 4 (fun a _ _ => not64 a))
def execPset (t : Nat) : State → Out := onHw (fun _ h => h.predOp t 5 (fun _ _ s => s))
def execPget (t : Nat) : State → Out := onHw (fun _ h => h.isa t (2048 * 0x17 + 6) (fun h c =>
  ends h (c.th.setS (c.fld 16 12) (c.th.pr (c.fld 22 20)))))
def execPlanes (t : Nat) : State → Out := onHw (fun _ h => h.predOp t 7 (fun _ _ s => 2 ^ min s 64 - 1))

/-! ### Conversions (R366, R367) -/

/-- A value times a power of two. -/
def Val.scale (v : Val) (e : Int) : Val := match v with | .fin n m g => .fin n m (g + e) | v => v

/-- An element of a format of R366 decoded, a bare element multiplied by 2^e. -/
def cvtDecode (code : Nat) (e : Int) (b : Nat) : Val :=
  if fmtInt code then let k := toSigned (fmtBits code) b; .fin (decide (k < 0)) k.natAbs 0
  else if code = 10 then let k := toSigned 8 b; .fin (decide (k < 0)) k.natAbs (e - 6)
  else (decodeFlt (fltOf code) b).scale (if bareElem code then e else 0)

/-- Whether a format has no encoding of NaN and no rule for one (R366 gives integers theirs). (DESIGN CHOICE, log 3, safe.) -/
def noNan (code : Nat) : Bool := 7 ≤ code ∧ code ≤ 10

/-- An element written in a format of R366, with its counts; a NaN in a bare format without one is the open value given. -/
def cvtEncode (code : Nat) (r : Rnd) (flushOut : Bool) (e : Int) (idx rank open_ : Nat) (v : Val) : Nat × Counters :=
  if fmtInt code then
    let n := fmtBits code
    match v with
    | .nan => (0, ({} : Counters).addInvalid idx rank)
    | .inf neg => (if neg then 2 ^ (n - 1) else 2 ^ (n - 1) - 1, { sat := 1 })
    | .fin neg m g =>
      let q := roundQuot r (m * pow2 g) (pow2 (-g))
      let (k, s) := satInt (-(2 ^ (n - 1))) (2 ^ (n - 1) - 1) (if neg then -(q : Int) else q)
      (ofSigned n k, ({} : Counters).addFlags { sat := s, flush := decide (m ≠ 0 ∧ q = 0) })
  else if noNan code ∧ v.isNan then (open_ % 2 ^ fmtBits code, {})
  else
    let (b, fl) := mxElem code r flushOut (if bareElem code then e else 0) v 1
    (b, ({} : Counters).addFlags fl)

/-- VCVT. -/
def execVcvt (t : Nat) : State → Out := onHw (fun _ h => h.isa t (2048 * 0x18) (fun h c =>
  let src := c.fld 12 9
  let dst := c.fld 8 5
  let n := cvtCount src dst
  let bs := fmtBits src
  let bd := fmtBits dst
  let part := c.fld 4 2
  let e := toSigned 8 (c.th.sr (c.fld 17 13) % 256)
  if (bareElem src ∨ bareElem dst) ∧ e = -128 then .trap 9 0 0
  else
    let first (b other : Nat) : Nat := if b < other then part * n * b else 0
    let x := c.th.vr (c.fld 21 18) / 2 ^ first bs bd
    let vals := (List.range n).map (fun i => cvtDecode src e (lane bs x i))
    let out := ((List.range n).zip vals).map (fun (p : Nat × Val) =>
      cvtEncode dst (if c.fld 1 1 = 1 then c.rnd (c.th.idx + p.1) else .rne) c.x.cfg.arith.flushOut e (c.th.idx + p.1) c.v.ev.rank
        (Config.openValue (h.fresh + p.1)).toNat p.2)
    let d := c.th.vr (c.fld 25 22)
    let lo := first bd bs
    let written := joinFields bd (out.map (·.1)) * 2 ^ lo
    let kept := d - d / 2 ^ lo % 2 ^ (n * bd) * 2 ^ lo
    let h := if noNan dst ∧ vals.any Val.isNan then { h with fresh := h.fresh + n } else h
    .done h (c.th.setV (c.fld 25 22) (kept + written)) (out.foldl (fun k o => k.join o.2) {}) 1))

/-- MXQ: one block of 32 FP32 values by R237. -/
def execMxq (t : Nat) : State → Out := onHw (fun _ h => h.isa t (2048 * 0x19) (fun h c =>
  let fmt := c.fld 12 9
  let v2 := c.fld 21 18
  let vals : Finished := (cutFields 32 16 (c.th.vr v2) ++ cutFields 32 16 (c.th.vr (v2 + 1))).map (fun b => (f32 b, 1, false))
  let (s, es, k) := mxBlock fmt (fun i => if c.fld 8 8 = 1 then c.rnd i else .rne) c.x.cfg.arith.flushOut c.v.ev.rank c.th.idx vals {}
  .done h ((c.th.setS (c.fld 17 13) s).setV (c.fld 25 22) (joinFields (fmtBits fmt) es)) k 2))

/-- MXD: 32 packed elements with their scale into FP32 lanes. -/
def execMxd (t : Nat) : State → Out := onHw (fun _ h => h.isa t (2048 * 0x1A) (fun h c =>
  let fmt := c.fld 12 9
  let v1 := c.fld 25 22
  let scale := c.th.sr (c.fld 17 13) % 256
  let out := ((List.range 32).zip (cutFields (fmtBits fmt) 32 (c.th.vr (c.fld 21 18)))).map (fun (x : Nat × Nat) =>
    let (b, fl) := toF32 (decodeElem fmt (scale, x.2))
    (b, if scale = 255 then ({} : Counters).addInvalid (c.th.idx + x.1) c.v.ev.rank else ({} : Counters).addFlags fl))
  let bs := out.map (·.1)
  .done h ((c.th.setV v1 (joinFields 32 (bs.take 16))).setV (v1 + 1) (joinFields 32 (bs.drop 16))) (out.foldl (fun k o => k.join o.2) {}) 2))

/-! ### Vector loads and stores (Table 12.6) -/

def execVld (t : Nat) : State → Out := onHw (fun _ h => h.isa t (2048 * 0x0E) (fun h c =>
  let r := c.fld 15 13
  let o := c.offset 64
  let m := h.winRead c (c.th.win r) o 64
  let old := c.th.vr (c.fld 25 22)
  let v := joinFields 8 ((List.range 64).map (fun i => if c.th.active (c.fld 12 10) 8 i then (m.getD i 0).toNat else lane 8 old i))
  c.th.access [{ r := r, rd := true, off := o, len := 64, align := 64 }] (ends h (c.th.setV (c.fld 25 22) v))))

def execVst (t : Nat) : State → Out := onHw (fun _ h => h.isa t (2048 * 0x0F) (fun h c =>
  let r := c.fld 15 13
  let o := c.offset 64
  let v := c.th.vr (c.fld 25 22)
  let h' := (List.range 64).foldl (fun h i =>
    if c.th.active (c.fld 12 10) 8 i then h.winWrite c (c.th.win r) (o + i) [BitVec.ofNat 8 (lane 8 v i)] else h) h
  c.th.access [{ r := r, wr := true, off := o, len := 64, align := 64 }] (ends h' c.th)))

end Sys2Proof.Machine
end

