-- ==== Sys2Proof/Machine/IsaStream.lean ====
section
/-!
DEFINITION. Long-accumulator and stream instructions, messages and sent packets (R331, R332, R368 to R372).
-/

namespace Sys2Proof.Machine
open Sys2Proof

/-! ### Accumulate (R368, R369, Table 12.10) -/

/-- What the S format names. -/
def Ctx.wd (c : Ctx) : Nat := c.fld 10 8
def Ctx.ws (c : Ctx) : Nat := c.fld 7 5
def Ctx.fmt (c : Ctx) : Nat := c.fld 4 1
def Ctx.sdv (c : Ctx) : Nat := c.th.sr (c.fld 25 21)
def Ctx.sav (c : Ctx) : Nat := c.th.sr (c.fld 20 16)
def Ctx.sbv (c : Ctx) : Nat := c.th.sr (c.fld 15 11)

/-- Merge an accumulator word of the same kind: VALUE added, flags joined, OVF on overflow. -/
def longMerge (w acc src : Nat) : Nat :=
  let (n, _, lo) := longShape w
  let s := longValue w acc + longValue w src
  let ovf := if s < -(2 ^ (n - 1)) ∨ 2 ^ (n - 1) ≤ s then 16 else 0
  ofSigned n s / 2 ^ lo * 2 ^ lo ||| acc % 2 ^ 5 ||| src % 2 ^ 5 ||| ovf

/-- The source fields of n elements from element e on, each with its scale; of an MX format from a whole chunk payload of E elements (R211, R214). -/
def streamFields (fmt total e n : Nat) (b : List Byte) : List (Nat × Nat) :=
  if fmtMx fmt then
    let scales := b.take (total / 32)
    let els := leNat (b.drop (total / 32))
    (List.range n).map (fun j => ((scales.getD ((e + j) / 32) 0).toNat, lane (fmtBits fmt) els (e + j)))
  else (cutFields (fmtBits fmt) n (leNat b)).map (fun f => (0, f))

/-- The operand a float element brings, by M multiplied by a factor and rounded to FP32; a NaN counts INVALID once. -/
def accOperand (m : Bool) (factor idx rank : Nat) (v : Val) : Val × Counters :=
  let (o, k) : Val × Counters :=
    if m then
      let p := v.mul (f32 factor)
      let (b, fl) := toF32 p
      (f32 b, ({} : Counters).addFlags fl)
    else (v, {})
  (o, if o.isNan then ({} : Counters).addInvalid idx rank else k)

/-- An accumulate instruction over words of w bytes; add gets the word, the element's index and rank, the FP32 factor of M, and the element. -/
def Hw.accumulate (h : Hw) (t maj w : Nat) (rate narrow : Nat) (add : Ctx → Nat → Nat → Nat × Nat → Nat × Counters) : Hw :=
  h.isa t (2048 * maj) (fun h c =>
    let n := c.sbv % 2 ^ 32
    let fmt := c.fmt
    let e := c.sdv
    let total := c.x.cfg.elems
    if n = 0 then ends h c.th
    else
      let mx := fmtMx fmt
      let bytes := if fmt = 15 then n * w else if mx then payloadBytes fmt total else cdiv (n * fmtBits fmt) 8
      let units := if fmt = 15 then n else cdiv n (if fmtBits fmt < 8 then narrow else rate)
      let src : Access := { r := c.ws, rd := true, off := c.sav, len := bytes, align := 4 }
      let dst : Access := { r := c.wd, rd := true, wr := true, off := e * w, len := n * w }
      match c.th.accessFails [src, dst] with
      | some f => f
      | none =>
        if mx ∧ total < e + n then .trap 1 c.ws c.sav
        else
          let b := h.winRead c (c.th.win c.ws) c.sav bytes
          let words := cutWords w n (h.winRead c (c.th.win c.wd) (e * w) (n * w))
          let items : List (Nat × Nat) := if fmt = 15 then (cutWords w n b).map (fun x => (0, x)) else streamFields fmt total e n b
          let out := ((List.range n).zip (words.zip items)).map (fun (x : Nat × Nat × Nat × Nat) =>
            if fmt = 15 then (longMerge w x.2.1 x.2.2.2, ({} : Counters)) else add c x.2.1 (e + x.1) x.2.2)
          .done (h.winWrite c (c.th.win c.wd) (e * w) (out.flatMap (fun o => leBytesN w o.1))) c.th (out.foldl (fun k o => k.join o.2) {}) (1 + units))

/-- The operand of an element by the instruction's format, factor and rank. -/
def Ctx.operand (c : Ctx) (idx : Nat) (x : Nat × Nat) : Val × Counters :=
  accOperand (decide (c.fld 0 0 = 1)) (c.sbv / 2 ^ 32) idx c.v.ev.rank (decodeElem c.fmt x)

/-- An element into a long accumulator word of w bytes. -/
def accLong (w : Nat) (c : Ctx) (acc idx : Nat) (x : Nat × Nat) : Nat × Counters :=
  let (o, k) := c.operand idx x
  (longAdd w acc o, k)

def execAccL320 (t : Nat) : State → Out := onHw (fun _ h => h.accumulate t 0x20 40 4 8 (accLong 40))
def execAccL96 (t : Nat) : State → Out := onHw (fun _ h => h.accumulate t 0x21 12 4 8 (accLong 12))
def execAccF32 (t : Nat) : State → Out := onHw (fun _ h => h.accumulate t 0x22 4 16 32 (fun c acc idx x =>
  let (o, k) := c.operand idx x
  floatAdd idx c.v.ev.rank acc o k))
def execAccI32 (t : Nat) : State → Out := onHw (fun _ h => h.accumulate t 0x23 4 16 32 (fun c acc _ x => intAdd acc (decodeIntElem c.fmt x) {}))

/-! ### Finish (R370, Table 12.11) -/

/-- A finished word divided by d: its value, its divisor, INVALID, and SATURATED of a division by zero. -/
def lfinDivide (w acc counted : Nat) (d : Val) : Val × Nat × Bool × Bool :=
  let (v, _, inv) := finishLong w acc false counted
  match v, d with
  | .nan, _ => (.nan, 1, inv, false)
  | .inf x, .fin y _ _ => (.inf (xor x y), 1, false, false)
  | .inf _, _ => (.nan, 1, true, false)
  | .fin _ _ _, .nan => (.nan, 1, true, false)
  | .fin x _ _, .inf y => (.zero (xor x y), 1, false, false)
  | .fin x m e, .fin y n g =>
    if n = 0 then (if m = 0 then (.nan, 1, true, false) else (.inf (xor x y), 1, false, true))
    else (.fin (xor x y) m (e - g), n, false, false)

/-- One word finished: by Table 8.8, a MEAN by COUNTED at entry, or with FLAG by Table 12.11. -/
def Ctx.lfinWord (c : Ctx) (w acc idx : Nat) : Nat × Counters :=
  let counted := c.v.counted
  let (v, d, inv, div0) := if c.fld 0 0 = 1 then lfinDivide w acc counted (f32 (c.sbv / 2 ^ 32))
    else let (v, d, inv) := finishLong w acc (c.x.cfg.arith.op = 1 ∧ counted ≠ 0) counted; (v, d, inv, false)
  let (b, fl) := encodeFlt (fltOf c.fmt) (c.rnd idx) c.x.cfg.arith.flushOut v d
  let k := ({} : Counters).addFlags { fl with sat := fl.sat || div0 }
  (b, if inv then k.addInvalid idx c.v.ev.rank else k)

/-- LFIN of words of w bytes. -/
def Hw.lfin (h : Hw) (t maj w : Nat) : Hw := h.isa t (2048 * maj) (fun h c =>
  let n := c.sbv % 2 ^ 32
  let bytes := fmtBits c.fmt / 8
  if n = 0 then ends h c.th
  else
    let src : Access := { r := c.ws, rd := true, off := c.sav * w, len := n * w }
    let dst : Access := { r := c.wd, wr := true, off := c.sdv, len := n * bytes, align := bytes }
    let words := cutWords w n (h.winRead c (c.th.win c.ws) (c.sav * w) (n * w))
    let out := ((List.range n).zip words).map (fun (x : Nat × Nat) => c.lfinWord w x.2 (c.sav + x.1))
    c.th.access [src, dst]
      (.done (h.winWrite c (c.th.win c.wd) c.sdv (out.flatMap (fun o => leBytesN bytes o.1))) c.th (out.foldl (fun k o => k.join o.2) {}) (1 + cdiv n 16)))

def execLfinL320 (t : Nat) : State → Out := onHw (fun _ h => h.lfin t 0x24 40)
def execLfinL96 (t : Nat) : State → Out := onHw (fun _ h => h.lfin t 0x25 12)

/-! ### SCOPY (R371) -/

def execScopy (t : Nat) : State → Out := onHw (fun _ h => h.isa t (2048 * 0x26) (fun h c =>
  let n := c.sbv % 2 ^ 32
  if n = 0 then ends h c.th
  else
    let src : Access := { r := c.ws, rd := true, off := c.sav, len := n, align := 4 }
    let dst : Access := { r := c.wd, wr := true, off := c.sdv, len := n, align := 4 }
    c.th.access [src, dst]
      (if n % 4 ≠ 0 then .trap 3 c.ws c.sav
       else ends (h.winWrite c (c.th.win c.wd) c.sdv (h.winRead c (c.th.win c.ws) c.sav n)) c.th (1 + cdiv n 64))))

/-! ### Messages (R331, R372) -/

/-- MSEND: the message leaves by the mesh as a TC1 unicast to its address; the thread waits while no shared buffer fits. (DEDUCED, log 92, unsafe.) -/
def execMsend (t : Nat) : State → Out := onHw (fun _ h => h.isa t (2048 * 0x28) (fun h c =>
  let ws := c.fld 10 8
  let n := c.sbv
  let dst := c.sdv
  let cx := c.v.cx
  c.th.access [{ r := ws, rd := true, off := c.sav, len := n }]
    (if n < 4 ∨ 4096 < n ∨ n % 4 ≠ 0 ∨ 128 ≤ dst ∨ h.mesh.unmapped.contains dst then .trap 9 0 0
     else
       let pk := msgPkt c.v.att (h.cxAddress cx) (h.winRead c (c.th.win ws) c.sav n)
       if ((h.cx cx).pick cx pk.len false).isNone then .hold
       else
         let e := h.mesh.injEpoch
         ends (h.ownSend cx { base := meshBase pk e (cxRouter cx) c.x.cfg.job 511, addr := some (h.locate e dst) }) c.th (1 + cdiv n 64))))

/-- MRECV: a message bound before is freed, and the oldest queued one is bound to w5. -/
def execMrecv (t : Nat) : State → Out := onHw (fun _ h => h.isa t (2048 * 0x28 + 1) (fun h c =>
  let cx := c.v.cx
  let sd := c.fld 25 21
  let h := match c.th.bound with | some b => h.dropStored cx b.1 c.v.unit | none => h
  let th := { c.th with w := c.th.w.map (fun (w : Win) => if w.under = 6 then { w with under := 7 } else w) }
  match tget [] c.a.msgs cx with
  | [] => ends h { ((th.setW 5 {}).setS 16 (2 ^ 64 - 1)).setS sd 0 with bound := none }
  | (p, sender, b) :: rest =>
    let h := (h.modAtt c.v.att (fun a => { a with msgs := tput a.msgs cx rest })).modBuf cx p (fun b => { b with owner := c.v.unit })
    ends h { ((th.setW 5 { kind := 6, rd := true, len := b.length, under := 6 }).setS 16 sender).setS sd b.length with bound := some (p, b) }))

/-! ### Sent packets (R332) -/

/-- Send a program's packet by Table 5.2; none for a destination that fails. -/
def Hw.sendPacket (h : Hw) (cx : Nat) (pk : Pkt) : Hw × Bool :=
  if pk.ptype = 2 then
    (if pk.mcast then (h, false)
     else if (h.grp? pk.grp).isSome then (h.localContrib cx pk, true)
     else match h.sendUnicast cx pk with | (h, some _) => (h, false) | (h, none) => (h, true))
  else match (if pk.mcast then h.sendMulticast cx pk false else h.sendUnicast cx pk) with
    | (h, some _) => (h, false)
    | (h, none) => (h, true)

/-- Whether a program may send a packet type: DATA, CONTRIB, RESULT or CTRL, with its class as Table 4.2 has it. -/
def sendable (pk : Pkt) : Bool := [1, 2, 3, 4].contains pk.ptype && decide (typeClass pk.ptype = pk.cls)

/-- PSEND: the checks of R332, then the send; a destination that fails is dropped and counted. -/
def execPsend (t : Nat) : State → Out := onHw (fun _ h => h.isa t (2048 * 0x28 + 2) (fun h c =>
  let ws := c.fld 10 8
  let o := c.sav
  let cx := c.v.cx
  let w := c.th.win ws
  let hdr := beWords (h.winRead c w o 64)
  let len := fld hdr 0 15 0
  let pk := mkPkt hdr (h.winRead c w (o + 64) len)
  c.th.access [{ r := ws, rd := true, off := o, len := 64 }]
    (if w.len < o + 64 + len ∨ pk.job ≠ c.x.cfg.job ∨ ¬ sendable pk then .trap 7 0 0
     else if ((h.cx cx).pick cx len false).isNone then .hold
     else
       let (h, sent) := h.sendPacket cx pk
       let h := if sent then h else h.modProgs (fun p => { p with sendDrops := sat32 (p.sendDrops + 1) })
       ends h c.th (1 + cdiv (64 + len) 64))))

end Sys2Proof.Machine
end

