-- ==== Sys2Proof/Machine/TimeBase.lean ====
section
/-!
DEFINITION. The tick sources, markers and servo, and the time-base commands (R72 to R90).
-/

namespace Sys2Proof.Machine
open Sys2Proof

/-- TBCLK cycles in a tick (R72). -/
def TimeSt.period (t : TimeSt) : Int := 8192 * t.mult

/-- TBCLK cycles as picoseconds: a cycle is 390,625 / 512 ps. -/
def cyclesPs (c : Int) : Int := c * 390625 / 512

/-- The multipliers of Table 3.1. -/
def tickMults : List Nat := [1, 2, 4, 8, 16, 32]

/-! ### Sources (R75, R90, Table 3.2) -/

/-- Whether an entry of the source list is usable: INTERNAL always; TICK_IN and PORT while an edge or a valid marker came at each of the last four
expected ticks, a port only while it is up, planned and awake. -/
def Hw.sourceUsable (h : Hw) (s : TickSource) : Bool :=
  match s.kind with
  | 1 => true
  | 2 => 4 ≤ h.time.tickInRun
  | 3 =>
    let x := h.port s.port
    ¬ h.inLehr ∧ s.port < 264 ∧ x.link.up ∧ x.glean.state = 3 ∧ ¬ x.lanes.rxAsleep ∧ 4 ≤ x.link.markerRun
  | _ => false

/-- The first usable entry, 0xF for none. -/
def Hw.firstSource (h : Hw) : Nat :=
  ((List.range h.time.sources.length).find? (fun i => match h.time.sources[i]? with | some s => h.sourceUsable s | none => false)).getD 0xF

/-- The kind of a source index, zero for holdover. -/
def TimeSt.kindOf (t : TimeSt) (i : Nat) : Nat := (t.sources[i]?).elim 0 (·.kind)

/-- The active source changes: TICK_SOURCE_CHANGED, and a source with a phase of its own has still to be acquired. (DEDUCED, log 69, unsafe.) -/
def Hw.setSource (h : Hw) (i : Nat) : Hw :=
  let k := h.time.kindOf i
  let lock := if i = 0xF then 3 else if k = 1 then 0 else 1
  (h.modTime (fun t => { t with active := i, lockState := lock, newSource := true, stepTo := none, misaligned := 0,
                                offsetPs := if k = 1 then 0 else t.offsetPs })).raise 0x0102 [w32 (i + k * 2 ^ 8)]

/-- A measured offset from the active source (R77): a step waits for the next tick edge at the first lock, on a source change with STEP_ALLOWED and
beyond 1 ms; otherwise the servo slews, and the part is locked while aligned. `count` is the tick number that starts at the next tick edge by the source, when it gives one. -/
def Hw.measure (h : Hw) (off : Int) (count : Option Nat) : Hw :=
  let t := h.time
  let h := h.modTime (fun t => { t with offsetPs := off })
  if ¬ t.everLocked ∨ (t.newSource ∧ t.stepAllowed) ∨ 1000000000 < off.natAbs then h.modTime (fun t => { t with stepTo := some count })
  else if t.lockState ≠ 2 ∧ off.natAbs ≤ 40000 then
    (h.modTime (fun t => { t with lockState := 2, newSource := false })).raise 0x0101 [w32 (t.active + t.kindOf t.active * 2 ^ 8)]
  else h

/-- Whether a source is the active one. -/
def TimeSt.isActive (t : TimeSt) (kind port : Nat) : Bool :=
  match t.sources[t.active]? with
  | some s => s.kind = kind ∧ (kind ≠ 3 ∨ s.port = port)
  | none => false

/-- TICK_IN_EDGE (R75, R538): a rising edge marks an alignment boundary; `phase` is its distance in picoseconds from the local one. -/
def execTickInEdge (phase : Int) : State → Out := onHw (fun _ h =>
  if ¬ h.powered then h
  else
  let h := h.modTime (fun t => { t with tickInGot := true })
  if h.time.isActive 2 0 then h.measure phase none else h)

/-- The delay of one exchange, from a marker that echoes one of ours. -/
def exchangeDelay (t : TimeSt) (k : Link) (w : List Word) (rxCycles : Nat) : Option Int :=
  if fld w 5 0 0 = 0 then none
  else (k.sentMarks.find? (fun m => m.1 = wnat w 3)).map (fun m =>
    let lo := t.tick % 2 ^ 32
    let out : Int := (((lo + 2 ^ 32 - m.1) % 2 ^ 32 : Nat) : Int) * t.period + rxCycles - m.2
    let back : Int := (((wnat w 1 + 2 ^ 32 - m.1) % 2 ^ 32 : Nat) : Int) * t.period + fld w 0 15 0 - wnat w 4
    (out - back) / 2)

/-- Whether a marker's tick number follows that of the port's last marker: by one more for each tick edge that has passed without one, at most. -/
def Link.inSequence (k : Link) (lo : Nat) : Bool :=
  match k.markerTick with
  | some m => let n := (lo + 2 ^ 32 - m) % 2 ^ 32; decide (1 ≤ n ∧ n ≤ k.markerMiss + 1)
  | none => true

/-- The tick of the source whose edge lies nearest the next local tick edge: `est` is the source's edge of tick `n` in cycles after the last local one. -/
def tickAtNextEdge (n : Nat) (est period : Int) : Nat := ((n : Int) + (3 * period - 2 * est) / (2 * period)).toNat

/-- TICK_MARKER_RECEIVE (R75, R76, R78, R107): a marker that fails its check is ignored and counted; one of another multiplier or out of sequence raises
TICK_ALIGN_LOST and makes the port unusable; any other gives the delay, the offset when its port is the active source, and, from a neighbour that is not in quarantine, the partner's
counts. `rxCycles` is the arrival in TBCLK cycles after the local edge. The upper half of a tick number that the marker does not carry is the part's own. (DEDUCED, log 70, unsafe;
DESIGN CHOICE, log 121, unsafe.) -/
def execTickMarkerReceive (port : Nat) (unit : List Word) (rxCycles : Nat) : State → Out := atUnit port 264 <| onHw (fun _ h =>
  let k := (h.port port).link
  if h.inLehr ∨ ¬ k.up then h
  else
    let h := h.modLink port (fun k => { k with rxMarker := none })
    let mult := fld unit 0 21 16
    if crc32 ((unit.take 15).flatMap beBytes) ≠ wnat unit 15 ∨ ¬ tickMults.contains mult then
      (h.modTime (fun t => { t with markerErrors := sat32 (t.markerErrors + 1) })).report 0x106 0 (unitNo 14 port)
    else
      let lo := wnat unit 1
      let agrees := decide (mult = h.time.mult) && k.inSequence lo
      let planned := decide ((h.port port).glean.state = 3) && ! (h.port port).lanes.rxAsleep
      let d := exchangeDelay h.time k unit rxCycles
      let h := h.modLink port (fun k => { k with
        markerTick := some lo, markerRx := ((((h.time.tick : Int) - lo) * h.time.period + rxCycles) % 2 ^ 32).toNat, markerGot := true, markerMiss := 0,
        markerRun := if agrees then min 4 (k.markerRun + 1) else 0,
        delays := (d.toList.map (fun d => (h.time.tick, d)) ++ k.delays).filter (fun d => h.time.tick < d.1 + 64),
        partnerSent := if planned ∧ fld unit 5 1 1 = 1 then some (lo, (List.range 4).map (fun c => wnat unit (6 + c))) else none,
        auditSkip := false })
      if ¬ agrees then h.report 0x103 0 (unitNo 15 18)
      else if ¬ h.time.isActive 3 port ∨ ¬ planned then h
      else
        let t := h.time
        let ahead : Int := if t.everLocked then (((lo + 2 ^ 32 - t.tick % 2 ^ 32 + 2 ^ 31) % 2 ^ 32 : Nat) : Int) - 2 ^ 31 else 0
        let est := rxCycles - (h.port port).link.delay t.tick - fld unit 0 15 0
        let full := if lo % 1024 = 0 then wnat unit 2 * 2 ^ 32 + lo else t.tick / 2 ^ 32 * 2 ^ 32 + lo
        h.measure (cyclesPs (est - ahead * t.period)) (some (tickAtNextEdge full est t.period)))

/-- TICK_SOURCE_LOST (R75): the active source is no longer usable; the next usable one, or holdover. -/
def execTickSourceLost : State → Out := onHw (fun _ h =>
  match h.time.sources[h.time.active]? with
  | none => h
  | some s => if h.sourceUsable s then h else (h.report 0x102 0 (unitNo 15 18)).setSource h.firstSource)

/-- TICK_ALIGN_LOST (R78): the offset has stayed above 40 ns for 16 ticks. -/
def execTickAlignLost : State → Out := onHw (fun _ h =>
  if h.time.misaligned < 16 then h
  else (h.modTime (fun t => { t with misaligned := 0, lockState := if t.lockState = 2 then 1 else t.lockState })).report 0x103 0 (unitNo 15 18))

/-- MARKER_TIMEOUT (R88): no marker within 64 ticks. -/
def execMarkerTimeout (port : Nat) : State → Out := atUnit port 264 <| onHw (fun _ h =>
  if (h.port port).link.markerMiss < 64 then h
  else h.modLink port (fun k => { k with markerRun := 0, auditSkip := true }))

/-- FRAME_OVERRUN_PERSISTENT (R86): once in a run of 64 overrunning ticks of a complex. -/
def execFrameOverrunPersistent (cx : Nat) : State → Out := atUnit cx 144 <| onHw (fun _ h =>
  let x := h.cx cx
  if x.overrunRun < 64 ∨ x.overrunTold then h
  else (h.modCx cx (fun x => { x with overrunTold := true })).raise 0x0104 [w32 (cx + x.overrunGroup * 2 ^ 16)])

/-! ### Time at a tick edge (R73, R77, E1 of Table 3.4) -/

/-- A source that has become usable while the part was in holdover, or ahead of the active one, is taken (R75). -/
def Hw.betterSource (h : Hw) : Hw :=
  let i := h.firstSource
  if i < h.time.active then h.setSource i else h

/-- The servo slews the phase by at most a cycle of TBCLK in a tick (R77): what is left of an offset. (DEDUCED, log 122, unsafe.) -/
def slew (off : Int) : Int := if off.natAbs ≤ 763 then 0 else if 0 < off then off - 763 else off + 763

/-- A commit that named its tick can no longer be made at it (R58, R77). -/
def Due.passed (d : Due) (tick : Nat) : Bool := d.named && (decide (d.tick < tick) || decide (tick + 2 ^ 24 < d.tick))

/-- The counts advance, or a step is made; markers and edges of the tick that ends are counted. A step that changes the counts completes with TICK_PASSED
every commit whose named tick it passes, and the staging set is kept. A step to a source's tick number sets BASE_COUNT to its multiple. (DESIGN CHOICE, log 120, unsafe.) -/
def Hw.advanceTime (h : Hw) : Hw :=
  let t := h.time
  let step := t.stepTo
  let count := step.join
  let tick := count.getD (t.tick + 1)
  let base := match count with | some n => n * t.mult | none => t.base + t.mult
  let edge := decide (base % 32 < t.mult)
  let marker (k : Link) : Link :=
    { k with markerGot := false, markerRun := if k.markerGot then k.markerRun else 0, markerMiss := if k.markerGot then k.markerMiss else k.markerMiss + 1 }
  let h := { h with ports := h.ports.map (fun (e : Nat × Port) => (e.1, { e.2 with link := marker e.2.link })) }
  let h := h.modTime (fun t => { t with
    tick := tick, base := base, slot := 0, standby := (tick, base, 0), stepTo := none,
    tickOutPulses := if t.tickOut = 1 ∨ (t.tickOut = 2 ∧ edge) then t.tickOutPulses + 1 else t.tickOutPulses,
    tickInRun := if ¬ edge then t.tickInRun else if t.tickInGot then min 4 (t.tickInRun + 1) else 0,
    tickInGot := if edge then false else t.tickInGot,
    offsets := (t.offsetPs.natAbs :: t.offsets).take 1024,
    misaligned := if 40000 < t.offsetPs.natAbs ∧ t.kindOf t.active ≠ 1 ∧ t.active ≠ 0xF then t.misaligned + 1 else 0,
    lockState := if step.isSome then 2 else t.lockState,
    everLocked := t.everLocked || step.isSome,
    newSource := t.newSource && step.isNone,
    offsetPs := if step.isSome then 0 else if t.kindOf t.active = 2 ∨ t.kindOf t.active = 3 then slew t.offsetPs else t.offsetPs })
  let h := if step.isSome then h.raise 0x0101 [w32 (t.active + t.kindOf t.active * 2 ^ 8)] else h
  let h := if h.time.tick % 1024 = 0 ∧ h.time.lockState = 2 ∧ h.time.kindOf h.time.active ≠ 1 then
      let (h, v) := h.draw
      h.modTime (fun t => { t with freqAdj := t.freqAdj + ((v % 2001 : Nat) : Int) - 1000 })
    else h
  let h := if count.isNone then h
    else (List.range 16).foldl (fun h c => match (h.chan c).due with
      | some d => if d.passed tick then (h.modChan c (fun x => { x with due := none })).reply c stTickPassed 0 else h
      | none => h) h
  h.betterSource

/-! ### Commands (Tables 3.7 to 3.11) -/

/-- What TICK_CONFIG_SET checks of its payload, beyond the envelope (R53). -/
def failTickConfigSet (_fz : Fuses) (_h : Hw) (_ch : Nat) (p : List Word) (_bulk : List Byte) : Option Fail :=
  firstFail [failIf (¬ tickMults.contains (fld p 0 5 0)) (bad 0), failIf (fld p 0 9 8 = 3) (bad 0)]

/-- What the response of TICK_CONFIG_SET carries. -/
def outTickConfigSet (_h : Hw) (_ch : Nat) (_p : List Word) : List Word := [0, 0]

/-- TICK_CONFIG_SET (R89). -/
def execTickConfigSet (ch : Nat) : State → Out := atUnit ch 16 <| onHw (fun fz h => h.configure ch 0x0101 (failTickConfigSet fz h ch) (outTickConfigSet h ch))

def applyTickConfig (h : Hw) (p : List Word) : Hw :=
  let m := fld p 0 5 0
  let new := decide (m ≠ h.time.mult)
  let h := h.modTime (fun t => { t with mult := m, tickOut := fld p 0 9 8 })
  if new then h.raise 0x0103 [w32 m] else h

/-- The entries of a source list (Table 3.9). -/
def sourcesOf (p : List Word) : List TickSource :=
  (List.range (fld p 0 2 0)).map (fun n => { kind := fld p (1 + n) 3 0, port := fld p (1 + n) 24 16 })

/-- What TICK_SOURCE_SELECT checks of its payload, beyond the envelope (R53). -/
def failTickSourceSelect (_fz : Fuses) (_h : Hw) (_ch : Nat) (p : List Word) (_bulk : List Byte) : Option Fail :=
  let n := fld p 0 2 0
  firstFail (failIf (n = 0 ∨ 4 < n) (bad 0) :: (List.range 4).map (fun i =>
    let k := fld p (1 + i) 3 0
    let q := fld p (1 + i) 24 16
    failIf (3 < k ∨ (i < n ∧ k = 0) ∨ (k ≠ 3 ∧ q ≠ 0) ∨ 263 < q) (bad (4 + 4 * i))))

/-- TICK_SOURCE_SELECT (R90). -/
def execTickSourceSelect (ch : Nat) : State → Out := atUnit ch 16 <| onHw (fun fz h => h.configure ch 0x0103 (failTickSourceSelect fz h ch))

def applyTickSource (h : Hw) (p : List Word) : Hw :=
  let old := h.time.sources[h.time.active]?
  let h := h.modTime (fun t => { t with sources := sourcesOf p, stepAllowed := fld p 0 8 8 = 1 })
  let i := h.firstSource
  if old.isSome ∧ h.time.sources[i]? = old then
    (if h.time.active = i then h else (h.modTime (fun t => { t with active := i })).raise 0x0102 [w32 (i + h.time.kindOf i * 2 ^ 8)])
  else h.setSource i

/-- TICK_STATUS_GET (Table 3.11). -/
def execTickStatusGet (ch : Nat) : State → Out := atUnit ch 16 <| onHw (fun _ h => h.answer ch 0x0102 (fun _ =>
  let t := h.time
  let standby := ¬ t.genFenced.getD (1 - t.activeGen) true
  (h, stOk, 0, le64 t.tick ++ le64 t.base ++ [w32 (t.mult + t.slot * 2 ^ 8 + t.activeGen * 2 ^ 16 + b2n standby * 2 ^ 17 + t.active * 2 ^ 20 + t.lockState * 2 ^ 24),
    w32i t.offsetPs, w32 (t.offsets.foldl max 0), w32i t.freqAdj, w32 t.overruns, w32 t.imbalances, w32 t.markerErrors])))

end Sys2Proof.Machine
end

