-- ==== Sys2Proof/Machine/Ledger.lean ====
section
/-!
DEFINITION. The ledger: the conserved quantities of Table 3.6 as of the last E1, their audit, and LEDGER_READ (R87, R88).
-/

namespace Sys2Proof.Machine
open Sys2Proof

/-- What a ledger index holds: both sides of its identity, the allowance and whether it is balanced. The sides are taken modulo 2^64. -/
structure Ledger where
  left     : Nat
  right    : Nat
  allow    : Nat
  balanced : Bool
  deriving DecidableEq, Repr

/-- E1 latches what the audit reads (R81). -/
def Hw.takeLatch (h : Hw) : Hw :=
  { h with latch := { tick := h.time.tick, ports := h.ports, cxs := h.cxs, routers := h.mesh.routers, groups := h.groups, hbms := h.mem.hbms, progs := h.progs, asleep := h.inLehr } }

/-- The hardware with the units as they were latched. -/
def Hw.latched (h : Hw) : Hw :=
  let l := h.latch
  { h with ports := l.ports, cxs := l.cxs, mesh := { h.mesh with routers := l.routers }, groups := l.groups, mem := { h.mem with hbms := l.hbms }, progs := l.progs }

/-! ### The quantities -/

/-- A_link (R88): the delay, 1 µs and 64 ns at the link's data rate, 200 Gb/s a lane, or 100 in V16-compatible mode, in cells of 2,048 bits. -/
def Hw.linkAllowance (h : Hw) (p : Nat) : Nat :=
  let x := h.port p
  cdiv (((cyclesPs (x.link.delay h.latch.tick)).toNat + 1064000) * h.dataRate p) 2048000

/-- L1: credits at the transmitter, and across the link the partner's SENT_CELLS against the own RECEIVED_CELLS of the marker's tick. The sides are those of the transmitter, unless only the
identity across the link fails. While no marker comes the audit is skipped. (DEDUCED, log 71, unsafe.) -/
def Hw.ledgerLink (h : Hw) (p c : Nat) : Option Ledger :=
  let k := (h.port p).link
  if ¬ k.up ∨ k.auditSkip then none
  else
    let a := h.linkAllowance p
    let left := (nth k.outstanding c : Int) + k.held.getD c 0
    let tx := decide (left = nth k.partnerLimit c)
    let across := match k.partnerSent with
      | none => none
      | some (t, sent) => (k.recvLatch.find? (fun r => r.1 = t)).map (fun r => (nth sent c, nth r.2 c))
    match across with
    | some (s, r) => if tx ∧ a < (s + 2 ^ 32 - r) % 2 ^ 32 then some { left := s, right := r, allow := a, balanced := false }
      else some { left := (left % 2 ^ 64).toNat, right := nth k.partnerLimit c, allow := a, balanced := tx }
    | none => some { left := (left % 2 ^ 64).toNat, right := nth k.partnerLimit c, allow := a, balanced := tx }

/-- L2: FREE + ALLOCATED + CULLET of a buffer class. -/
def Hw.ledgerPool (h : Hw) (c k : Nat) : Ledger :=
  let x := h.cx c
  let mine := x.bufs.filter (fun e => e.2.cls = k)
  let left := nth x.freeCount k + (mine.filter (fun e => e.2.state = 1)).length + (mine.filter (fun e => e.2.state ≠ 1)).length
  { left := left, right := x.total k, allow := 0, balanced := decide (left = x.total k) }

/-- The buffers of a complex that entries of its port engines name: injections, packets coming together, egress queues and resequencers. -/
def Hw.portNames (h : Hw) (c : Nat) : List Nat :=
  let x := h.cx c
  x.inject.filterMap (·.ptr) ++ x.assembling.filterMap (·.ptr)
  ++ h.ports.flatMap (fun (e : Nat × Port) => if h.home e.1 = c then e.2.queues.flatMap (fun q => q.2.entries.map (·.ptr)) ++ e.2.flows.flatMap (fun f => f.held.map (·.entry.ptr)) else [])

/-- The buffers of a complex that group reduction and programs name: contributions held, early ones, kept partials, hook events, messages and results. -/
def Hw.groupNames (h : Hw) (c : Nat) : List Nat :=
  (h.cx c).held.filterMap (·.ptr)
  ++ h.groups.flatMap (fun (e : Nat × Group) => (e.2.early.filter (fun y => y.cx = c)).map (·.ptr)
      ++ e.2.gens.flatMap (fun n => n.open_.flatMap (fun q => if q.2.cx = c then q.2.kept.flatMap (·.2.2.1) else [])))
  ++ h.progs.atts.flatMap (fun (e : Nat × Att) => (tget [] e.2.events c).filterMap (·.ptr) ++ (tget [] e.2.msgs c).map (·.1))
  ++ (h.progs.invs.filter (fun (e : Nat × Inv) => e.2.cx = c)).flatMap (fun e => e.2.ev.ptr.toList ++ e.2.resPtr.toList)
  ++ h.progs.threads.filterMap (fun (e : Nat × Thread) => e.2.bound.bind (fun b => if (tget? h.progs.invs e.2.inv).any (fun v => decide (v.cx = c)) then some b.1 else none))

/-- L3: REFCOUNTs against the entries that name stored buffers. -/
def Hw.ledgerRefs (h : Hw) (c : Nat) : Ledger :=
  let stored := (h.cx c).bufs.filter (fun e => e.2.state = 1)
  let left := (stored.map (·.2.refs)).sum
  let right := ((h.portNames c ++ h.groupNames c).filter (fun p => (tget? stored p).isSome)).length
  { left := left, right := right, allow := 0, balanced := decide (left = right) }

/-- Whether the granules a group has RESERVED at each address of a complex equal those of its admitted pipelines, and of those whose wipe has not ended (R258, R284). -/
def Hw.reservedRight (h : Hw) (i g : Nat) (x : Group) : Bool :=
  let parts := x.gens.flatMap (fun n => (h.pipeline g x n).map (fun e => (e.1, e.2.1))) ++ x.wipes.map (fun w => (w.addr, w.granules))
  ((x.reserved.map (·.1) ++ parts.map (·.1)).dedup.filter (fun a => locCx (h.locate h.mesh.injEpoch a) = i)).all (fun a =>
    decide (tget 0 x.reserved a = ((parts.filter (fun e => e.1 = a)).map (·.2)).sum))

/-- L4: FREE + RESERVED granules of a complex's parison array, 768, or of a stack's spill region; each group's RESERVED is that of its pipelines. -/
def Hw.ledgerParison (h : Hw) (i : Nat) : Ledger :=
  let v := if i < 144 then (h.cx i).granules else (tget {} h.mem.hbms (i - 0xF0)).granules
  let total := if i < 144 then 768 else h.spillTotal (i - 0xF0)
  { left := v.1 + v.2, right := total, allow := 0, balanced := decide (v.1 + v.2 = total) && h.groups.all (fun e => h.reservedRight i e.1 e.2) }

/-- The router and input that a router's output in a direction feeds: 0 east, 1 west, 2 north, 3 south. -/
def downstream (r d : Nat) : Nat × Nat :=
  (stepDir r d, match d with | 0 => 1 | 1 => 0 | 2 => 3 | _ => 2)

/-- Whether a router's output in a direction is a seam link, on which 8 flits may be under way: one between the halves (R15, R180). -/
def isSeam (r d : Nat) : Bool := r / 64 ≠ stepDir r d / 64

/-- L5: the credits a router's output holds for a virtual channel downstream and the flits in its buffer there, against the 8 flits of the buffer; the rest are under way. -/
def Hw.ledgerVc (h : Hw) (r d v : Nat) : Ledger :=
  let (n, i) := downstream r d
  let right := (h.linkIn n i).held v + (tget? (h.router n).vcs (8 * i + v)).elim 0 (·.got)
  { left := 8, right := right, allow := if isSeam r d then 8 else 4, balanced := decide (right ≤ 8 ∧ 8 ≤ right + (if isSeam r d then 8 else 4)) }

/-- L6: the tokens of a shaper or of a meter's two buckets, in units of 2^-16 byte. The sides of a meter are those of its committed bucket. -/
def Hw.ledgerTokens (h : Hw) (p q : Nat) (meter : Bool) : Ledger :=
  let x := h.port p
  if meter then
    let m := x.meter q
    { left := m.tc / 65536, right := m.cfg.cbs, allow := 0, balanced := decide (m.tc ≤ m.cfg.cbs * 65536 ∧ m.tp ≤ m.cfg.pbs * 65536) }
  else
    let y := x.queue q
    { left := ((y.tokens / 65536) % 2 ^ 64).toNat, right := y.shaper.burst, allow := 0,
      balanced := decide (-8515 * 65536 ≤ y.tokens ∧ y.tokens ≤ y.shaper.burst * 65536) }

/-- L7: EXPECTED against RECEIVED + LOST + PENDING of a generation, over its unfinished chunks. -/
def Group.ledger (x : Group) (n : Gen) : Ledger :=
  let ks := (List.range x.cfg.chunks).filter (fun k => ! n.done.contains k)
  let expected := (ks.map (fun k => (x.awaited n k).length)).sum
  let right := (ks.map (fun k =>
    let here := match tget? n.open_ k with
      | some c => c.counted.length + c.lost.length
      | none => ((x.awaited n k).filter (n.lost.contains ·)).length
    here + (x.pending n k).length)).sum
  { left := expected, right := right, allow := 0, balanced := decide (expected = right) }

/-- The generation an L7 index names. -/
def Hw.ledgerGen (h : Hw) (i : Nat) : Option (Group × Gen) :=
  (h.grp? (i % 8192)).bind (fun x => (x.gen? (x.current + i / 65536 % 2)).map (fun n => (x, n)))

/-- A quantity and index as latched (Table 3.10); none where it was not audited. -/
def Hw.ledger (h : Hw) (q i : Nat) : Option Ledger :=
  let l := h.latched
  if h.latch.asleep then none
  else match q with
  | 1 => l.ledgerLink (i % 512) (bits i 11 10)
  | 2 => if (l.cx (i % 256)).attach = .detached then none else some (l.ledgerPool (i % 256) (bits i 10 8))
  | 3 => if (l.cx (i % 256)).attach = .detached then none else some (l.ledgerRefs (i % 256))
  | 4 => if i < 144 ∧ (l.cx i).attach = .detached then none else some (l.ledgerParison i)
  | 5 => if (l.router (i % 256)).faulty then none else some (l.ledgerVc (i % 256) (bits i 10 8) (bits i 13 11))
  | 6 => some (l.ledgerTokens (i % 32768 / 64) (i % 64) (i.testBit 15))
  | _ => (l.ledgerGen i).map (fun e => e.1.ledger e.2)

/-- Whether an index of a quantity names something (Table 3.10). -/
def ledgerIndexOk (q i : Nat) : Bool :=
  match q with
  | 1 => i % 512 < 264
  | 2 => i % 256 < 144 && bits i 10 8 < 5
  | 3 => i < 144
  | 4 => i < 144 || decide (i = 0xF0) || decide (i = 0xF1)
  | 5 => i % 256 < 128 && bits i 10 8 < 4
  | 6 => i % 32768 / 64 < 264
  | _ => true

/-! ### The audit -/

/-- The indices of quantities 1 to 6 that the audit reads: what is at its reset value is balanced. -/
def Hw.auditList (h : Hw) : List (Nat × Nat) :=
  let l := h.latch
  l.ports.flatMap (fun e => (List.range 4).map (fun c => (1, e.1 + c * 1024)))
  ++ l.cxs.flatMap (fun e => (List.range 5).map (fun k => (2, e.1 + k * 256)))
  ++ l.cxs.map (fun e => (3, e.1)) ++ (l.cxs.map (fun (e : Nat × Complex) => e.1) ++ [0xF0, 0xF1]).map (fun (i : Nat) => (4, i))
  ++ l.routers.flatMap (fun e => (List.range 32).map (fun j => (5, e.1 + (j / 8) * 256 + (j % 8) * 2048)))
  ++ l.ports.flatMap (fun e => e.2.queues.map (fun q => (6, 64 * e.1 + q.1)) ++ e.2.meters.map (fun m => (6, 64 * e.1 + m.1 + 32768)))

/-- The indices of quantity 7. -/
def Hw.auditGens (h : Hw) : List (Nat × Nat) :=
  h.latch.groups.flatMap (fun e => e.2.gens.map (fun n => (7, e.1 + (n.no - e.2.current) * 65536)))

/-- The action of a row of Table 3.6 on an imbalance. -/
def Hw.imbalance (h : Hw) (q i : Nat) (l : Ledger) : Hw :=
  let key := q * 2 ^ 29 + i
  let h := h.modTime (fun t => { t with
    imbalances := sat32 (t.imbalances + 1), imbalanceCount := tmod 0 t.imbalanceCount key (fun v => sat32 (v + 1)), unbalanced := t.unbalanced ++ [key] })
  let data := [w32 key, w32 l.left, w32 l.right]
  match q with
  | 1 => (h.strikeReport 0x105 (unitNo 14 (i % 512)) data).fastRetrain (i % 512) false
  | 4 => h.strikeReport 0x105 (if i < 144 then unitNo 4 i else unitNo 10 (i - 0xF0)) data
  | 5 => h.strikeReport 0x105 (unitNo 5 (downstream (i % 256) (bits i 10 8)).1) data
  | 6 =>
    let p := i % 32768 / 64
    let h := h.report 0x105 0 (unitNo 14 p) 0 data
    if i.testBit 15 then h.modPort p (fun x => { x with meters := tmod {} x.meters (i % 64) (fun m => { m with tc := m.cfg.cbs * 65536, tp := m.cfg.pbs * 65536 }) })
    else h.modPort p (fun x => x.modQueue (i % 64) (fun y => { y with tokens := y.shaper.burst * 65536 }))
  | 7 =>
    let h := h.report 0x105 2 0 5 data
    (h.ledgerGen i).elim h (fun e => h.needRollback (i % 8192) 5 e.2.no)
  | _ => h.strikeReport 0x105 (unitNo 4 (i % 256)) data

/-- Audit a list of indices. -/
def Hw.audit (h : Hw) (l : List (Nat × Nat)) : Hw :=
  (l.filterMap (fun e => (h.ledger e.1 e.2).bind (fun v => if v.balanced then none else some (e.1, e.2, v)))).foldl (fun h e => h.imbalance e.1 e.2.1 e.2.2) h

/-- Slot 1: the local identities; a partner's counts serve one audit. -/
def Hw.auditLocal (h : Hw) : Hw :=
  let h := (h.modTime (fun t => { t with unbalanced := [] })).audit h.auditList
  { h with ports := h.ports.map (fun (e : Nat × Port) => (e.1,
      if (tget? h.latch.ports e.1).any (fun x => decide (x.link.partnerSent = e.2.link.partnerSent)) then { e.2 with link := { e.2.link with partnerSent := none } } else e.2)) }

/-- Slot 2: the sums over the package. -/
def Hw.auditSums (h : Hw) : Hw := h.audit h.auditGens

/-- LEDGER_READ (Table 3.10). -/
def execLedgerRead (ch : Nat) : State → Out := atUnit ch 16 <| onHw (fun _ h => h.answer ch 0x0104 (fun p =>
  let q := fld p 0 2 0
  let i := wnat p 1
  let key := q * 2 ^ 29 + i
  if q = 0 then h.refuse (stInvalid, 0)
  else if ¬ ledgerIndexOk q i then h.refuse (stInvalid, 4)
  else
    let v := h.ledger q i
    let z : Ledger := v.getD { left := 0, right := 0, allow := 0, balanced := false }
    let ok := v.isSome && ! h.time.unbalanced.contains key
    (h, stOk, 0, le64 h.latch.tick ++ le64 z.left ++ le64 z.right ++ [w32 z.allow, w32 (b2n ok + b2n v.isSome * 2), w32 (tget 0 h.time.imbalanceCount key)])))

end Sys2Proof.Machine
end

