-- ==== Sys2Proof/Machine/Pins.lean ====
section
/-!
DEFINITION. The test access port (R532). The boundary register holds one cell for each ball of Table 19.2 but the analogue and sense balls; `pins` are the levels at
them, as a list in chain order.
-/

namespace Sys2Proof.Machine
open Sys2Proof

def Hw.modPins (h : Hw) (f : Pins → Pins) : Hw := { h with pins := f h.pins }

/-- Whether EXTEST, CLAMP and HIGHZ act: while SYS_RST_N is low, or in MANUFACTURE. -/
def jtagActs (fz : Fuses) (h : Hw) : Bool := h.pins.resetLow || decide (fz.lc = .manufacture)

/-- BYPASS: the one-bit bypass register, which holds zero, stands in the chain, and the balls carry the part's own levels. -/
def Hw.jtagBypass (h : Hw) : Hw := h.modPins (fun p => { p with instr := .bypass, tdo := 0, driven := none, floating := false })

def execBypass : State → Out := onHw (fun _ h => h.jtagBypass)

/-- IDCODE: version 1, part 0x7020, manufacturer code 0x51F, and bit 0 one. -/
def idcode : Nat := 1 * 2 ^ 28 + 0x7020 * 2 ^ 12 + 0x51F * 2 + 1

def execIdcode : State → Out := onHw (fun _ h => h.modPins (fun p => { p with instr := .idcode, tdo := idcode, driven := none, floating := false }))

/-- SAMPLE/PRELOAD: the boundary register takes the levels at the balls, and the balls carry the part's own levels. -/
def execSamplePreload (pins : List Bool) : State → Out :=
  onHw (fun _ h => h.modPins (fun p => { p with instr := .samplePreload, boundary := pins, driven := none, floating := false }))

/-- EXTEST: the boundary register's cells drive the balls, those of LSRC_EN_N aside, which stay released; `pins` are what it drives. Where it does not act it is BYPASS. -/
def execExtest (pins : List Bool) : State → Out := onHw (fun fz h =>
  if jtagActs fz h then h.modPins (fun p => { p with instr := .extest, boundary := pins, driven := some pins, floating := false }) else h.jtagBypass)

/-- CLAMP: the balls hold what the boundary register drives, with the bypass register in the chain. -/
def execClamp : State → Out := onHw (fun fz h =>
  if jtagActs fz h then h.modPins (fun p => { p with instr := .clamp, tdo := 0, driven := some p.boundary, floating := false }) else h.jtagBypass)

/-- HIGHZ: every output is released, with the bypass register in the chain. -/
def execHighz : State → Out := onHw (fun fz h =>
  if jtagActs fz h then h.modPins (fun p => { p with instr := .highz, tdo := 0, driven := none, floating := true }) else h.jtagBypass)

end Sys2Proof.Machine
end

