-- ==== Sys2Proof/Machine/Readmit.lean ====
section
/-!
DEFINITION. The return of units to service: after the built-in test of a readmission, and after a partial reset (R21, R476, R508, R509).
-/

namespace Sys2Proof.Machine
open Sys2Proof

/-! ### Complexes and their addresses -/

/-- A complex with every memory wiped: its attachment and its committed partition stay (Table 18.3). -/
def Complex.cleared (x : Complex) : Complex := { attach := x.attach, preset := x.preset, share := x.share }

/-- The address that a complex serves by the identity map; a tiller serves none of its own. -/
def ownAddress (c : Nat) : List Nat := if c < 128 then [c] else []

/-- A complex or tiller returns with every part and memory wiped; a tiller served its address, or none did, until the next flip (Table 16.6). One at a
router that is fenced stays DETACHED. -/
def Hw.complexBack (h : Hw) (c : Nat) : Hw :=
  let h := (natsWhere 264 (fun p => decide (h.home p = c))).foldl Hw.dropStoredAll h
  let h := h.modCx c (fun x => { x.cleared with attach := if h.routerOut (cxRouter c) then .detached else .serving })
  h.modMesh (fun m => { m with returning := m.returning ++ (ownAddress c).filter (fun a =>
    ¬ m.returning.contains a ∧ (m.unmapped.contains a ∨ locCx (h.locate m.injEpoch a) ≠ c)) })

/-- At the first tick with FLIP clear, firmware copies the injection epoch's tables with the returning addresses at their identity locations, and flips. -/
def Hw.flipReturning (h : Hw) : Hw :=
  let m := h.mesh
  if m.returning = [] ∨ m.reasons.getLsbD 1 ∨ m.flipNext.isSome then h
  else
    h.firmwareFlip (h.firstEligible h.slotNow) (fun t => m.returning.foldl (fun t a => tdel t ((1 - m.injEpoch) * 4096 + a)) t)

/-- The node entries of a lost stack are unmapped at a flip, and those of a stack that is back are mapped again (R16). -/
def Hw.settleNodes (h : Hw) : Hw :=
  let lost := natsWhere 8 (fun n => h.isFenced (unitNo 10 (n / 4)))
  h.modMesh (fun m => { m with unmapped := m.unmapped.filter (fun a => decide (a < 128)) ++ lost.map (128 + ·) })

/-- Addresses that are at their identity locations again are mapped: at once for one that no tiller served, else since the flip. -/
def Hw.settleReturned (h : Hw) : Hw :=
  let back := h.mesh.returning.filter (fun a => h.locate h.mesh.injEpoch a = identityLoc a)
  h.modMesh (fun m => { m with returning := m.returning.filter (fun a => ¬ back.contains a), unmapped := m.unmapped.filter (fun a => ¬ back.contains a) })

/-! ### Units (Table 16.6) -/

/-- A unit is no longer fenced, and a spare class of which a spare is free again is no longer exhausted (R474). -/
def Hw.unfence (h : Hw) (u : Nat) : Hw :=
  let h := h.modFaults (fun f => { f with fenced := f.fenced.filter (· ≠ u), recorded := f.recorded.filter (· ≠ u) })
  let h := match spareScope u with
    | some (row, scope, _) => if h.spareGone u then h else h.modFaults (fun f => { f with exhausted := f.exhausted.filter (· ≠ (row, scope)) })
    | none => h
  h.checkWorkingSet

/-- A router leaves FENCED_ROUTERS at this tick's E3 (R179); the complexes at it that are not fenced themselves serve again. (DEDUCED, log 58, unsafe.) -/
def Hw.routerBack (h : Hw) (r : Nat) : Hw :=
  let h := h.modMesh (fun m => { m with
    fenced := m.fenced.filter (· ≠ r), joinFenced := m.joinFenced.filter (fun a => a.1 ≠ r), discarding := m.discarding.filter (· ≠ r),
    separation := m.separation.filter (fun a => a.1 ≠ r ∧ a.2 ≠ r) })
  let h := if h.mesh.separation = [] then h.modFaults (fun f => { f with exhausted := f.exhausted.filter (·.1 ≠ 4) }) else h
  let h := h.modRouter r (fun x => { counters := x.counters })
  ((attachedAt r).filter (fun c => ¬ h.isFenced (unitNo 4 c) ∧ (h.cx c).attach ≠ .serving)).foldl Hw.complexBack h

/-- The routers that leave FENCED_ROUTERS at this E3. -/
def Hw.rejoinRouters (h : Hw) : Hw :=
  let rs := h.mesh.rejoining
  rs.foldl Hw.routerBack (h.modMesh (fun m => { m with rejoining := [] }))

/-- A channel of a port's receive direction is its spare again. -/
def Lanes.spareBack (l : Lanes) (i : Nat) : Lanes :=
  { l with fenced := l.fenced.filter (· ≠ i), rxMap := if l.rxMap.getD i 7 = 7 then l.rxMap.set i 6 else l.rxMap }

/-- What the pass of its built-in test gives a unit (Table 16.6). -/
def Hw.unitBack (h : Hw) (u : Nat) : Hw :=
  let i := u % 4096
  let h := h.unfence u
  match u / 4096 with
  | 4 => h.complexBack i
  | 5 => h.modMesh (fun m => { m with rejoining := m.rejoining ++ [i] })
  | 6 => h.modLanes (i / 5) (fun l => l.spareBack (i % 5))
  | 7 => (h.modLanes (256 + i / 4) (fun l => { l with fenced := l.fenced.filter (· ≠ i % 4) })).fastRetrain (256 + i / 4) false
  | 8 => { h with lasers := { h.lasers with enabled := h.lasers.enabled.filter (· ≠ i) ++ [i], live := h.lasers.live.filter (· ≠ i) ++ [i], releasing := h.lasers.releasing.filter (· ≠ i) } }.raise 0x0905 [w32 i]
  | 9 => { h with mem := { h.mem with hbms := tmod {} h.mem.hbms (i / 33) (fun k => if k.spare = some (i % 33) then { k with spare := none, copying := none } else k) } }
  | 10 => { h with mem := { h.mem with hbms := tput h.mem.hbms i {} } }
  | 11 => (h.modFaults (fun f => { f with mpFenced := f.mpFenced.set i false })).modCtl (fun c => { c with standbyReady := true })
  | 12 => h.modTime (fun t => { t with genFenced := t.genFenced.set i false, standby := if t.activeGen = i then t.standby else (t.tick, t.base, t.slot) })
  | _ => h

/-- The units whose test has passed return at a tick: each response and UNIT_READMITTED (R476). -/
def Hw.readmit (h : Hw) : Hw :=
  let done := h.faults.tests.filter (·.passed)
  let h := h.modFaults (fun f => { f with tests := f.tests.filter (fun t => ¬ t.passed) })
  done.foldl (fun h t => ((h.unitBack t.unit).reply t.ch stOk 0 [w32 (h.time.tick % 65536 * 2 ^ 16)]).raise 0x0B06 [w32 t.unit]) h

end Sys2Proof.Machine
end

