-- ==== Sys2Proof/Machine/Power.lean ====
section
/-!
DEFINITION. Clock levels, the power limiter and the thermal limits, lehr, and partial resets (R502 to R524).
-/

namespace Sys2Proof.Machine
open Sys2Proof

def Hw.modPower (h : Hw) (f : Power → Power) : Hw := { h with power := f h.power }
def Hw.modLehr (h : Hw) (f : Lehr → Lehr) : Hw := h.modPower (fun p => { p with lehr := f p.lehr })

/-! ### Measured power (R513, R521) -/

/-- The dies of a half: SCD0 to SCD3 north, SCD4 to SCD7 south. -/
def halfDies (half : Nat) : List Nat := (List.range 4).map (4 * half + ·)

/-- The half that draws more: by what has been measured in this tick, else by the last latch; the north one when both draw the same. -/
def Power.heavier (p : Power) : Nat :=
  let l := if p.samples = 0 then p.latchPower else p.sums
  if ((halfDies 0).map (nth l)).sum < ((halfDies 1).map (nth l)).sum then 1 else 0

/-- Slots in a millisecond at a tick multiplier. -/
def slotsPerMs (mult : Nat) : Nat := 20480 / mult

/-- What is measured at a slot start joins the averages, the limiter's window and the temperatures; a die below THROTTLE_C is no longer hot. -/
def Power.measure (p : Power) (mult : Nat) (watts : List Nat) (temps : List Int) : Power :=
  { p with
    sums := (List.range 20).map (fun d => nth p.sums d + nth watts d), samples := p.samples + 1, temps := (List.range 20).map (fun d => temps.getD d 0),
    window := (((List.range 20).map (nth watts)).sum :: p.window).take (slotsPerMs mult),
    hotDies := p.hotDies.filter (fun d => (p.throttleC : Int) ≤ temps.getD d 0) }

/-- Whether the package average of the last millisecond is above 0.97 × LIMIT_W. Powers are in deciwatts. -/
def Power.overLimit (p : Power) : Bool := decide (97 * p.limit * p.window.length < 10 * p.window.sum) || decide (p.hotDies ≠ [])

/-- Whether it is below 0.95 × LIMIT_W. -/
def Power.underLimit (p : Power) : Bool := decide (10 * p.window.sum < 95 * p.limit * p.window.length) && decide (p.hotDies = [])

/-- POWER_LIMITER_STEP (R513): one more sixteenth of the heavier half is withheld while the package is above its limit, one is released while it is
below. -/
def execPowerLimiterStep (half : Nat) : State → Out := atUnit half 2 <| onHw (fun _ h =>
  let p := h.power
  if p.overLimit then
    if half = p.heavier then h.modPower (fun p => { p with throttle := lmod 0 p.throttle half (fun v => min 12 (v + 1)), acted := true }) else h
  else if p.underLimit then h.modPower (fun p => { p with throttle := lmod 0 p.throttle half (· - 1) })
  else h)

/-- E1 latches the telemetry of the tick that ends (R521): averages of the die powers, and the energy in units of 0.1 W × 6.25 µs. (DESIGN CHOICE, log 61, unsafe.) -/
def Power.latch (p : Power) (tick mult : Nat) : Power :=
  let avg := (List.range 20).map (fun d => nth p.sums d / max 1 p.samples)
  { p with
    latchTick := tick, latchPower := avg, latchTemps := p.temps, latchThrottle := p.throttle, latchLevels := p.levels, latchLehr := decide (p.lehr.phase ≠ .awake),
    energy := p.energy + avg.sum * mult, sums := [], samples := 0 }

/-- What firmware decides of the clock levels at an edge (R514), for the first eligible tick: after each 64 throttled ticks in a row the heavier half goes one level down, after each
1,024 free ones a half goes one level up, no further than the last CLOCK_LEVEL_SET. (DEDUCED, log 62, unsafe.) -/
def Power.decide_ (p : Power) (tick : Nat) : Power :=
  if ¬ p.autoClock then p
  else if 0 < p.throttledRun ∧ p.throttledRun % 64 = 0 then { p with clockNext := p.clockNext ++ [(tick + 1, p.heavier, true)] }
  else if 0 < p.clearRun ∧ p.clearRun % 1024 = 0 then
    { p with clockNext := p.clockNext ++ (([0, 1].filter (fun k => decide (nth p.setLevels k < nth p.levels k))).map (fun k => (tick + 1, k, false))) }
  else p

/-- The limiter's tick ends: a tick in which it withheld cycles counts one POWER_LIMIT_THROTTLE (R513). -/
def Hw.limiterTick (h : Hw) : Hw :=
  let p := h.power
  let h := if p.acted ∨ p.throttle.any (0 < ·) then
      (h.modPower (fun p => { p with acted := false, throttleTicks := sat32 (p.throttleTicks + 1), throttledRun := p.throttledRun + 1, clearRun := 0 })).report 0xD01 0 (unitNo 15 18)
    else h.modPower (fun p => { p with throttledRun := 0, persistTold := false, clearRun := p.clearRun + 1 })
  if h.faults.mpLost ∨ ¬ h.eventsOn then h else h.modPower (fun p => p.decide_ h.time.tick)

/-! ### Clock levels (R512, R514) -/

/-- The levels change: CLOCK_LEVEL_CHANGED (Table 18.12). -/
def Hw.setLevel (h : Hw) (half level : Nat) (auto : Bool) : Hw :=
  let h := h.modPower (fun p => { p with levels := p.levels.set half level })
  h.raise 0x0D03 [w32 (nth h.power.levels 0 + nth h.power.levels 1 * 16 + b2n auto * 256)]

/-- A half goes one level down, when the tick fit still holds; when the fit forbids it, POWER_THROTTLE_PERSISTENT is raised once. -/
def Hw.lowerClock (h : Hw) (half : Nat) : Hw :=
  let p := h.power
  if 3 ≤ nth p.levels half then h
  else
    let next := h.setLevel half (nth p.levels half + 1) true
    if next.fitFails.isNone then next
    else if p.persistTold then h
    else (h.modPower (fun p => { p with persistTold := true })).raise 0x0D04 [w32 half]

/-- A half goes one level up, no further than the last CLOCK_LEVEL_SET. -/
def Hw.raiseClock (h : Hw) (half : Nat) : Hw :=
  if nth h.power.levels half ≤ nth h.power.setLevels half then h else h.setLevel half (nth h.power.levels half - 1) true

/-- The changes of one half's level that firmware has decided and that are due are made, as a commit of its own would be; in lehr and in the safe state they wait. -/
def Hw.autoClock (h : Hw) (half : Nat) (lower : Bool) : Hw :=
  if h.faults.mpLost ∨ ¬ h.eventsOn ∨ h.inLehr ∨ h.faults.state = .safe then h
  else
    let due (e : Nat × Nat × Bool) : Bool := decide (e.1 ≤ h.time.tick ∧ e.2.1 = half) && (e.2.2 == lower)
    let n := (h.power.clockNext.filter due).length
    let h := h.modPower (fun p => { p with clockNext := p.clockNext.filter (fun e => ! due e) })
    if n = 0 then h else if lower then h.lowerClock half else h.raiseClock half

/-- The level changes of both halves that are due at an E2. -/
def Hw.autoClocks (h : Hw) : Hw := (((h.autoClock 0 true).autoClock 1 true).autoClock 0 false).autoClock 1 false

/-- AUTO_CLOCK_LOWER: a step of E2 (R82, R514), which TICK_EDGE takes; in slot 0 the row takes it for one half. (DEDUCED, log 125, unsafe.) -/
def execAutoClockLower (half : Nat) : State → Out := atUnit half 2 <| atEdge (fun _ h => h.autoClock half true)

/-- AUTO_CLOCK_RAISE: a step of E2 (R82, R514), which TICK_EDGE takes; in slot 0 the row takes it for one half. (DEDUCED, log 125, unsafe.) -/
def execAutoClockRaise (half : Nat) : State → Out := atUnit half 2 <| atEdge (fun _ h => h.autoClock half false)

/-- What CLOCK_LEVEL_SET checks of its payload, beyond the envelope (R53). -/
def failClockLevelSet (_fz : Fuses) (_h : Hw) (_ch : Nat) (_p : List Word) (_bulk : List Byte) : Option Fail := none

/-- CLOCK_LEVEL_SET (Table 18.9). -/
def execClockLevelSet (ch : Nat) : State → Out := atUnit ch 16 <| onHw (fun fz h => h.configure ch 0x0D07 (failClockLevelSet fz h ch))

def applyClockLevel (h : Hw) (p : List Word) : Hw :=
  let old := h.power.levels
  let n := if fld p 0 2 2 = 1 then fld p 0 1 0 else nth old 0
  let s := if fld p 0 6 6 = 1 then fld p 0 5 4 else nth old 1
  let h := h.modPower (fun q => { q with
    levels := [n, s], setLevels := [if fld p 0 2 2 = 1 then n else nth q.setLevels 0, if fld p 0 6 6 = 1 then s else nth q.setLevels 1] })
  if [n, s] = old then h else h.raise 0x0D03 [w32 (n + s * 16)]

/-! ### Limits and telemetry (Tables 18.9 and 18.10) -/

/-- What POWER_LIMIT_SET checks of its payload, beyond the envelope (R53). -/
def failPowerLimitSet (_fz : Fuses) (_h : Hw) (_ch : Nat) (p : List Word) (_bulk : List Byte) : Option Fail :=
  failIf (outside (fld p 0 10 0) 600 1150 ∨ outside (fld p 0 23 16) 85 110) (bad 0)

/-- POWER_LIMIT_SET. -/
def execPowerLimitSet (ch : Nat) : State → Out := atUnit ch 16 <| onHw (fun fz h => h.configure ch 0x0D05 (failPowerLimitSet fz h ch))

def applyPowerLimit (h : Hw) (p : List Word) : Hw :=
  h.modPower (fun q => { q with
    limit := if fld p 0 10 0 = 0 then 1150 else fld p 0 10 0, throttleC := if fld p 0 23 16 = 0 then 105 else fld p 0 23 16, autoClock := fld p 0 24 24 = 1 })

/-- POWER_TELEMETRY_READ: the values of the last latch. -/
def execPowerTelemetryRead (ch : Nat) : State → Out := atUnit ch 16 <| onHw (fun _ h => h.answer ch 0x0D06 (fun _ =>
  let p := h.power
  let byte (d : Nat) : Nat := (BitVec.ofInt 8 (p.latchTemps.getD d 0)).toNat
  (h, stOk, 0, le64 p.latchTick ++ [w32 (min 65535 p.latchPower.sum + p.limit * 2 ^ 16),
    w32 (nth p.latchLevels 0 + nth p.latchLevels 1 * 4 + nth p.latchThrottle 0 * 16 + nth p.latchThrottle 1 * 256 + b2n p.latchLehr * 4096)]
    ++ le64 (p.energy / 1600) ++ (List.range 10).map (fun i => w32 (nth p.latchPower (2 * i) % 2 ^ 16 + nth p.latchPower (2 * i + 1) % 2 ^ 16 * 2 ^ 16))
    ++ (List.range 5).map (fun i => w32 (byte (4 * i) + byte (4 * i + 1) * 2 ^ 8 + byte (4 * i + 2) * 2 ^ 16 + byte (4 * i + 3) * 2 ^ 24))
    ++ [w32 p.throttleTicks])))

/-! ### Thermal limits (R515) -/

/-- THERMAL_THROTTLE: a die has reached THROTTLE_C. -/
def execThermalThrottle (die : Nat) : State → Out := atUnit die 20 <| onHw (fun _ h =>
  if h.power.hotDies.contains die ∨ h.power.temps.getD die 0 < h.power.throttleC then h
  else (h.modPower (fun p => { p with hotDies := p.hotDies ++ [die] })).report 0xD02 0 (unitNo 15 die))

/-- HBM_THERMAL_LIMIT: a stack at 95 °C halves the request rate of its memory nodes. -/
def execHbmThermalLimit (stack : Nat) : State → Out := atUnit stack 2 <| onHw (fun _ h =>
  if h.power.temps.getD (16 + stack) 0 < 95 then h else h.modStack stack (fun k => { k with hot := true }))

/-- HBM_THERMAL_RELEASE: until it falls below 90 °C. -/
def execHbmThermalRelease (stack : Nat) : State → Out := atUnit stack 2 <| onHw (fun _ h =>
  if 90 ≤ h.power.temps.getD (16 + stack) 0 then h else h.modStack stack (fun k => { k with hot := false }))

/-! ### Lehr (R516 to R520) -/

/-- Why the part cannot enter lehr: the first complex that is not empty, the first stack with a reserved spill region, or something of the package. -/
def Hw.lehrBlock (h : Hw) : Option Fail :=
  let rt := h.reservedTable
  let busy (c : Nat) : Bool :=
    (h.cx c).bufs.any (fun b => b.2.state = 1) || decide ((tget (0, 0) rt c).1 ≠ 0) || decide (h.windowBuffers c ≠ 0)
    || h.ports.any (fun (e : Nat × Port) => h.home e.1 = c && (decide (e.2.link.kept ≠ []) || decide (e.2.link.txPkts ≠ [])))
  match (List.range 144).find? busy with
  | some c => some (stNotEmpty, c)
  | none => match [0, 1].find? (fun s => h.spillReserved s ≠ 0) with
    | some s => some (stNotEmpty, 0xF0 + s)
    | none =>
      if h.groups.any (fun e => e.2.gens ≠ []) ∨ h.mesh.reasons.getLsbD 1 ∨ h.mesh.flipNext.isSome ∨ h.faults.state = .safe
        ∨ h.jobs.any (fun e => e.2.running.isSome) then some (stNotEmpty, 0)
      else none

/-- What LEHR_ENTER checks of its payload, beyond the envelope (R53). -/
def failLehrEnter (_fz : Fuses) (h : Hw) (_ch : Nat) (p : List Word) (_bulk : List Byte) : Option Fail :=
  let d := (wnat p 1 + 2 ^ 32 - h.time.tick % 2 ^ 32) % 2 ^ 32
  failIf (if fld p 0 1 1 = 0 then wnat p 1 ≠ 0 else d = 0 ∨ 2 ^ 31 ≤ d) (bad 4)

/-- LEHR_ENTER (Table 18.9): a wake tick must lie ahead, and be zero without WAKE_ON_TICK. -/
def execLehrEnter (ch : Nat) : State → Out := atUnit ch 16 <| onHw (fun fz h => h.configure ch 0x0D01 (failLehrEnter fz h ch))

/-- Whether the wake tick of a LEHR_ENTER is not after its commit. -/
def Hw.wakePassed (h : Hw) (p : List Word) : Bool :=
  let d := (wnat p 1 + 2 ^ 32 - h.time.tick % 2 ^ 32) % 2 ^ 32
  fld p 0 1 1 = 1 && (decide (d = 0) || decide (2 ^ 31 ≤ d))

/-- Entry at E2 of T (R517): every transmitter sleeps; a port in V16-compatible mode becomes absent, for which the spec names no cause. -/
def applyLehrEnter (h : Hw) (p : List Word) : Hw :=
  let d := (wnat p 1 + 2 ^ 32 - h.time.tick % 2 ^ 32) % 2 ^ 32
  let up := (h.ports.filter (fun (e : Nat × Port) => e.2.lanes.state = 2)).map (·.1)
  let (h, cause) := h.draw
  let h := up.foldl (fun h q => if h.isV16 q then h.portAbsent q (1 + cause % 7) else h.sleepTx q) h
  h.modLehr (fun _ => {
    phase := .asleep h.time.tick, onSignal := fld p 0 0 0 = 1, onTick := fld p 0 1 1 = 1, wakeTick := if fld p 0 1 1 = 1 then h.time.tick + d else 0, told := false,
    ports := up, signals := [], cause := 0, withhold := false, signalled := none })

/-- LEHR_ENTERED (R517): the units have powered down. -/
def execLehrEntered : State → Out := onHw (fun _ h =>
  match h.power.lehr.phase with
  | .asleep t => if h.power.lehr.told then h else (h.modLehr (fun l => { l with told := true })).raise 0x0D01 [w32 t]
  | _ => h)

/-- A wake at this tick (R519): 1 by command, 2 by tick, 3 by signal. -/
def Hw.lehrWake (h : Hw) (cause : Nat) : Hw :=
  match h.power.lehr.phase with
  | .asleep _ => h.modLehr (fun l => { l with phase := .waking h.time.tick, cause := cause, told := true })
  | _ => h

/-- What LEHR_EXIT checks of its payload, beyond the envelope (R53). -/
def failLehrExit (_fz : Fuses) (_h : Hw) (_ch : Nat) (_p : List Word) (_bulk : List Byte) : Option Fail := none

/-- LEHR_EXIT (R519). (DEDUCED, log 99, unsafe.) -/
def execLehrExit (ch : Nat) : State → Out := atUnit ch 16 <| onHw (fun fz h => h.configure ch 0x0D02 (failLehrExit fz h ch))

/-- E2 of WAKE_TICK ends lehr (R519). -/
def Hw.wakeByTick (h : Hw) : Hw := if h.power.lehr.onTick ∧ h.power.lehr.wakeTick ≤ h.time.tick then h.lehrWake 2 else h

/-- E2 of the tick after a signal has fired ends it (R519). -/
def Hw.wakeBySignal (h : Hw) : Hw := if h.power.lehr.signalled.isSome then h.lehrWake 3 else h

/-- LEHR_WAKE_TICK: its step of E2, which TICK_EDGE takes; in slot 0 the row takes it. (DEDUCED, log 125, unsafe.) -/
def execLehrWakeTick : State → Out := atEdge (fun _ h => h.wakeByTick)

/-- LEHR_WAKE_SIGNAL (R519, R520): signal detect fires on a port that was UP at entry; the part wakes at the next tick when WAKE_ON_SIGNAL is one. -/
def execLehrWakeSignal (port : Nat) : State → Out := atUnit port 264 <| onHw (fun _ h =>
  let l := h.power.lehr
  if l.phase = .awake ∨ ¬ l.ports.contains port ∨ l.signals.contains port then h
  else h.modLehr (fun l => { l with signals := l.signals ++ [port], signalled := if l.onSignal ∧ l.signalled.isNone then some port else l.signalled }))

/-- Every bucket of a port full and every deficit zero (R195). -/
def Port.refreshShaping (x : Port) : Port :=
  { x with
    queues := x.queues.map (fun (q : Nat × Queue) => (q.1, { q.2 with tokens := q.2.shaper.burst * 65536, deficit := 0, fresh := true })),
    meters := x.meters.map (fun (m : Nat × Meter) => (m.1, { m.2 with tc := m.2.cfg.cbs * 65536, tp := m.2.cfg.pbs * 65536 })),
    classDeficit := (0, 0), classFresh := (true, true) }

/-- LEHR_FORWARDING_RESUME (R520): buckets full, the cullet lists wiped, transmitters awake; a port whose signal detect fired retrains, one that became
absent trains blind. The commands that asked for the exit get their responses. -/
def execLehrForwardingResume : State → Out := onHw (fun _ h =>
  let l := h.power.lehr
  match l.phase with
  | .waking _ =>
    let h := h.modLehr (fun l => { l with phase := .awake, ports := [], signals := [], signalled := none, onSignal := false, onTick := false })
    let h := { h with
      ports := h.ports.map (fun (e : Nat × Port) => (e.1, e.2.refreshShaping)),
      cxs := h.cxs.map (fun (e : Nat × Complex) => (e.1, ({ e.2 with cullet := [], bufs := e.2.bufs.filter (fun b => b.2.state = 1) } : Complex).recount)) }
    let h := l.ports.foldl (fun h p =>
      if h.isV16 p then h.blindBringUp p
      else
        let h := (h.countLane p 9).modLanes p (fun x => { x with txAsleep := false, idleCount := 0 })
        if l.signals.contains p then h.fastRetrain p false else h) h
    let h := h.raise 0x0D02 [w32 (l.cause + (if l.cause = 3 then l.signalled.getD 0 * 2 ^ 16 else 0))]
    (List.range 16).foldl (fun h c => match (h.chan c).cur with
      | some r => if r.opcode = 0x0D02 ∧ ¬ r.waiting ∧ (h.chan c).reply.isNone ∧ (h.chan c).due.isNone then h.reply c stOk 0 r.out else h
      | none => h) h
  | _ => h)

/-- What may commit in lehr (R518). -/
def lehrServes (op : Nat) : Bool := op = 0x0D02 ∨ op = 0x0D05 ∨ op = 0x0B01

/-! ### Partial resets (R508, R509) -/

/-- The complexes and tillers of an SCD. -/
def scdCxs (k : Nat) : List Nat := (List.range 16).map (tileCx k) ++ [128 + 2 * k, 129 + 2 * k]

/-- The complexes and tillers that a reset of a kind and index resets. -/
def resetCxs (kind index : Nat) : List Nat := match kind with | 1 => [index] | 2 => scdCxs index | _ => []

/-- The ports whose lanes it resets. -/
def resetPorts (kind index : Nat) : List Nat :=
  match kind with | 3 => (List.range 32).map (32 * index + ·) | 4 => (List.range 8).map (256 + ·) | _ => []

/-- The ports whose engines it clears: of an SCD, those whose homes both lie on it (R20, R509). -/
def resetEngines (kind index : Nat) : List Nat :=
  match kind with
  | 2 => (List.range 264).filter (fun p => decide (cxScd (primaryHome p) = index ∧ cxScd (alternateHome p) = index))
  | 4 => resetPorts 4 index
  | _ => []

/-- The stack whose memory nodes it resets. -/
def resetStack (kind index : Nat) : Option Nat := if kind = 2 ∧ index = 1 then some 0 else if kind = 2 ∧ index = 6 then some 1 else none

/-- Whether two resets name a unit in common. -/
def resetsMeet (k1 i1 k2 i2 : Nat) : Bool :=
  (resetCxs k1 i1).any (resetCxs k2 i2).contains || (resetPorts k1 i1).any (resetPorts k2 i2).contains

/-- The free tiller of an SCD, other than a complex. -/
def Hw.otherTiller (h : Hw) (k but : Nat) : Option Nat :=
  ([0, 1].map (128 + 2 * k + ·)).find? (fun c => decide (c ≠ but) && decide ((h.cx c).attach = .serving) && (h.cx c).tillerOf.isNone)

/-- Whether a reset takes the last live member of the smallest working set (R38, Table 18.4). -/
def Hw.lastMember (h : Hw) (kind index : Nat) : Bool :=
  match kind with
  | 1 | 2 =>
    let away := resetCxs kind index
    (List.range 256).any (fun p => h.canLive p) && (List.range 256).all (fun p => ! h.canLive p away)
  | 3 => h.peLit index && (List.range 8).all (fun k => decide (k = index) || ! h.peLit k)
  | _ => false

/-- What RESET_PARTIAL checks of its payload, beyond the envelope (R53). -/
def failResetPartial (_fz : Fuses) (h : Hw) (_ch : Nat) (p : List Word) (_bulk : List Byte) : Option Fail :=
  let kind := fld p 0 2 0
  let index := fld p 0 15 8
  let force := decide (fld p 0 16 16 = 1)
  let top := match kind with | 1 => 144 | 2 => 8 | 3 => 8 | 4 => 1 | _ => 0
  let serving := decide ((h.cx index).attach = .serving) && (decide (index < 128) || (h.cx index).tillerOf.isSome)
  firstFail [failIf (top ≤ index) (bad 0), failIf (force ∧ kind ≠ 1) (bad 0),
    failIf (h.power.resets.any (fun r => resetsMeet kind index r.kind r.index)) (bad 0),
    failIf (h.lastMember kind index) (some (stNotPermitted, 0)),
    failIf (kind = 1 ∧ ¬ force ∧ serving ∧ (h.otherTiller (cxScd index) index).isNone) (some (stNoResource, 8))]

/-- RESET_PARTIAL (Tables 18.4 and 18.9). -/
def execResetPartial (ch : Nat) : State → Out := atUnit ch 16 <| onHw (fun fz h => h.configure ch 0x0D04 (failResetPartial fz h ch))

def applyResetPartial (h : Hw) (p : List Word) : Hw :=
  h.modPower (fun q => { q with resets := q.resets ++ [{ kind := fld p 0 2 0, index := fld p 0 15 8, force := fld p 0 16 16 = 1 }] })

/-- The memory nodes of a stack reset (Table 13.6): its spilled slots restart, its echo entries are invalid, its OPEN parts are DAMAGED. -/
def Hw.resetNodes (h : Hw) (s : Nat) : Hw :=
  let h := h.loseSpilled s
  let h := ((h.mem.echo.filter (fun e => e.2.stack = s)).map (·.1)).foldl Hw.echoInvalidate h
  let h := h.modMem (fun m => { m with parts := m.parts.map (fun (e : Nat × Part) =>
    if e.2.stack = s ∧ (e.2.state = .opened ∨ e.2.state = .sealing) then (e.1, { e.2 with state := .damaged, allFailed := true, closing := none }) else e) })
  let rs := (List.range 4).map (fun n => nodeRouter (4 * s + n))
  h.modMesh (fun m => { m with nodes := m.nodes.filter (fun e => ¬ rs.contains e.1), nodeOut := m.nodeOut.filter (fun e => ¬ rs.contains e.1) })

/-- A reset that clears a port's engine (R195, R509): every bucket is full and every deficit zero, and what the port had queued or held is discarded as at any winnowed
port (R144). (DEDUCED, log 133, unsafe.) -/
def Hw.clearEngine (h : Hw) (p : Nat) : Hw := (h.dropStoredAll p).modPort p Port.refreshShaping

/-- E4 of its tick begins a partial reset. -/
def Hw.beginReset (h : Hw) (r : PartReset) : Hw :=
  let h := h.modPower (fun q => { q with resets := q.resets.map (fun x => if x = r then { x with begun := true, applied := decide (r.kind ≠ 1) } else x) })
  match r.kind with
  | 1 => h.setAttach r.index (if r.force then .detached else .computeFenced)
  | 2 =>
    let h := (scdCxs r.index).foldl (fun h c => h.setAttach c .detached) h
    let h := (resetEngines 2 r.index).foldl Hw.clearEngine h
    match resetStack 2 r.index with | some s => h.resetNodes s | none => h
  | _ =>
    let h := (resetPorts r.kind r.index).foldl (fun h p => if (h.port p).lanes.state = 0 then h else h.goDark p 2) h
    (resetEngines r.kind r.index).foldl Hw.clearEngine h

def Hw.beginResets (h : Hw) : Hw := (h.power.resets.filter (fun r => ¬ r.begun)).foldl Hw.beginReset h

/-- Whether a complex holds an open slot. -/
def Hw.holdsSlot (h : Hw) (c : Nat) : Bool :=
  h.groups.any (fun e => e.2.gens.any (fun n => n.open_.any (fun q => decide (q.2.cx = c) && ! q.2.slotLost)))

/-- At E1, once the complex serves no port and no address, the flip of its substitution has cleared and it holds no slot, it is wiped and its built-in test begins (R508). -/
def Hw.applyReset (h : Hw) (cx : Nat) : Hw :=
  match h.power.resets.find? (fun r => r.kind = 1 ∧ r.index = cx ∧ r.begun ∧ ¬ r.applied) with
  | none => h
  | some r =>
    let addr := if cx < 128 then some cx else (h.cx cx).tillerOf
    let served := addr.any (fun a => decide (locCx (h.locate h.mesh.injEpoch a) = cx) && ! h.mesh.unmapped.contains a)
    if (List.range 264).any (fun p => h.home p = cx) ∨ served ∨ h.mesh.reasons.getLsbD 1 ∨ h.mesh.flipNext.isSome ∨ h.holdsSlot cx then h
    else (h.modCx cx Complex.cleared).modPower (fun q => { q with resets := q.resets.map (fun x => if x = r then { x with applied := true } else x) })

/-- The resets of complexes that apply at an E1. -/
def Hw.applyResets (h : Hw) : Hw := ((h.power.resets.filter (fun r => r.kind = 1)).map (·.index)).foldl Hw.applyReset h

/-- COMPLEX_RESET_APPLY: its step of E1, which TICK_EDGE takes; in slot 0 the row takes it. (DEDUCED, log 125, unsafe.) -/
def execComplexResetApply (cx : Nat) : State → Out := atUnit cx 144 <| atEdge (fun _ h => h.applyReset cx)

/-- Units whose partial reset has passed its test return at a tick; one that a fault has fenced meanwhile stays fenced (Table 18.4). (DEDUCED, log 59, unsafe.) -/
def Hw.returnResets (h : Hw) : Hw :=
  let done := h.power.resets.filter (fun r => r.outcome = 1)
  let h := done.foldl (fun h r => ((resetCxs r.kind r.index).filter (fun c => ¬ h.isFenced (unitNo 4 c))).foldl Hw.complexBack h) h
  h.modPower (fun q => { q with resets := q.resets.map (fun x => if x.outcome = 1 then { x with outcome := 3 } else x) })

/-- RESET_PARTIAL_DONE (R508, R509): the outcome is reported; a PE or the EIO then trains its ports blind. -/
def execResetPartialDone (unit : Nat) : State → Out := onHw (fun _ h =>
  match h.power.resets.find? (fun r => r.unit = unit ∧ r.begun ∧ (2 ≤ r.outcome ∨ (3 ≤ r.kind ∧ r.applied))) with
  | none => h
  | some r =>
    let h := h.modPower (fun q => { q with resets := q.resets.erase r })
    let h := (resetPorts r.kind r.index).foldl (fun h p => if (h.port p).lanes.state = 0 then h.blindBringUp p else h) h
    h.raise 0x0D05 [w32 (r.kind + r.index * 2 ^ 8 + b2n (r.outcome = 2) * 2 ^ 16)])

/-! ### Pairs (Table 18.11) -/

/-- Whether a staged command names a unit of the target of a RESET_PARTIAL (pair 0x0D02). -/
def namesTarget (kind index : Nat) (s : Staged) : Bool :=
  let port := fld s.words 0 8 0
  match s.opcode with
  | 0x0201 | 0x0204 | 0x0205 | 0x0401 | 0x0402 | 0x0403 | 0x0404 | 0x0901 | 0x0902 | 0x0903 => (resetPorts kind index).contains port
  | 0x0206 => if fld s.words 0 7 0 = 0xFF then decide (resetCxs kind index ≠ []) else (resetCxs kind index).contains (fld s.words 0 7 0)
  | 0x0801 => (resetStack kind index).any (fun k => decide (k = fld s.words 0 0 0))
  | 0x0904 => decide (kind = 3) && (decide (fld s.words 0 3 0 / 2 = index) || (decide (fld s.words 0 12 12 = 1) && decide (fld s.words 0 10 8 = index)))
  | 0x0D04 => resetsMeet kind index (fld s.words 0 2 0) (fld s.words 0 15 8)
  | _ => false

/-- Pairs 0x0D01 to 0x0D03 of a set; `others` are the commands of every set due at the same tick, the set's own ones included. Pair 0x0D03 cannot
disagree: the sum at 0.4 GHz is below every LIMIT_W that POWER_LIMIT_SET accepts. -/
def pairPower (set others : List Staged) : Option Nat :=
  let n := (set.filter (fun s => [0x0D01, 0x0D02, 0x0D03].contains s.opcode)).length
  let parts := set.filter (fun s => s.opcode = 0x0D04)
  if 1 < n ∨ (n = 1 ∧ parts ≠ []) then some 0x0D01
  else if parts.any (fun s => decide (1 < (others.filter (namesTarget (fld s.words 0 2 0) (fld s.words 0 15 8))).length)) then some 0x0D02
  else none

end Sys2Proof.Machine
end

