-- ==== Sys2Proof/Machine/Recovery.lean ====
section
/-!
DEFINITION. Recovery policies, rollbacks to a snapshot record, and their ends (R481 to R501).
-/

namespace Sys2Proof.Machine
open Sys2Proof

/-- What RECOVERY_POLICY_SET checks of its payload, beyond the envelope (R53). -/
def failRecoveryPolicySet (_fz : Fuses) (_h : Hw) (_ch : Nat) (p : List Word) (_bulk : List Byte) : Option Fail :=
  firstFail [failIf (fld p 0 11 0 = 0) (bad 0), failIf (1000 < fld p 1 9 0) (bad 4)]

/-- RECOVERY_POLICY_SET (R486, R487). -/
def execRecoveryPolicySet (ch : Nat) : State → Out := atUnit ch 16 <| onHw (fun fz h => h.configure ch 0x0C01 (failRecoveryPolicySet fz h ch))

def applyPolicy (h : Hw) (p : List Word) : Hw :=
  h.modJob (fld p 0 11 0) (fun s => { s with suspend := decide (fld p 0 16 16 = 1), maxDrop := fld p 1 9 0 })

/-! ### The record (R397, R398) -/

/-- A group record read back (Table 13.5). -/
structure GroupRec where
  id     : Nat
  next   : Nat
  mask   : Nat
  sheaf  : Option (Nat × Bool × Nat)
  reduce : Nat
  ring   : Nat
  create : List Word
  plan   : List Word
  deriving DecidableEq, Repr

/-- One group record and the bytes after it. -/
def groupRecOf (b : List Byte) : GroupRec × List Byte :=
  let f (off n : Nat) : Nat := beNat ((b.drop off).take n)
  let w := f 0 4
  let creates := bits (f 92 4) 15 0
  let plans := bits (f 92 4) 31 16
  ({ id := bits w 12 0, next := f 4 8, mask := f 12 32, sheaf := if w.testBit 15 then some (bits (f 44 4) 27 16, (f 44 4).testBit 0, f 48 36) else none,
     reduce := f 84 4, ring := f 88 4, create := leWords ((b.drop 96).take creates),
     plan := if w.testBit 13 then leWords ((b.drop (96 + creates)).take plans) else [] }, b.drop (bits w 31 16))

def groupRecs : Nat → List Byte → List GroupRec
  | 0, _ => []
  | n + 1, b => let (r, rest) := groupRecOf b; r :: groupRecs n rest

/-- The group records of a snapshot record. -/
def recordGroups (b : List Byte) : List GroupRec :=
  let f (off n : Nat) : Nat := beNat ((b.drop off).take n)
  groupRecs (bits (f 16 4) 31 16) (b.drop (64 + 16 * bits (f 16 4) 15 0 + 8 * f 20 4))

/-- Whether bytes hold a record of a job: its magic, its length, its RECORD_CRC and its job. -/
def recordHolds (job : Nat) (b : List Byte) : Bool :=
  let f (off n : Nat) : Nat := beNat ((b.drop off).take n)
  let n := f 24 8
  decide (f 0 4 = 0x534E5031 ∧ 72 ≤ n ∧ n ≤ b.length ∧ f 4 4 / 2 ^ 20 = job) && decide (f (n - 8) 8 = crc64 (b.take (n - 8)))

/-! ### ROLLBACK_START (R490, R499, R500) -/

/-- Whether a job's rollback runs or is staged. -/
def Hw.rollingBack (h : Hw) (job : Nat) : Bool :=
  (h.job job).running.isSome || h.ctl.chans.any (fun e => e.2.staging.any (fun s => s.opcode = 0x0C02 ∧ fld s.words 0 11 0 = job))

/-- ROLLBACK_START (R499): the record is taken from the part or from BAR2 when it is staged. -/
def execRollbackStart (ch : Nat) : State → Out := atUnit ch 16 <| onHw (fun _ h => h.withRequest ch 0x0C02 (fun r =>
  let p := r.payload
  let job := fld p 0 11 0
  let fail (f : Option Fail) : Hw := match f with | some (s, d) => h.reply ch s d | none => h
  if job = 0 ∨ h.rollingBack job then fail (bad 0)
  else if fld p 0 24 24 = 0 then
    match h.part? (fld p 0 21 16) with
    | none => fail (bad 0)
    | some x =>
      let b := memReadList 0 x.record 0 x.recBytes
      if x.buddy ∨ x.job ≠ job ∨ (x.state ≠ .sealed ∧ x.state ≠ .damaged) ∨ ¬ recordHolds job b then fail (bad 0)
      else h.stage ch r b
  else
    let n := wnat p 2
    if 12 ≤ ch ∨ n = 0 ∨ bulkSize < n then fail (bad 8)
    else
      let b := memReadList 0 h.ctl.bulk (wnat p 1) n
      if ¬ recordHolds job b then fail (bad 4) else h.stage ch r b))

/-- A context as a group record makes it, over the one it replaces: its counters, records and wipes stay. -/
def restoredGroup (old : Option Group) (r : GroupRec) : Group :=
  let x := newGroup r.create
  let x := { x with
    mask := (List.range x.cfg.members.length).map (fun i => r.mask.testBit i), armed := some r.next, admitted := r.next, current := r.next,
    plan := if r.plan = [] then none else some (ringPlanOf r.plan) }
  match old with
  | none => x
  | some o => { x with
      counters := o.counters, records := o.records, wipes := o.wipes, rollback := o.rollback, mismatch := o.mismatch, heldOut := o.heldOut, seq := o.seq,
      axes := o.axes.map (fun (e : Nat × AxisCount) => (e.1, { e.2 with heard := 0 })) }

/-- The loaded image a record names for a role: the lowest handle with its PROGRAM_ID and the role. -/
def Progs.imageFor (p : Progs) (id : Nat) (ring : Bool) : Option (Nat × Image) :=
  p.images.find? (fun e => e.2.progId = id ∧ (if ring then e.2.ring else e.2.reduce))

/-- A role's attachment as the record names it, with a fresh window; the parameters of the attachment it replaces are kept where the program is the same. (DEDUCED, log 96, unsafe.) -/
def Hw.restoreAtt (h : Hw) (g id : Nat) (ring : Bool) : Hw :=
  let old := (h.progs.atts.find? (fun e => e.2.grp = g ∧ e.2.ring = ring ∧ e.2.live)).map (·.2)
  let mine := (h.progs.atts.filter (fun e => e.2.grp = g ∧ e.2.ring = ring))
  let h := mine.foldl (fun h e => h.retireAtt e.1 e.2) h
  if id = 0 then h
  else match h.grp? g, h.progs.imageFor id ring with
    | some x, some (handle, i) =>
      let params := match old with | some o => if o.image.progId = id then o.params else [] | none => []
      let a : Att := { grp := g, ring := ring, handle := handle, image := i, params := params, windows := h.freshWindows x i }
      (h.modProgs (fun q => { q with atts := tput q.atts q.serial a, serial := q.serial + 1 })).placeWindows h.progs.serial
    | _, _ => h

/-- The restored sheaf entries that differ from the injection epoch's, as number and entry. -/
def Hw.differingSheaves (h : Hw) (job : Nat) (rs : List GroupRec) : List (Nat × Sheaf) :=
  rs.filterMap (fun r => match r.sheaf with
    | some (n, line, ports) =>
      let s : Sheaf := { job := job, line := line, ports := BitVec.ofNat 264 ports }
      if tget? h.mesh.sheaves (h.mesh.injEpoch * 4096 + n) = some s then none else some (n, s)
    | none => none)

/-- A rollback at E2 of its commit tick (R490). -/
def applyRollback (h : Hw) (s : Staged) : Hw :=
  let p := s.words
  let job := fld p 0 11 0
  let rs := recordGroups s.bulk
  let mine := (h.groups.filter (fun (e : Nat × Group) => e.2.cfg.job = job)).map (·.1)
  let kept := (rs.map (·.id)).filter (mine.contains ·)
  let extra := mine.filter (fun g => ! (rs.map (·.id)).contains g)
  let diff := h.differingSheaves job rs
  let h := mine.foldl (fun h g => h.endGens g 4) h
  let h := rs.foldl (fun h r =>
    let old := h.grp? r.id
    let h := { h with groups := tput h.groups r.id (restoredGroup old r) }
    let h := ((h.restoreAtt r.id r.reduce false).restoreAtt r.id r.ring true)
    h.echoInvalidate r.id) h
  let h := extra.foldl (fun h g => h.modGrp g (fun x => if x.state = .closed then x else { x with tear := some true })) h
  let e := h.mesh.injEpoch
  let h := if diff = [] then h
    else h.firmwareFlip h.time.tick id (fun t => diff.foldl (fun t d => tput t ((1 - e) * 4096 + d.1) d.2) t)
  let h := h.modMesh (fun m => { m with reasons := m.reasons ||| 64 })
  h.modJob job (fun j => { j with
    running := some (h.time.tick, if fld p 3 7 0 = 0 then 16 else fld p 3 7 0, rs.map (·.id)), flipping := decide (diff ≠ []), again := [],
    lastTick := h.time.tick, doneTick := 0, snapshot := bits (beNat ((s.bulk.drop 4).take 4)) 15 0, restored := kept.length,
    created := rs.length - kept.length, removed := extra.length, stale := 0 })

/-- The pairs of Table 17.12; `busyLoad` says that another epoch load or flip falls due at the same tick. -/
def pairRollback (before : Hw) (s : Staged) (busyLoad : Bool) : Option Nat :=
  let job := fld s.words 0 11 0
  let rs := recordGroups s.bulk
  let missing (id : Nat) (ring : Bool) : Bool := decide (id ≠ 0) && (before.progs.imageFor id ring).isNone
  if rs.any (fun r => missing r.reduce false || missing r.ring true) then some 0x0C01
  else if rs.any (fun r => (before.grp? r.id).any (fun x => decide (x.cfg.job ≠ job))) then some 0x0C02
  else if before.differingSheaves job rs ≠ [] ∧ (busyLoad ∨ before.mesh.flipping ∨ before.mesh.flipNext.isSome ∨ before.mesh.drainCount ≠ 0) then some 0x0C03
  else none

/-- A rollback ends (R492), at E3 of the first tick from T + FLUSH_TICKS on at which every wipe has ended and any flip has drained. -/
def Hw.rollbackEnds (h : Hw) (job : Nat) : Hw :=
  let j := h.job job
  match j.running with
  | none => h
  | some (t, flush, gs) =>
    let wiping := h.groups.any (fun (e : Nat × Group) => decide (e.2.cfg.job = job ∧ e.2.wipes ≠ []))
    if h.time.tick < t + flush ∨ wiping ∨ (j.flipping ∧ (h.mesh.flipping ∨ h.mesh.flipNext.isSome)) then h
    else
      let h := gs.foldl (fun h g => if j.again.contains g then h else h.modGrp g (fun x => { x with rollback := false })) h
      let h := h.modJob job (fun j => { j with running := none, flipping := false, needed := decide (j.again ≠ []), again := [], doneTick := h.time.tick })
      let h := if h.jobs.any (fun (e : Nat × JobSt) => e.2.running.isSome) then h else h.modMesh (fun m => { m with reasons := m.reasons &&& ~~~64 })
      h.raise 0x0C02 [w32 (job + j.snapshot * 2 ^ 16), w32 (j.restored + j.created), w32 j.stale]

/-- ROLLBACK_END: its step of E3, which TICK_EDGE takes for every job; in slot 0 the row takes it for one. (DEDUCED, log 125, unsafe.) -/
def execRollbackEnd (job : Nat) : State → Out := atEdge (fun _ h => (h.rollbackEnds job).settleRegime)

/-- RECOVERY_STATUS_GET (Table 17.11). -/
def execRecoveryStatusGet (ch : Nat) : State → Out := atUnit ch 16 <| onHw (fun _ h => h.answer ch 0x0C03 (fun p =>
  let job := fld p 0 11 0
  if job = 0 then h.refuse (stInvalid, 0)
  else
    let j := h.job job
    let mine := h.groups.filter (fun (e : Nat × Group) => e.2.cfg.job = job)
    let state := if j.running.isSome then 2 else b2n j.needed
    (h, stOk, 0, [w32 (state + b2n j.suspend * 4), w32 j.maxDrop, w32 ((mine.filter (fun (e : Nat × Group) => e.2.rollback)).length + mine.length * 2 ^ 16)]
      ++ le64 j.lastTick ++ le64 j.doneTick ++ [w32 (j.snapshot + j.restored * 2 ^ 16), w32 (j.created + j.removed * 2 ^ 16), w32 j.stale])))

end Sys2Proof.Machine
end

