-- ==== Sys2Proof/Machine/Registers.lean ====
section
/-!
DEFINITION. The commands of the PCIe endpoint and of MCTP: direct registers, doorbells and buffers, the event ring, the bulk window, PERST_N, the
configuration space, and the management controller's messages (R41 to R54).
-/

namespace Sys2Proof.Machine
open Sys2Proof

/-! ### The endpoint -/

/-- Whether the endpoint completes an access (R42): PERST_N is high, the link is trained and host software has enabled memory space. -/
def Hw.accessible (h : Hw) : Bool := ¬ h.ctl.perstLow ∧ h.ctl.linkUp ∧ h.ctl.memEn

/-- An MSI-X vector is masked by bit 0 of its table entry's fourth word, which comes out of reset as one (R42). -/
def Hw.msixMasked (h : Hw) (v : Nat) : Bool := (tget 1 h.ctl.msixTable (4 * v + 3)).toNat % 2 = 1

/-- Send MSI-X vector v (R44, R46). While MSI-X is disabled nothing is sent and nothing stays pending (R42); a masked vector is left pending. -/
def Hw.msix (h : Hw) (v : Nat) : Hw :=
  if ¬ h.ctl.msixEn then h
  else if h.msixMasked v then h.modCtl (fun c => { c with msixPend := if c.msixPend.contains v then c.msixPend else c.msixPend ++ [v] })
  else h.modCtl (fun c => { c with msixSent := c.msixSent ++ [v] })

/-! ### Channels -/

/-- A write to RING (R44, R45). -/
def Hw.ring (fz : Fuses) (h : Hw) (c : Nat) (v : Word) : Hw :=
  if ¬ h.accessible ∨ 16 ≤ c ∨ v.toNat % 2 = 0 then h
  else
    let x := h.chan c
    if 12 ≤ c ∨ x.busy ∨ ¬ x.enabled then h.modChan c (fun x => { x with dbIgnored := true })
    else
      let env := (List.range 4).map (fun i => tget 0 x.req i)
      let n := cdiv (fld env 1 15 0) 4
      let r : Request := { words := (List.range (4 + min n 1020)).map (fun i => tget 0 x.req i), arrived := h.slotNow }
      if h.ctl.phase = .handover ∨ h.faults.mpLost then h.latch_ c r else h.accept fz c r

/-- DOORBELL_RING (R44). (DESIGN CHOICE, log 18, unsafe.) -/
def execDoorbellRing (ch : Nat) (v : Word) : State → Out := atUnit ch 16 <| onHw (fun fz h => h.ring fz ch v)

/-- REQUEST_BUFFER_WRITE (R44, R45): stored, or ignored and flagged while BUSY and on channels 12 to 15. -/
def execRequestBufferWrite (ch off : Nat) (v : Word) : State → Out := atUnit ch 16 <| onHw (fun _ h =>
  if ¬ h.accessible ∨ 4096 ≤ off ∨ off % 4 ≠ 0 then h
  else if 12 ≤ ch ∨ (h.chan ch).busy then h.modChan ch (fun x => { x with wrIgnored := true })
  else h.modChan ch (fun x => { x with req := tput x.req (off / 4) v }))

/-- COMMAND_COMPLETE (R44): firmware writes the response buffer, clears BUSY, sets RESPONSE_READY and sends MSI-X vector c when IRQ_EN is one.
On a channel of the management controller the response goes back over the binding and to the endpoint it came from (R49). (DESIGN CHOICE, log 5, unsafe.) -/
def execCommandComplete (ch : Nat) : State → Out := atUnit ch 16 <| onHw (fun _ h =>
  if h.faults.mpLost then h
  else match (h.chan ch).cur, (h.chan ch).reply with
  | some r, some out =>
    let h := h.modChan ch (fun x => { x with busy := false, ready := true, cur := none, reply := none, due := none, resp := out,
                                             lastSeqTag := fld out 0 31 16 })
    if 12 ≤ ch then h.modCtl (fun c => c.send r.binding r.eid (mctpBody ch out))
    else if (h.chan ch).irqEn then h.msix ch else h
  | _, _ => h)

/-- TICK_COUNT_READ (R73, Table 2.3): the low bits are returned and the high bits latched into TICK_COUNT_HI. -/
def execTickCountRead : State → Out := onHw (fun _ h =>
  if ¬ h.accessible then h
  else h.modCtl (fun c => { c with readData := w32 h.time.tick, tickHi := w32 (h.time.tick / 2 ^ 32) }))

/-! ### The event ring (R46) -/

/-- Whether the ring is full. -/
def EventRing.full (r : EventRing) : Bool := (r.producer - r.consumer).toNat = 2 ^ r.log2

/-- The bits of the event ring's control word that are neither ARM nor reserved: IRQ_EN, and the flags cleared by writing one. -/
def EventRing.control (r : EventRing) (v : Word) : EventRing :=
  { r with irqEn := v.getLsbD 1, wrIgnored := r.wrIgnored && ¬ v.getLsbD 8, refused := r.refused && ¬ v.getLsbD 9,
           overflow := r.overflow && ¬ v.getLsbD 10, consInvalid := r.consInvalid && ¬ v.getLsbD 11 }

/-- A write of one to ARM: the ring is armed with its counts zeroed and DROPPED the count of the held queue, and the held events follow in order;
or the arming is refused for its size. -/
def Hw.ringArm (h : Hw) (v : Word) : Hw :=
  let h := h.modCtl (fun c => { c with ring := c.ring.control v })
  if h.ctl.ring.armed then h
  else if h.ctl.ring.log2 < 6 ∨ 16 < h.ctl.ring.log2 then h.modCtl (fun c => { c with ring := { c.ring with refused := true } })
  else h.modCtl (fun c => { c with
    ring := { c.ring with armed := true, producer := 0, consumer := 0, dropped := w32 (sat32 c.heldDropped) },
    dropMark := c.heldDropped ≠ 0, heldDropped := 0, raised := c.held ++ c.raised, held := [] })

/-- A write of zero to ARM: no new entries; events raised later are held, and their losses counted from here. -/
def Hw.ringDisarm (h : Hw) (v : Word) : Hw :=
  h.modCtl (fun c => { c with ring := { c.ring.control v with armed := false }, heldDropped := if c.ring.armed then 0 else c.heldDropped })

/-- A write to CONSUMER: it moves forward by no more than the entries written, or it is refused. -/
def Hw.ringConsume (h : Hw) (v : Word) : Hw :=
  h.modCtl (fun c =>
    let r := c.ring
    if (v - r.consumer).toNat ≤ (r.producer - r.consumer).toNat then { c with ring := { r with consumer := v } }
    else { c with ring := { r with consInvalid := true } })

/-- EVENT_RING_ARM: a write of the control word with ARM one. -/
def execEventRingArm (v : Word) : State → Out := onHw (fun _ h => if h.accessible ∧ v.getLsbD 0 then h.ringArm v else h)

/-- EVENT_RING_DISARM: a write of the control word with ARM zero. -/
def execEventRingDisarm (v : Word) : State → Out := onHw (fun _ h => if h.accessible ∧ ¬ v.getLsbD 0 then h.ringDisarm v else h)

/-- EVENT_RING_CONSUMER_WRITE. -/
def execEventRingConsumerWrite (v : Word) : State → Out := onHw (fun _ h => if h.accessible then h.ringConsume v else h)

/-- Write one entry at BASE + 32·(n mod size), advance PRODUCER, then send MSI-X vector 12 when IRQ_EN is one. -/
def Hw.putEntry (h : Hw) (ws : List Word) : Hw :=
  let r := h.ctl.ring
  let base := r.baseHi.toNat * 2 ^ 32 + r.baseLo.toNat
  let h := h.modCtl (fun c => { c with hostWrites := c.hostWrites ++ [(base + 32 * (r.producer.toNat % 2 ^ r.log2), ws)],
                                       ring := { c.ring with producer := c.ring.producer + 1 } })
  if r.irqEn then h.msix 12 else h

/-- EVENT_ENTRY_WRITE (R46): the oldest raised event is written into the armed ring, after EVENTS_DROPPED when events were dropped before it; it
is dropped when the ring is full, and held while the ring is disarmed. While the endpoint cannot master the bus it waits. (DESIGN CHOICE, log 112, unsafe.) -/
def execEventEntryWrite : State → Out := onHw (fun _ h =>
  match h.ctl.raised with
  | [] => h
  | e :: rest =>
    let r := h.ctl.ring
    if r.armed then
      if ¬ h.ctl.masterEn ∨ h.ctl.perstLow ∨ ¬ h.ctl.linkUp then h
      else if r.full then
        let r' := { r with dropped := w32 (sat32 (r.dropped.toNat + 1)), overflow := true }
        h.modCtl (fun c => { c with raised := rest, dropMark := true, ring := r' })
      else if h.ctl.dropMark then
        (h.putEntry (eventWords 0x0001 h.ctl.eventCount h.time.tick [r.dropped, 0, 0, 0, 0])).modCtl (fun c => { c with dropMark := false })
      else (h.modCtl (fun c => { c with raised := rest })).putEntry (eventWords e.code e.seq e.tick e.data)
    else
      h.modCtl (fun c =>
        let q := c.held ++ [e]
        { c with raised := rest, held := if 256 < q.length then q.drop 1 else q,
                 heldDropped := if 256 < q.length then sat32 (c.heldDropped + 1) else c.heldDropped }))

/-! ### Bulk window, PERST_N and configuration space -/

/-- BULK_WINDOW_WRITE (R52): stored, or ignored and counted when a byte of it lies in a locked range. -/
def execBulkWindowWrite (off : Nat) (data : List Byte) : State → Out := onHw (fun _ h =>
  if ¬ h.accessible ∨ bulkSize < off + data.length then h
  else if h.lockedFor 16 off data.length then h.modCtl (fun c => { c with lockViol := sat32 (c.lockViol + 1) })
  else h.modCtl (fun c => { c with bulk := memWriteList 0 c.bulk off data }))

/-- PERST_N_ASSERT (R42): the endpoint alone is reset, the ring disarmed and its flags cleared, DOORBELL_IGNORED and WRITE_IGNORED cleared. -/
def execPerstNAssert : State → Out := onHw (fun _ h =>
  h.modCtl (fun c => { c with
    perstLow := true, linkUp := false, bar0 := 0, bar2 := 0, memEn := false, masterEn := false, inD3 := false, maxPayload := 0, msixEn := false, msixTable := [], msixPend := [],
    ring := { c.ring with armed := false, wrIgnored := false, refused := false, overflow := false, consInvalid := false },
    heldDropped := if c.ring.armed then 0 else c.heldDropped,
    chans := c.chans.map (fun e => (e.1, { e.2 with dbIgnored := false, wrIgnored := false })) }))

/-- PERST_N_RELEASE (R42): the link trains again; the configuration space holds its reset values. (DEDUCED, log 60, unsafe.) -/
def execPerstNRelease : State → Out := onHw (fun _ h =>
  if ¬ h.ctl.perstLow then h
  else if h.powered then h.modCtl (fun c => { c with perstLow := false, linkUp := true, lastReset := 2 })
  else h.modCtl (fun c => { c with perstLow := false }))

/-- CONFIG_SPACE_WRITE (R41, R42): BAR assignment, memory space and bus mastering, the power state, the payload size and the MSI-X enable bit. The offsets are those of a PCI type 0 header:
0x04 command, 0x10 and 0x18 the two base addresses; the capabilities are taken to lie at 0x40 power management, 0x70 PCIe and 0xB0 MSI-X. (PRESUMED, log 17, unsafe.) Any other
register of the capabilities is read only here. (DESIGN CHOICE, log 105, unsafe.) -/
def execConfigSpaceWrite (off : Nat) (v : Word) : State → Out := onHw (fun _ h =>
  if h.ctl.perstLow ∨ ¬ h.ctl.linkUp then h
  else h.modCtl (fun c =>
    match off with
    | 0x04 => { c with memEn := v.getLsbD 1, masterEn := v.getLsbD 2 }
    | 0x10 => { c with bar0 := c.bar0 / 2 ^ 32 * 2 ^ 32 + v.toNat / 2 ^ 19 * 2 ^ 19 }
    | 0x14 => { c with bar0 := c.bar0 % 2 ^ 32 + v.toNat * 2 ^ 32 }
    | 0x18 => { c with bar2 := c.bar2 / 2 ^ 32 * 2 ^ 32 + v.toNat / 2 ^ 24 * 2 ^ 24 }
    | 0x1C => { c with bar2 := c.bar2 % 2 ^ 32 + v.toNat * 2 ^ 32 }
    | 0x44 => if v.toNat % 4 = 0 ∨ v.toNat % 4 = 3 then { c with inD3 := decide (v.toNat % 4 = 3) } else c
    | 0x78 => { c with maxPayload := min (bits v.toNat 7 5) 2 }
    | 0xB0 => { c with msixEn := v.getLsbD 31 }
    | _ => c))

/-! ### MCTP (R48, R49) -/

/-- The words of a request over MCTP fill the request buffer of its channel, which host software may read (R45). -/
def Hw.fillRequest (h : Hw) (c : Nat) (ws : List Word) : Hw :=
  h.modChan c (fun x => { x with req := (List.range (min ws.length 1024)).foldl (fun t i => tput t i (ws.getD i 0)) x.req })

/-- MCTP_MESSAGE_RECEIVE: the body of a DCI message after its type byte: vendor ID, CHANNEL, three reserved bytes, envelope and payload. A message to a channel that is
not enabled is dropped. (DESIGN CHOICE, log 113, unsafe; DESIGN CHOICE, log 111, unsafe.) -/
def execMctpMessageReceive (binding eid : Nat) (body : List Byte) : State → Out := onHw (fun fz h =>
  if ¬ h.powered ∨ beNat (body.take 2) ≠ 0x1F3C then h
  else
    let c := (body.getD 2 0).toNat
    if c < 12 ∨ 15 < c then h.modCtl (fun k => { k with badChannel := sat32 (k.badChannel + 1) })
    else
      let x := h.chan c
      let r : Request := { words := leWords (body.drop 6), binding := binding, eid := eid, arrived := h.slotNow }
      let h := h.modCtl (fun k => { k with mctpEids := tput k.mctpEids 2 binding })
      if x.busy then h.modCtl (fun k => { k with chanBusy := sat32 (k.chanBusy + 1) })
      else if h.ctl.phase = .handover ∨ h.faults.mpLost then (h.fillRequest c r.words).latch_ c r
      else if ¬ x.enabled then h
      else (h.fillRequest c r.words).accept fz c r)

/-- An MCTP control response: message type 0, request bit clear, the command code, the completion code and its data. -/
def Hw.mctpReply (h : Hw) (binding eid cmd cc : Nat) (data : List Nat) : Hw :=
  h.modCtl (fun c => c.send binding eid ([0, 0, BitVec.ofNat 8 cmd, BitVec.ofNat 8 cc] ++ data.map (BitVec.ofNat 8)))

/-- SET_ENDPOINT_ID (R48, as DMTF DSP0236): operations 0 set and 1 force take the endpoint ID, which is neither 0 nor 0xFF. -/
def execSetEndpointId (binding eid operation newEid : Nat) : State → Out := onHw (fun _ h =>
  if ¬ h.powered then h
  else if operation < 2 ∧ newEid ≠ 0 ∧ newEid < 0xFF then
    (h.modCtl (fun c => { c with mctpEids := tput c.mctpEids (binding % 2) newEid })).mctpReply binding eid 1 0 [0, newEid, 0]
  else h.mctpReply binding eid 1 2 [])

/-- GET_ENDPOINT_ID (R48). -/
def execGetEndpointId (binding eid : Nat) : State → Out := onHw (fun _ h =>
  if ¬ h.powered then h
  else h.mctpReply binding eid 2 0 [tget 0 h.ctl.mctpEids (binding % 2), 0, 0])

/-- GET_MCTP_VERSION_SUPPORT (R48): version 1.3 of the base specification, and no version of a type it does not support. -/
def execGetMctpVersionSupport (binding eid messageType : Nat) : State → Out := onHw (fun _ h =>
  if ¬ h.powered then h
  else if messageType = 0xFF ∨ messageType = 0 ∨ messageType = 0x7E then h.mctpReply binding eid 4 0 [1, 0xF1, 0xF3, 0xFF, 0]
  else h.mctpReply binding eid 4 0x80 [])

/-- GET_MESSAGE_TYPE_SUPPORT (R48): the vendor-defined type 0x7E alone. -/
def execGetMessageTypeSupport (binding eid : Nat) : State → Out := onHw (fun _ h =>
  if ¬ h.powered then h else h.mctpReply binding eid 5 0 [1, 0x7E])

/-- GET_VENDOR_DEFINED_MESSAGE_SUPPORT (R48): one set, PCI vendor ID 0x1F3C. -/
def execGetVendorDefinedMessageSupport (binding eid selector : Nat) : State → Out := onHw (fun _ h =>
  if ¬ h.powered then h
  else if selector = 0 then h.mctpReply binding eid 6 0 [0xFF, 0, 0x1F, 0x3C, 0, 0] else h.mctpReply binding eid 6 2 [])

/-- I3C_ENTDAA (R48): a dynamic address is taken. -/
def execI3cEntdaa (addr : Nat) : State → Out := onHw (fun _ h =>
  if ¬ h.powered then h else h.modCtl (fun c => { c with i3cAddr := addr % 128 }))

end Sys2Proof.Machine
end

