-- ==== Sys2Proof/Machine/Reset.lean ====
section
/-!
DEFINITION. Power-up, cold and warm resets, boot, supplies and the thermal trip, life-cycle transitions, and writes to the direct registers
(R43 to R47, R62, R63, R67, R70, R459, R503 to R507, R515, R531, R540).
-/

namespace Sys2Proof.Machine
open Sys2Proof

/-! ### Cold reset (R503, R504) -/

/-- Everything at its reset value but what a cold reset keeps (Table 18.3): the flash with its fault history and recorded fences, the board's inputs, what has left the
part, and the log's record of a thermal trip (R540). -/
def Hw.coldReset (h : Hw) : Hw :=
  let c := h.ctl
  let trips := h.faults.log.filter (fun e => e.source = 0xD04)
  let ctl : Ctl := { flash := c.flash, slotWritten := c.slotWritten, hostWrites := c.hostWrites, msixSent := c.msixSent, mctpOut := c.mctpOut, perstLow := c.perstLow }
  let faults : Faults := { history := h.faults.history, histTotal := h.faults.histTotal, recorded := h.faults.recorded, railsOut := h.faults.railsOut,
                           log := trips, logTotal := trips.length }
  { ctl := ctl, faults := faults, pins := { h.pins with resetLow := true, straps := 0, tripLow := false, held := false }, fresh := h.fresh }

/-- SYS_RST_N_FALL (R504): the part resets cold; lasers, ERR_N and THERMTRIP_N are released. -/
def execSysRstNFall : State → Out := onHw (fun _ h => if h.pins.resetLow then h else h.coldReset)

/-- SYS_RST_N_RELEASE (R503, R531): the straps are sampled, ticks start from zero, the boot ROM runs and every SRAM is wiped. Bits of `straps`: 0 RECOVERY,
1 SPI_QUAD, 2 TEST, 6:3 PID. -/
def execSysRstNRelease (straps : Nat) : State → Out := onHw (fun _ h =>
  if ¬ h.pins.resetLow then h
  else { h with
    pins := { h.pins with resetLow := false, straps := straps % 128 },
    ctl := { h.ctl with wipeActive := true, phase := .rom, linkUp := ! h.ctl.perstLow } })

/-- The unit that the supply, clock and REFCLK sources name: the CD (R547). -/
def unitCd : Nat := unitNo 15 18

/-- SUPPLY_OUT_OF_RANGE (R504): a rail of Table 19.4 leaves its range with SYS_RST_N high. -/
def execSupplyOutOfRange (rail : Nat) : State → Out := onHw (fun _ h =>
  if 11 ≤ rail ∨ h.faults.railsOut.contains rail then h
  else
    let h := h.modFaults (fun f => { f with railsOut := f.railsOut ++ [rail] })
    if h.pins.resetLow then h else h.report 0xD03 3 unitCd 6)

/-- SUPPLY_OUT_TIMEOUT (R504): 10 µs out of range act as SYS_RST_N falling. -/
def execSupplyOutTimeout : State → Out := onHw (fun _ h => if h.pins.resetLow ∨ h.faults.railsOut = [] then h else h.coldReset)

/-- SUPPLY_IN_RANGE: the rail is back. When the last one is, the quiet timer restarts (R468). -/
def execSupplyInRange (rail : Nat) : State → Out := onHw (fun _ h =>
  let h' := h.modFaults (fun f => { f with railsOut := f.railsOut.filter (· ≠ rail) })
  if h.faults.railsOut ≠ [] ∧ h'.faults.railsOut = [] then h'.quietRestart else h')

/-- REFCLK_LOSS (R537): REFCLK absent for 10 µs is a rail out of range for as long. (DEDUCED, log 64, unsafe.) -/
def execRefclkLoss : State → Out := onHw (fun _ h => if h.pins.resetLow then h else (h.report 0xD03 3 unitCd 6).coldReset)

/-! ### Warm reset (R505, R507, Table 13.6) -/

/-- What a warm reset leaves of a port: its committed configuration, and its counters with the packets of its kept blocks counted lost. -/
def Port.warm (p : Nat) (x : Port) : Port :=
  let lost := (lostKept x.link).length
  let n := portInit p
  { n with
    limits := { x.limits with reserveCredit := x.limits.credit, reserveMoved := x.limits.moved },
    reseq := x.reseq, homeAlt := x.homeAlt, atAlt := x.homeAlt, jobQueue := x.jobQueue, overhead := x.nextOverhead.getD x.overhead,
    classQuantum := x.nextClassQuantum.getD x.classQuantum,
    queues := x.queues.map (fun (q : Nat × Queue) =>
      let y := (q.2.settle).refreshed
      (q.1, { y with txPackets := q.2.txPackets, txBytes := q.2.txBytes, shaperHeld := q.2.shaperHeld, creditHeld := q.2.creditHeld })),
    meters := x.meters.map (fun (m : Nat × Meter) =>
      let y := m.2.settle
      (m.1, { y with tc := y.cfg.cbs * 65536, tp := y.cfg.pbs * 65536 })),
    meterMap := x.nextMeterMap.getD x.meterMap, admitted := x.admitted,
    counters := if lost = 0 then x.counters else tmod 0 x.counters 15 (fun v => satPort 15 (v + lost)),
    lanes := { n.lanes with cfg := x.lanes.next.getD x.lanes.cfg, fenced := x.lanes.fenced, counters := x.lanes.counters } }

/-- What it leaves of a port whose configuration is not restored: its counters and, unless the fences go too, its fenced channels. -/
def Port.bare (p : Nat) (fences : Bool) (x : Port) : Port :=
  let w := x.warm p
  let n := portInit p
  { n with counters := w.counters, lanes := { n.lanes with fenced := if fences then x.lanes.fenced else [], counters := x.lanes.counters } }

/-- What it leaves of a complex or tiller: its partition, the address it serves, and its attachment as far as a fence holds it. -/
def Hw.warmCx (h : Hw) (c : Nat) (x : Complex) : Complex :=
  let held := h.isFenced (unitNo 4 c) || h.routerOut (cxRouter c)
  { preset := x.preset, share := x.share, tillerOf := x.tillerOf, attach := if held then x.attach else .serving }

/-- The mesh after a warm reset: its tables, with the fences and the addresses that have yet to return; reason START_UP holds until the first ticks after boot. -/
def Mesh.warm (m : Mesh) : Mesh :=
  { m with
    routers := m.routers.map (fun (e : Nat × Router) => (e.1, { faulty := e.2.faulty })), flipNext := none, reasons := (m.reasons &&& 12) ||| 1,
    flipTick := 0, drainDone := 0, slowTold := false, drains := (0, 0), fenced := m.fenced ++ (m.joinFenced.map (·.1)).filter (fun r => ¬ m.fenced.contains r), joinFenced := [], discarding := [],
    copying := [], winnow := BitVec.allOnes 264, nodes := [], nodeOut := [] }

/-- The stacks after a warm reset: spill and echo contents and the parts not SEALED or DAMAGED are gone; the partition, echo sizes and buddies stay. -/
def Mem.warm (m : Mem) : Mem :=
  { hbms := m.hbms.map (fun (e : Nat × Stack) => (e.1, { e.2 with wiping := [], hot := false, granules := (e.2.spill * 131072, 0) })),
    echo := m.echo.map (fun (e : Nat × EchoRegion) => (e.1, { e.2 with entries := [], served := [] })),
    parts := (m.parts.filter (fun (e : Nat × Part) => decide (e.2.state = .sealed) || decide (e.2.state = .damaged))).map (fun (e : Nat × Part) => (e.1, { e.2 with closing := none })),
    buddies := m.buddies }

/-- The collector keeps its state, counts, log and fences; what firmware had under way is gone. -/
def Faults.warm (f : Faults) : Faults := { f with mpLost := false, tests := [], strikeBase := f.strikeBase }

/-- A fence of nothing (R459): a life-cycle transition ends every fence. -/
def Faults.unfenced (f : Faults) : Faults := { f with fenced := [], recorded := [], exhausted := [], mpFenced := [false, false], missing := [] }

/-- The control side after a warm reset: the flash, what has left the part, and the request that asked for the reset. -/
def Ctl.warm (c : Ctl) (kind : Nat) (req : Option Nat) : Ctl :=
  let keep := req.bind (fun ch => (tget? c.chans ch).bind (fun x => x.cur.map (fun r => (ch, r))))
  { flash := c.flash, slotWritten := c.slotWritten, hostWrites := c.hostWrites, msixSent := c.msixSent, mctpOut := c.mctpOut, perstLow := c.perstLow,
    linkUp := ! c.perstLow, lastReset := kind, wipeActive := true,
    chans := keep.elim [] (fun e => [(e.1, { busy := true, cur := some { e.2 with waiting := false } })]) }

/-- A warm reset (R507). `restore` says whether firmware finds the committed configuration in its store; without it the default profile of Table 1.9 holds. `req` is the channel
whose RESET_WARM asked for it. (DEDUCED, log 63, unsafe.) -/
def Hw.warmReset (h : Hw) (kind : Nat) (restore : Bool) (req : Option Nat) : Hw :=
  let m := h.mesh.warm
  let base : Hw := { h with
    ctl := h.ctl.warm kind req, groups := [], records := [], progs := {}, jobs := [], latch := {}, faults := h.faults.warm,
    cxs := h.cxs.map (fun (e : Nat × Complex) => (e.1, h.warmCx e.1 e.2)) }
  let pw : Power := { energy := h.power.energy, throttleTicks := h.power.throttleTicks, temps := h.power.temps, warmSince := some h.time.tick, warmCh := req,
                      lcReset := h.power.lcReset }
  if restore then
    let back := (h.cxs.filter (fun (e : Nat × Complex) => decide (e.2.attach ≠ .serving ∧ (h.warmCx e.1 e.2).attach = .serving ∧ e.1 < 128))).map (·.1)
    { base with
      time := { h.time with unbalanced := [] },
      ports := h.ports.map (fun (e : Nat × Port) => (e.1, e.2.warm e.1)), mem := h.mem.warm,
      mesh := { m with returning := m.returning ++ back.filter (fun a => ! m.returning.contains a && (m.unmapped.contains a || decide (locCx (h.locate m.injEpoch a) ≠ a))) },
      power := { pw with levels := h.power.setLevels, setLevels := h.power.setLevels, limit := h.power.limit, throttleC := h.power.throttleC, autoClock := h.power.autoClock } }
  else
    let fences := ! h.power.lcReset
    let clear (x : Complex) : Complex := { attach := if fences then x.attach else .serving }
    { base with
      time := { h.time with unbalanced := [], mult := 8, tickOut := 0, sources := [{ kind := 1 }], stepAllowed := false, active := 0, lockState := 0, stepTo := none,
                            genFenced := if fences then h.time.genFenced else [false, false] },
      ports := h.ports.map (fun (e : Nat × Port) => (e.1, e.2.bare e.1 fences)),
      cxs := base.cxs.map (fun (e : Nat × Complex) => (e.1, { cxInit e.1 with attach := (clear e.2).attach })),
      mem := {}, disc := {}, lasers := { h.lasers with high := [] }, mesh := { routers := if fences then m.routers else [], fenced := if fences then m.fenced else [], reasons := (m.reasons &&& (if fences then 12 else 8)) ||| 1, regimeBubble := m.regimeBubble },
      faults := if fences then base.faults else base.faults.unfenced, power := pw }

/-- Whether a stack is in service, in which firmware finds its configuration. -/
def Hw.storeOk (h : Hw) : Bool := h.stackOk 0 || h.stackOk 1

/-- What RESET_WARM checks of its payload, beyond the envelope (R53). -/
def failResetWarm (_fz : Fuses) (_h : Hw) (_ch : Nat) (_p : List Word) (_bulk : List Byte) : Option Fail := none

/-- RESET_WARM (Table 18.9). -/
def execResetWarm (ch : Nat) : State → Out := atUnit ch 16 <| onHw (fun fz h => h.configure ch 0x0D03 (failResetWarm fz h ch))

/-- The armed reset, the reset of a life-cycle transition, or none, at the E2 of a tick (R47, R70). -/
def Hw.dueReset (h : Hw) : Hw :=
  if h.ctl.lcTarget.isSome ∧ ¬ h.power.lcReset ∧ h.ctl.lcTick ≤ h.time.tick ∧ h.powered then
    let c := h.ctl
    ((h.modPower (fun p => { p with lcReset := true })).warmReset 5 false none).modCtl (fun d =>
      { d with lcTarget := c.lcTarget, lcFrom := c.lcFrom, lcTick := c.lcTick, lcHash := c.lcHash })
  else if h.power.warmNext.any (fun t => decide (t ≤ h.time.tick)) ∧ h.powered then h.warmReset 4 h.storeOk none
  else h

/-! ### Boot (R62, R63, R459) -/

/-- A fence recorded in flash is applied again (R459), without a new record or event. -/
def Hw.refence (h : Hw) (u : Nat) : Hw :=
  if h.isFenced u then h
  else
    let h := h.modFaults (fun f => { f with fenced := f.fenced ++ [u] })
    let h := match h.cascade u with
      | some (c, a) => h.setAttach c a
      | none => h
    let h := h.fenceAction u
    let h := match spareScope u with
      | some (row, scope, _) => if h.spareGone u ∧ ¬ h.faults.exhausted.contains (row, scope)
          then h.modFaults (fun f => { f with exhausted := f.exhausted ++ [(row, scope)] }) else h
      | none => h
    h.checkWorkingSet

/-- The slot the boot ROM boots (R62): BOOT_SLOT, then the other, by the checks of Table 2.16; none when the strap asks for recovery or neither passes. -/
def Hw.bootPick (fz : Fuses) (h : Hw) : Option Nat :=
  if h.pins.straps.testBit 0 then none else [h.bootSlot, 1 - h.bootSlot].find? (fun s => h.imageCheck fz s = 0)

/-- Every port whose home can serve trains blind (Table 18.2, R507). -/
def Hw.trainAll (h : Hw) : Hw :=
  (List.range 264).foldl (fun h p =>
    let own := decide ((h.port p).homeAlt = true)
    let want := if own then alternateHome p else primaryHome p
    let other := if own then primaryHome p else alternateHome p
    if h.homeServes want then (h.modPort p (fun x => { x with atAlt := own })).blindBringUp p
    else if h.homeServes other then (h.modPort p (fun x => { x with atAlt := ! own })).blindBringUp p
    else h) h

/-- The lasers after a cold reset (R420): every module that is not fenced. -/
def Hw.lightUp (h : Hw) : Hw := { h with lasers := { h.lasers with enabled := natsWhere 16 (fun m => ! h.isFenced (unitNo 8 m)) } }

/-- BOOT_COMPLETE (R63): the first image that passes its checks runs. After a cold reset the recorded fences are applied first and the lasers are then enabled; ports train blind,
unless the part is RETIRED. After a warm reset the command that asked for it is answered, and CONFIG_NOT_RESTORED tells when nothing could be restored. With no image the boot ROM
serves channels 0 and 12 alone (R51). -/
def execBootComplete : State → Out := onHw (fun fz h =>
  if ¬ h.powered ∨ (h.ctl.phase ≠ .rom ∧ h.ctl.phase ≠ .booting) then h
  else match h.bootPick fz with
  | none =>
    let on (k : Ctl) (c : Nat) : Ctl := { k with chans := tmod {} k.chans c (fun x => { x with enabled := true }) }
    h.modCtl (fun c => { on (on c 0) 12 with phase := .recovery, runningSlot := 2, wipeActive := h.power.lcReset })
  | some slot =>
    let cold := h.power.warmSince.isNone
    let h := if cold then h.faults.recorded.foldl Hw.refence h else h
    if h.faults.mpFenced.all id then h
    else
      let lcReset := h.power.lcReset
      let retired := if lcReset then decide (h.ctl.lcTarget = some .retired) else decide (fz.lc = .retired)
      let h := (h.runImage slot).modCtl (fun c => { c with
        phase := .running, activeMp := if h.faults.mpFenced.getD 0 false then 1 else 0, standbyReady := false, wipeActive := lcReset,
        chans := (List.range 16).foldl (fun t i => tmod {} t i (fun x => { x with enabled := true })) c.chans })
      let h := if cold ∧ ¬ retired then h.lightUp else h
      let h := if retired then h else h.trainAll
      let h := h.power.warmCh.elim h (fun ch => h.reply ch stOk 0 ((h.chan ch).cur.elim [] (·.out)))
      let h := if ¬ cold ∧ ¬ lcReset ∧ ¬ h.storeOk then h.raise 0x0D06 [0] else h
      h.modPower (fun p => { p with warmSince := none, warmCh := none, warmNext := none }))

/-- FW_PHASE is BOOTING once the boot ROM's 40 ms have passed (Table 18.2): 6,400 base intervals. -/
def Hw.booting (h : Hw) : Hw :=
  let since := h.power.warmSince.elim h.time.base (fun t => (h.time.tick - t) * h.time.mult)
  if h.powered ∧ h.ctl.phase = .rom ∧ 6400 ≤ since then h.modCtl (fun c => { c with phase := .booting }) else h

/-- LC_TRANSITION_DONE (R67, R70): the fuses take the new state; the device keys are created on entry to PROVISIONED and destroyed on entry to RETIRED, where lasers and ports are
dark; IN_SERVICE holds the quiet period at 100 ms. -/
def execLcTransitionDone : State → Out := onFuses (fun fz h =>
  match h.ctl.lcTarget with
  | none => (fz, h)
  | some target =>
    if ¬ h.power.lcReset ∨ h.ctl.phase ≠ .running then (fz, h)
    else
      let fz := { fz with
        lc := target, deviceKeys := if target = .provisioned then true else if target = .retired then false else fz.deviceKeys,
        ownerHash := if fz.lc = .provisioned ∧ target = .inService then h.ctl.lcHash else fz.ownerHash }
      let h := if target = .retired then { h with lasers := {} } else h
      let h := if target = .inService then h.modFaults (fun f => { f with quietMs := min f.quietMs 100 }) else h
      let words := w32 (target.code + h.ctl.lcFrom.code * 2 ^ 8) :: le64 h.ctl.lcTick
      let h := h.modCtl (fun c => { c with lcTarget := none, wipeActive := false })
      (fz, (h.modPower (fun p => { p with lcReset := false })).raise 0x0E03 words))

/-! ### Thermal trip (R515, R540) -/

/-- The trip: THERMTRIP_N is driven low, every domain but ALWAYS_ON is held in reset and the lasers are released, until SYS_RST_N falls. -/
def Hw.thermalTrip (h : Hw) (die : Nat) (forced : Bool) : Hw :=
  let last := h.ctl.lastReset
  let h := (h.report 0xD04 3 (unitNo 15 die) 6 [] forced).warmReset last false none
  { h with ctl := { h.ctl with linkUp := false }, lasers := {}, pins := { h.pins with tripLow := true, held := true } }

/-- THERMAL_TRIP: a die at 125 °C. -/
def execThermalTrip (die : Nat) : State → Out := atUnit die 20 <| onHw (fun _ h =>
  if ¬ h.powered ∨ h.power.temps.getD die 0 < 125 then h else h.thermalTrip die false)

/-! ### Direct registers (Tables 2.3 to 2.7) -/

/-- A write of one to RESET_ARM (R47). -/
def Hw.resetArm (h : Hw) : Hw :=
  let kind := h.ctl.resetKind
  let h := h.modCtl (fun c => { c with resetKind := 0 })
  if kind = 1 then h.modPower (fun p => { p with warmNext := some (h.time.tick + 1) })
  else if kind = 2 ∧ h.ctl.standbyReady then h.modCtl (fun c => { c with mpSwitch := true })
  else h.modCtl (fun c => { c with armIgnored := true })

/-- RESET_ARM_WARM (R47): RESET_ARM is written while RESET_KIND is WARM. -/
def execResetArmWarm : State → Out := onHw (fun _ h => if h.accessible ∧ h.ctl.resetKind = 1 then h.resetArm else h)

/-- RESET_ARM_MP_SWITCH (R47): RESET_ARM is written while RESET_KIND is MP_SWITCH. -/
def execResetArmMpSwitch : State → Out := onHw (fun _ h => if h.accessible ∧ h.ctl.resetKind = 2 then h.resetArm else h)

/-- The MP switch that RESET_ARM asked for (R47): at the next tick the standby is active, and the processor that was becomes the standby. -/
def Hw.switchMp (h : Hw) : Hw :=
  if ¬ h.ctl.mpSwitch then h
  else if h.isFenced (unitNo 11 (1 - h.ctl.activeMp)) ∨ h.faults.mpLost then h.modCtl (fun c => { c with mpSwitch := false })
  else h.modCtl (fun c => { c with mpSwitch := false, activeMp := 1 - c.activeMp, standbyReady := false })

/-- A write to a channel's control registers (Table 2.4). -/
def Hw.writeChan (fz : Fuses) (h : Hw) (c off : Nat) (v : Word) : Hw :=
  match off with
  | 0x00 => h.ring fz c v
  | 0x04 => h.modChan c (fun x => { x with ready := x.ready && ! v.getLsbD 1, dbIgnored := x.dbIgnored && ! v.getLsbD 2, wrIgnored := x.wrIgnored && ! v.getLsbD 3 })
  | 0x08 => if c < 12 then h.modChan c (fun x => { x with irqEn := v.getLsbD 0 }) else h
  | _ => h

/-- A write to a request buffer (R44, R45). -/
def Hw.writeRequest (h : Hw) (c off : Nat) (v : Word) : Hw :=
  if 12 ≤ c ∨ (h.chan c).busy then h.modChan c (fun x => { x with wrIgnored := true }) else h.modChan c (fun x => { x with req := tput x.req (off / 4) v })

/-- A write to the event ring's registers (Table 2.5, R46). -/
def Hw.writeRing (h : Hw) (off : Nat) (v : Word) : Hw :=
  let set (f : EventRing → EventRing) : Hw := h.modCtl (fun c => { c with ring := if c.ring.armed then { c.ring with wrIgnored := true } else f c.ring })
  match off with
  | 0x00 => set (fun r => { r with baseLo := w32 (v.toNat / 64 * 64) })
  | 0x04 => set (fun r => { r with baseHi := v })
  | 0x08 => set (fun r => { r with log2 := v.toNat % 32 })
  | 0x0C => if v.getLsbD 0 then h.ringArm v else h.ringDisarm v
  | 0x14 => h.ringConsume v
  | _ => h

/-- A write to the reset and life-cycle registers (Table 2.7). -/
def Hw.writeReset (h : Hw) (off : Nat) (v : Word) : Hw :=
  match off with
  | 0x04 => h.modCtl (fun c => { c with resetKind := v.toNat % 4 })
  | 0x08 =>
    let h := if v.getLsbD 1 then h.modCtl (fun c => { c with armIgnored := false }) else h
    if v.getLsbD 0 then h.resetArm else h
  | _ => h

/-- The pending vectors that a write has unmasked are sent. -/
def Hw.flushMsix (h : Hw) : Hw :=
  let go := h.ctl.msixPend.filter (fun v => ! h.msixMasked v)
  if ¬ h.ctl.msixEn then h
  else h.modCtl (fun c => { c with msixPend := c.msixPend.filter (fun v => ! go.contains v), msixSent := c.msixSent ++ go })

/-- REGISTER_WRITE (R9, R43): a naturally aligned 32-bit write; any other has no effect, as has one outside every region or to a read-only field. (DESIGN CHOICE, log 16, safe.) -/
def execRegisterWrite (off size : Nat) (v : Word) : State → Out := onHw (fun fz h =>
  if ¬ h.accessible ∨ size ≠ 4 ∨ off % 4 ≠ 0 then h
  else if off < 0x100 then (if off = 0x14 then h.modCtl (fun c => { c with scratch := v }) else h)
  else if 0x1000 ≤ off ∧ off < 0x1400 then h.writeChan fz ((off - 0x1000) / 0x40) ((off - 0x1000) % 0x40) v
  else if 0x10000 ≤ off ∧ off < 0x30000 then
    (if (off - 0x10000) % 0x2000 < 0x1000 then h.writeRequest ((off - 0x10000) / 0x2000) ((off - 0x10000) % 0x2000) v else h)
  else if 0x30000 ≤ off ∧ off < 0x30100 then h.writeRing (off - 0x30000) v
  else if 0x31000 ≤ off ∧ off < 0x31100 then h.writeReset (off - 0x31000) v
  else if 0x50000 ≤ off ∧ off < 0x50000 + 4 * 56 then (h.modCtl (fun c => { c with msixTable := tput c.msixTable ((off - 0x50000) / 4) v })).flushMsix
  else h)

end Sys2Proof.Machine
end

