-- ==== Sys2Proof/Machine/Admit.lean ====
section
/-!
DEFINITION. The edge steps E5 to E7 of a tick: patience, suspensions, fresh slots, admission and the on_tick hooks (R81, R254, R259, R268, R281, R282, R307, R321).
-/

namespace Sys2Proof.Machine
open Sys2Proof

/-! ### E5 PATIENCE -/

/-- One tick of patience for the open chunks of a generation (R268), in a member context only while a RANK entry is PENDING (R304). -/
def Hw.countPatience (h : Hw) (x : Group) (n : Gen) : Gen :=
  { n with open_ := n.open_.map (fun (q : Nat × Chunk) =>
      let ranks := (x.pending n q.1).any (fun i => ! (memberOf x.cfg i).part)
      if h.still q.2 || q.2.ending || (x.plan.isSome && ! ranks) then q else (q.1, { q.2 with patience := q.2.patience - 1 })) }

/-- LAST_HEARD of every ring axis goes on by one (R304). -/
def Group.hearNothing (x : Group) : Group :=
  match x.plan with
  | none => x
  | some p => { x with axes := p.rings.foldl (fun t a => tmod {} t a (fun c => { c with heard := sat32 (c.heard + 1) })) x.axes }

def Hw.patienceStep (h : Hw) : Hw :=
  { h with groups := h.groups.map (fun (e : Nat × Group) =>
      if h.counting e.2 then (e.1, { e.2 with gens := e.2.gens.map (h.countPatience e.2) }.hearNothing) else e) }

/-- The complex that builds the results of chunks without a home: the one at the lowest SERVING address of the home list (R281). (DEDUCED, log 44, unsafe.) -/
def Hw.standIn (h : Hw) (n : Gen) : Option Nat :=
  (n.homes.map (fun a => locCx (h.locate h.mesh.injEpoch a))).find? (fun c => decide ((h.cx c).attach = .serving))

/-- A chunk whose address is unmapped finishes with COUNTED zero (R281). The spec gives no identity value for a CUSTOM operator: its bytes are open. -/
def Hw.finishUnmapped (h : Hw) (g no k : Nat) : Hw :=
  match (h.grp? g).bind (fun x => (x.gen? no).map (fun n => (x, n))) with
  | none => h
  | some (x, n) =>
    let old := tget? n.open_ k
    let h := old.elim h (fun c => h.freeKept c.cx (c.kept.flatMap (·.2.2.1)))
    let ch := { h.newChunk g x n k 0 false with short := true, homeless := true }
    match h.standIn n with
    | none => h.chunkDone g no k true {}
    | some c =>
      if x.cfg.custom then
        let len := resultBytes x.cfg
        let bytes := (List.range len).map (fun i => (Config.openValue (h.fresh + i)).truncate 8)
        (({ h with fresh := h.fresh + len }).sendReduced g c x n k ch bytes {} 3).chunkDone g no k true {}
      else h.finishBuiltin g c x n k ch

def Hw.unmappedStep (h : Hw) (g : Nat) : Hw :=
  match h.grp? g with
  | none => h
  | some x => x.gens.foldl (fun h n =>
      ((List.range x.cfg.chunks).filter (fun k => ! n.done.contains k && h.mesh.unmapped.contains (homeOf g n.homes k))).foldl (fun h k => h.finishUnmapped g n.no k) h) h

/-- A context becomes SUSPENDED; a suspended, draining or closed one stays as it is (R282). -/
def Hw.suspend (pre : Bool) (h : Hw) (g : Nat) : Hw :=
  h.modGrp g (fun x => if x.state = .idle ∨ x.state = .active then { x with state := .suspended, preempt := pre, wasIdle := decide (x.state = .idle) } else x)

/-- GROUP_RESUME: a suspended context is again what it was when it was suspended, IDLE or ACTIVE (R282). (DEDUCED, log 46, unsafe.) -/
def Hw.resume (h : Hw) (g : Nat) : Hw :=
  h.modGrp g (fun x => if x.state = .suspended then { x with state := if x.wasIdle then .idle else .active, preempt := false, wasIdle := false } else x)

/-- A committed resumption restarts the patience of this E5 (R282). -/
def Hw.resumeStep (h : Hw) (g : Nat) : Hw :=
  if (h.grp? g).any (fun x => decide (x.suspendNext = some none)) then h.resume g else h

/-- Committed suspensions take hold, after the patience of this E5; a pre-empted member context suspends its ring's others here (R311). -/
def Hw.suspendStep (h : Hw) (g : Nat) : Hw :=
  match h.grp? g with
  | none => h
  | some x =>
    let h := h.modGrp g (fun x => { x with suspendNext := none })
    match x.suspendNext with
    | none => h
    | some none => h
    | some (some pre) =>
      let acts := decide (x.state = .idle) || decide (x.state = .active)
      let h := h.suspend pre g
      match x.plan with
      | some p => if pre ∧ acts then ((h.ringUnit p.id).map (·.1)).foldl (Hw.suspend true) h else h
      | none => h

/-- A job whose policy asks for it has its other groups suspended once a group needs a rollback (R487). -/
def Hw.policyStep (h : Hw) : Hw :=
  let js := (h.jobs.filter (fun e => e.2.suspendNow)).map (·.1)
  let gs := (h.groups.filter (fun e => js.contains e.2.cfg.job ∧ ! e.2.rollback)).map (·.1)
  js.foldl (fun h j => h.modJob j (fun s => { s with suspendNow := false })) (gs.foldl (Hw.suspend false) h)

/-- The silent axes of a ring plan (R304). -/
def Hw.ringStep (h : Hw) (g : Nat) : Hw := ((h.grp? g).elim [] (fun x => x.plan.elim [] (·.rings))).foldl (Hw.ringSilent g) h

/-- E5: resumed contexts go on, patience counts, chunks without a home and those whose patience has ended finish, draining and idle generations open their chunks, silent rings and aborted contexts
end their generations, contexts without one close, and suspensions take hold. -/
def Hw.edgePatience (h : Hw) : Hw :=
  let gs := h.groups.map (·.1)
  let h := (gs.foldl Hw.resumeStep h).patienceStep
  let h := gs.foldl Hw.unmappedStep h
  let h := gs.foldl Hw.expireAll h
  let h := gs.foldl Hw.drainOpen h
  let h := gs.foldl Hw.openIdleGens h
  let h := gs.foldl Hw.ringStep h
  let h := gs.foldl (fun h g => if (h.grp? g).any (fun x => decide (x.tear = some true ∧ x.state ≠ .closed)) then h.endGens g 4 else h) h
  let h := gs.foldl Hw.closeGroup h
  (gs.foldl Hw.suspendStep h).policyStep

/-! ### E6 ADMIT: fresh slots and spilled parts -/

/-- Parts spilled to a stack that is gone go to the other stack, or to the parison array. (DEDUCED, log 49, unsafe.) -/
def Hw.respill (h : Hw) (g : Nat) : Hw :=
  match h.grp? g with
  | none => h
  | some x => x.gens.foldl (fun h n => n.spilled.foldl (fun h e =>
      if h.stackOk e.2 then h
      else
        let other := 1 - e.2
        let need := ((h.pipeline g x n).find? (fun v => v.1 = e.1)).elim 0 (·.2.1)
        let h' := h.modGranules e.1 (some e.2) (freeGranules need)
        if h.stackOk other ∧ h.spillReserved other + need ≤ h.spillTotal other then
          (h'.modGranules e.1 (some other) (reserveGranules need)).modGen g n.no (fun n => { n with spilled := tput n.spilled e.1 other })
        else (h'.modGranules e.1 none (reserveGranules need)).modGen g n.no (fun n => { n with spilled := tdel n.spilled e.1 })) h) h

/-- A restarted chunk has a fresh slot where its address is served, with patience PATIENCE (R280). -/
def Hw.freshSlots (h : Hw) (g : Nat) : Hw :=
  match h.grp? g with
  | none => h
  | some x => x.gens.foldl (fun h n => n.open_.foldl (fun h q =>
      let c := q.2
      let l := locCx (h.locate h.mesh.injEpoch c.addr)
      if c.slotLost ∧ c.restarted ∧ (h.cx l).attach = .serving ∧ ¬ h.mesh.unmapped.contains c.addr then
        (h.modChunk g n.no q.1 (fun c => { h.newChunk g x n q.1 x.cfg.patience c.opened with restarted := true, lost := c.lost })).settleGen g n.no
      else h) h) h

/-! ### E6 ADMIT: admission (R254, R259, R260, R307) -/

/-- Whether a context has a generation that waits for admission (R254, R278, R282, R283, R336, R341). -/
def Hw.waits (h : Hw) (g : Nat) (x : Group) : Bool :=
  (decide (x.state = .idle) || decide (x.state = .active)) && x.tear.isNone && ! x.rollback && x.stop.isNone && (h.job x.cfg.job).running.isNone
  && (match x.armed with | none => true | some a => decide (x.admitted < a)) && decide (x.admitted < x.current + 2)
  && (! x.cfg.custom || (h.liveAtt g false).isSome)

/-- The contexts admitted together with one: itself, or its ring group's member contexts here (R307). (DEDUCED, log 50, unsafe.) -/
def Hw.unitOf (h : Hw) (g : Nat) (x : Group) : List (Nat × Group) :=
  match x.plan with | some p => h.ringUnit p.id | none => [(g, x)]

/-- The attempts of a tick in order: descending PRIORITY, ascending identifier, ascending generation. A ring group stands at its lowest identifier. -/
def Hw.admitOrder (h : Hw) : List Nat :=
  let heads := h.groups.filter (fun e => (h.unitOf e.1 e.2).head?.elim false (fun u => decide (u.1 = e.1)))
  (List.range 8).flatMap (fun i => (heads.filter (fun e => e.2.cfg.prio = 7 - i)).flatMap (fun e => [e.1, e.1]))

/-- What placing pipelines has taken so far: granules and descriptors by complex, and spilled granules by stack. -/
structure Room where
  table : Tbl (Nat × Nat)
  spill : List Nat

/-- Place one part of a pipeline (R257, R260): in the parison array, or whole in the spill region of its half's stack, then of the other. -/
def Hw.placePart (h : Hw) (spill : Bool) (r : Room) (part : Nat × Nat × Nat) : Option (Room × Option Nat) :=
  let c := locCx (h.locate h.mesh.injEpoch part.1)
  let (gr, de) := tget (0, 0) r.table c
  if gr + part.2.1 ≤ 768 ∧ de + part.2.2 ≤ 768 then some ({ r with table := tput r.table c (gr + part.2.1, de + part.2.2) }, none)
  else if ¬ spill then none
  else
    let own := cxHalf c
    ([own, 1 - own].find? (fun s => h.stackOk s && decide (nth r.spill s + part.2.1 ≤ h.spillTotal s))).map (fun s =>
      ({ r with spill := lmod 0 r.spill s (· + part.2.1) }, some s))

/-- Place the pipeline of a context's next generation. -/
def Hw.placeGroup (h : Hw) (g : Nat) (x : Group) (r : Room) : Option (Room × Tbl Nat) :=
  (h.pipeline g x (h.genNow g x x.admitted)).foldl (fun (acc : Option (Room × Tbl Nat)) part => acc.bind (fun a =>
    (h.placePart x.cfg.spill a.1 part).map (fun b => (b.1, match b.2 with | some s => tput a.2 part.1 s | none => a.2)))) (some (r, []))

/-- Place every context of a unit: the spilled parts of each. -/
def Hw.placeUnit (h : Hw) (unit : List (Nat × Group)) : Option (List (Nat × Tbl Nat)) :=
  let room : Room := { table := h.reservedTable, spill := [h.spillReserved 0, h.spillReserved 1] }
  (unit.foldl (fun (acc : Option (Room × List (Nat × Tbl Nat))) e => acc.bind (fun a =>
    (h.placeGroup e.1 e.2 a.1).map (fun b => (b.1, a.2 ++ [(e.1, b.2)])))) (some (room, []))).map (·.2)

/-- The early contributions of a generation that is admitted go to their homes, those in ingress buffers first (R262); they are late when it completes at once or their
home is unmapped. -/
def Hw.injectEarly (h : Hw) (g : Nat) (n : Gen) (late : Bool) : Hw :=
  match h.grp? g with
  | none => h
  | some x =>
    let mine (e : Early) : Bool := (h.buf? e.cx e.ptr).any (fun b => decide (b.pkt.gen = n.no % 2 ^ 16))
    let l := x.early.filter mine
    let h := h.modGrp g (fun x => { x with early := x.early.filter (fun e => ! mine e) })
    (l.filter (fun e => ! e.shared) ++ l.filter (·.shared)).foldl (fun h e =>
      match h.buf? e.cx e.ptr with
      | none => h
      | some b =>
        let base := meshBase b.pkt b.epoch (cxRouter e.cx) b.pkt.job b.ingress
        match (if late then none else h.contribEntry e.cx e.ptr base n) with
        | some i => h.modCx e.cx (fun y => { y with inject := y.inject ++ [i] })
        | none => (h.dropStored e.cx e.ptr e.unit).countG g 6) h

/-- A generation is admitted (R252, R254, R262, R304): GROUP_ADMITTED; one without chunks, contributors or homes completes at once. -/
def Hw.admitOne (h : Hw) (g : Nat) (spilled : Tbl Nat) : Hw :=
  match h.grp? g with
  | none => h
  | some x =>
    let n := { h.genNow g x x.admitted with spilled := spilled }
    let rings := x.plan.elim [] (·.rings)
    let h := h.modGrp g (fun x => { x with
      gens := x.gens ++ [n], admitted := x.admitted + 1, state := .active, wait := 0, told := false,
      axes := rings.foldl (fun t a => tmod {} t a (fun c => { c with heard := 0 })) x.axes })
    let h := (h.reservePipeline g x n).raise 0x0501 [w32 (g + b2n (spilled ≠ []) * 2 ^ 16), w32 n.no, w32 (n.no / 2 ^ 32)]
    let none_ := decide (x.cfg.chunks = 0) || decide (n.list = [])
    let h := h.injectEarly g n (none_ || decide (n.homes = []))
    if none_ then h.closeGen g n
    else if n.homes = [] then (h.countG g 12 x.cfg.chunks).closeGen g { n with short := x.cfg.chunks }
    else h

/-- One attempt: the unit of a context is admitted when all of it waits and fits; what does not fit ends admission for the tick. -/
def Hw.admitTry (acc : Hw × Bool) (g : Nat) : Hw × Bool :=
  let (h, ended) := acc
  match h.grp? g with
  | none => acc
  | some x =>
    let unit := h.unitOf g x
    if ended || unit = [] || ! unit.all (fun e => h.waits e.1 e.2) then acc
    else match h.placeUnit unit with
      | none => (h, true)
      | some l => (l.foldl (fun h e => h.admitOne e.1 e.2) h, false)

/-- Contexts whose wiped identifiers are free again go (R284); their generation records stay (R274). (DEDUCED, log 48, unsafe.) -/
def Hw.dropClosed (h : Hw) : Hw :=
  let goes (x : Group) : Bool := decide (x.state = .closed) && x.wiped.any (fun t => decide (t < h.time.tick))
  { h with
    groups := h.groups.filter (fun (e : Nat × Group) => ! goes e.2),
    records := (h.groups.filter (fun e => goes e.2)).foldl (fun t (e : Nat × Group) => tput t e.1 e.2.records) h.records }

/-- Waiting generations have waited a tick longer (R259). -/
def Hw.countWaits (h : Hw) : Hw :=
  { h with groups := h.groups.map (fun (e : Nat × Group) => if h.waits e.1 e.2 then (e.1, { e.2 with wait := e.2.wait + 1 }) else e) }

/-- E6; without an active management processor, in the safe state and in lehr nothing is admitted (R83, R472). -/
def Hw.edgeAdmit (h : Hw) : Hw :=
  let gs := h.groups.map (·.1)
  let h := gs.foldl (fun h g => (h.respill g).freshSlots g) h
  let h := h.dropClosed
  if h.faults.state = .safe ∨ h.faults.mpLost ∨ h.inLehr then h
  else
    let h := (h.admitOrder.foldl Hw.admitTry (h, false)).1.countWaits
    (h.groups.map (·.1)).foldl Hw.tellWaiting h

/-! ### E7 HOOKS (R321, R341, R373) -/

/-- on_tick at one complex: skipped while an earlier one still runs there (R341); one that is queued waits, and nothing is dropped (R323). (DEDUCED, log 47, unsafe.) -/
def Hw.tickHook (no : Nat) (att : Nat) (h : Hw) (c : Nat) : Hw :=
  match h.att? att with
  | none => h
  | some a =>
    if a.image.entries.getD 2 0xFFFF = 0xFFFF then h
    else if h.progs.invs.any (fun e => e.2.att = att ∧ e.2.cx = c ∧ e.2.ev.hook = 2) then
      h.modProgs (fun p => { p with tickSkipped := sat32 (p.tickSkipped + 1) })
    else h.queueEvent att c { hook := 2, gen := no }

def Hw.tickHooks (h : Hw) (g : Nat) : Hw :=
  match (h.grp? g).bind (fun x => (x.gen? x.current).map (fun n => (x, n))) with
  | none => h
  | some (x, n) =>
    if ¬ h.counting x then h
    else
      let cs := ((n.homes.map (fun a => locCx (h.locate h.mesh.injEpoch a))).filter (fun c => decide ((h.cx c).attach = .serving))).dedup
      (n.reduce.toList ++ n.ring.toList).foldl (fun h a => cs.foldl (Hw.tickHook n.no a) h) h

/-- E7: the on_tick hooks are raised, stalled invocations trap, and threads that wait for a tick may go on. -/
def Hw.edgeHooks (h : Hw) : Hw :=
  let h := (h.groups.map (·.1)).foldl Hw.tickHooks h
  let h := ((h.progs.invs.map (·.2.cx)).dedup).foldl Hw.stallAt h
  h.modProgs (fun p => { p with threads := p.threads.map (fun (e : Nat × Thread) =>
    match e.2.state with
    | .waitTick _ => (e.1, { e.2 with state := .waitTick true })
    | _ => e) })

end Sys2Proof.Machine
end

