-- ==== Sys2Proof/Machine/Commit.lean ====
section
/-!
DEFINITION. The commit step E2 (R56 to R60, R83): the objects of a set, its checks as a whole, and its effect.
-/

namespace Sys2Proof.Machine
open Sys2Proof

/-! ### Objects (R59) -/

/-- The objects that a command changes, for STALE_OBJECT: the units and table entries that its request names, each numbered 2^32·(kind) + index. (DEDUCED, log 21, unsafe.) -/
def objectsOf (s : Staged) : List Nat :=
  let p := s.words
  let at_ (kind : Nat) (l : List Nat) : List Nat := l.map (kind * 2 ^ 32 + ·)
  let port := fld p 0 8 0
  let grp := fld p 0 12 0
  match s.opcode with
  | 0x0202 => at_ 0x0202 ((List.range (fld p 2 12 0)).map (fun i => fld p 0 0 0 * 4096 + fld p 1 11 0 + i))
  | 0x0203 => at_ 0x0203 [fld p 0 0 0 * 4096 + fld p 0 15 8]
  | 0x0204 | 0x0402 | 0x0403 => at_ s.opcode [64 * port + fld p 0 21 16]
  | 0x0404 => at_ 0x0404 [16 * port + fld p 0 19 16]
  | 0x0201 | 0x0205 | 0x0401 | 0x0901 | 0x0902 | 0x0903 => at_ s.opcode [port]
  | 0x0206 => at_ 0x0206 (partitionCxs p)
  | 0x0207 => at_ 0x0207 [fld p 0 0 0 * 4096 + fld p 0 27 16]
  | 0x0301 => at_ 0x0301 (if fld p 0 1 1 = 1 then (List.range 138).map (fld p 0 0 0 * 256 + ·)
                          else (List.range (fld p 1 15 8)).map (fun i => fld p 0 0 0 * 256 + fld p 1 7 0 + i))
  | 0x0304 => at_ 0x0304 [fld p 0 7 0]
  | 0x0501 | 0x0502 | 0x0503 | 0x0504 | 0x0505 | 0x0506 | 0x0601 => at_ 0x0501 [grp]
  | 0x0702 | 0x0703 => at_ 0x0702 [2 * grp + fld p 0 16 16]
  | 0x0801 => at_ 0x0801 [fld p 0 0 0]
  | 0x0802 => at_ 0x0802 [grp]
  | 0x0803 | 0x0804 => at_ 0x0803 [fld p 0 5 0]
  | 0x0806 | 0x0A04 | 0x0C01 | 0x0C02 => at_ s.opcode [fld p 0 11 0]
  | 0x0904 => at_ 0x0904 [fld p 0 3 0]
  | 0x0A02 => at_ 0x0A02 ((List.range (fld p 3 22 16)).map (fld p 3 8 0 + ·))
  | 0x0A05 => at_ 0x0A05 (if port = 0x1FF then List.range 264 else [port])
  | 0x0B01 => at_ 0x0B01 [if fld p 0 0 0 = 0 then 0 else 1 + fld p 1 11 0]
  | 0x0D07 => at_ 0x0D07 ((if fld p 0 2 2 = 1 then [0] else []) ++ (if fld p 0 6 6 = 1 then [1] else []))
  | 0x0D04 => at_ 0x0D04 [256 * fld p 0 2 0 + fld p 0 15 8]
  | op => at_ op [0]

/-- Whether another commit changed an object of the command after it was staged. -/
def Hw.changedSince (h : Hw) (s : Staged) : Bool := (objectsOf s).any (fun o => decide (s.stamp < tget 0 h.ctl.versions o))

/-- Whether what the command changes is no longer there, or may no longer be changed (R150, R173, R178, R255, R287, R389, R493, Table 11.10). (DEDUCED, log 24, unsafe.) -/
def Hw.gone (h : Hw) (s : Staged) : Bool :=
  let p := s.words
  let g := h.grp? (fld p 0 12 0)
  let closed := g.any (fun x => decide (x.state = .draining) || decide (x.state = .closed))
  match s.opcode with
  | 0x0202 | 0x0203 | 0x0207 | 0x0301 =>
    let e := fld p 0 0 0
    decide (e = h.mesh.injEpoch) || h.mesh.flipping || decide ((if e = 0 then h.mesh.drains.1 else h.mesh.drains.2) ≠ 0) || h.mesh.copying.contains e
  | 0x0302 => decide (fld p 0 0 0 = h.mesh.injEpoch) || h.mesh.flipping || h.mesh.copying.contains (fld p 0 0 0)
  | 0x0501 => g.isSome
  | 0x0503 => closed
  | 0x0506 => g.any (fun x => (h.job x.cfg.job).running.isSome)
  | 0x0702 => (tget? h.progs.images (fld p 1 5 0)).isNone
  | 0x0803 => (h.part? (fld p 0 5 0)).isSome
  | 0x0804 => (h.part? (fld p 0 5 0)).isNone
  | _ => false

/-! ### Pairs and other checks of a set (R59) -/

/-- Pair 0x0201: every forwarding entry of KIND NEXTHOP_SET names a set with members in its epoch. -/
def pairNexthop (h : Hw) (e : Nat) : Bool :=
  h.mesh.fwd.any (fun f => decide (f.1 / 4096 = e ∧ f.2.1 = 2) && decide ((tget {} h.mesh.nexthop (e * 4096 + f.2.2)).members = []))

/-- Pair 0x0204 at some complexes: the first complex and class at which the reserve check fails. -/
def pairReserve (h : Hw) (cxs : List Nat) : Option Reject :=
  cxs.findSome? (fun c => (h.reserveFails c).map (fun k => { status := stPair, detail := 0x0204, word2 := c + k * 256 }))

/-- The configuration as a flip at this tick's E3 will make it. -/
def Hw.flipped (h : Hw) : Hw := h.modMesh (fun m => { m with injEpoch := if m.flipAt ≤ h.time.tick then m.flipNext.getD m.injEpoch else m.injEpoch })

/-- The pairs of one command of a set. `before` is the configuration without the set, `after` with it, `set` the whole set and `others` every command due at the tick. -/
def pairOf (fz : Fuses) (before after : Hw) (set others : List Staged) (s : Staged) : Option Reject :=
  let p := s.words
  let pair (o : Option Nat) : Option Reject := o.map (fun d => { status := stPair, detail := d })
  let port := fld p 0 8 0
  let grp := fld p 0 12 0
  let view := after.flipped
  let created (g : Nat) : Bool := set.any (fun q => decide (q.opcode = 0x0501 ∧ fld q.words 0 12 0 = g))
  match s.opcode with
  | 0x0202 | 0x0203 => pair (if pairNexthop after (fld p 0 0 0) then some 0x0201 else none)
  | 0x0204 => let q := (after.port port).queue (fld p 0 21 16); pair (if q.ecnEnable ∧ q.maxDepth ≤ q.ecnThresh then some 0x0202 else none)
  | 0x0205 =>
    let l := (after.port port).limits
    if (List.range 4).any (fun t => decide (nth l.credit t < nth l.moved t)) then pair (some 0x0203)
    else pairReserve after [primaryHome port, alternateHome port]
  | 0x0206 => pairReserve after (partitionCxs p)
  | 0x0301 | 0x0302 => pair (pairMap after (fld p 0 0 0))
  | 0x0304 => pair (pairRouterFence view (fld p 0 7 0))
  | 0x0403 => pair (pairMeters after port)
  | 0x0501 | 0x0502 | 0x0504 | 0x0505 | 0x0506 => pair (pairGroup after view.mesh.injEpoch grp)
  | 0x0503 => pair ((pairGroup after view.mesh.injEpoch grp).or (pairCustom after grp))
  | 0x0601 => pair (pairRing after grp (created grp))
  | 0x0702 => pair (pairAttach before after p)
  | 0x0801 | 0x0802 => pair (pairEcho after)
  | 0x0803 => pair (pairOpen after p)
  | 0x0901 | 0x0902 | 0x0903 | 0x0904 => pair (pairLanes after s.opcode p)
  | 0x0A01 => pair (pairCoordinates before after p)
  | 0x0A02 => pair (pairPlan before set)
  | 0x0A04 => pair (pairRanks after p)
  | 0x0B01 => pair (pairQuiet fz p)
  | 0x0C02 =>
    let busy := (others.filter (fun q => [0x0202, 0x0203, 0x0207, 0x0301, 0x0302].contains q.opcode)) ≠ []
    let gs := (recordGroups s.bulk).map (·.id)
    pair ((pairRollback before s busy).or ((gs.findSome? (fun g => pairGroup after view.mesh.injEpoch g)).or (gs.findSome? (fun g => pairRing after g true))))
  | 0x0D01 | 0x0D02 | 0x0D03 | 0x0D04 => pair (pairPower set others)
  | _ => none

/-- Commands whose commit runs the fit check (R85). -/
def fitChecked (op : Nat) : Bool :=
  [0x0101, 0x0D07, 0x0501, 0x0502, 0x0503, 0x0504, 0x0505, 0x0506, 0x0601, 0x0702, 0x0703, 0x0C02].contains op

/-- What a command finds not empty, or past, at the commit (R147, R148, R382, R517). -/
def notEmpty (before : Hw) (s : Staged) : Option Reject :=
  let p := s.words
  let ofFail (f : Option Fail) : Option Reject := f.map (fun e => { status := e.1, detail := e.2, word2 := if e.1 = stNotEmpty then e.2 else 0 })
  match s.opcode with
  | 0x0206 =>
    if fld p 0 10 10 = 1 then none
    else
      let n := presetSlices (fld p 0 9 8)
      (partitionCxs p).findSome? (fun c =>
        let x := before.cx c
        if x.leaving (fld p 0 9 8) ≠ 0 ∨ (x.slices < n ∧ ! before.stagingLeaves c n) then
          some { status := stNotEmpty, detail := c, word2 := c } else none)
  | 0x0801 => ofFail (partitionBusy before p)
  | 0x0D01 => if before.wakePassed p then some { status := stInvalid, detail := 4 } else ofFail before.lehrBlock
  | _ => none

/-- Whether only FAULT_CONFIG_SET and RECOVERY_POLICY_SET are in a set: it commits in the safe state (R56). -/
def safeServes (set : List Staged) : Bool := set.all (fun s => decide (s.opcode = 0x0B01 ∨ s.opcode = 0x0C01))

/-! ### Effects -/

/-- The effect of one command at E2. `me` is the channel when the command itself is the request that commits. -/
def applyOne (h : Hw) (ch : Nat) (me : Bool) (s : Staged) : Hw :=
  let p := s.words
  match s.opcode with
  | 0x0101 => applyTickConfig h p
  | 0x0103 => applyTickSource h p
  | 0x0201 => applyPortConfig h s
  | 0x0202 => applyFwd h ch s
  | 0x0203 => applyNexthop h p
  | 0x0204 => applyQueueConfig h p
  | 0x0205 => applyLimits h p
  | 0x0206 => applyPartition h p
  | 0x0207 => applySheaf h p
  | 0x0301 => applyMeshRoute h p
  | 0x0302 => applyFlip h p
  | 0x0304 => applyRouterFence h p
  | 0x0401 => applyScheduler h p
  | 0x0402 => applyShaper h p
  | 0x0403 => applyMeter h s
  | 0x0404 => applyJobShare h p
  | 0x0501 => applyGroupCreate h p
  | 0x0502 => applyMembership h p
  | 0x0503 => applyArm h p
  | 0x0504 => applySuspend h p
  | 0x0505 => applyResume h p
  | 0x0506 => applyTeardown h p
  | 0x0601 => applyRingPlan h p
  | 0x0702 => applyAttach h p
  | 0x0703 => applyDetach h p
  | 0x0801 => applyMemPartition h p
  | 0x0802 => applyEchoRegion h p
  | 0x0803 => applyOpen h p
  | 0x0804 => applyClose h (if me then some ch else none) p
  | 0x0806 => applyBuddy h p
  | 0x0901 => applyLaneConfig h p
  | 0x0902 => applyLinkTrain h p
  | 0x0903 => applyLoopback h p
  | 0x0904 => applyLaser h p
  | 0x0A01 => applyCoordinates h p
  | 0x0A02 => applyPlan h p
  | 0x0A04 => applyRankTable h ch s
  | 0x0A05 => applyJobAdmit h s
  | 0x0B01 => applyFaultConfig h p
  | 0x0C01 => applyPolicy h p
  | 0x0C02 => applyRollback h s
  | 0x0D01 => applyLehrEnter h p
  | 0x0D02 => h.lehrWake 1
  | 0x0D04 => applyResetPartial h p
  | 0x0D05 => applyPowerLimit h p
  | 0x0D07 => applyClockLevel h p
  | _ => h

/-- The effect of a whole set, but for a warm reset in it. Only the set's last command can be the request that commits. (DEDUCED, log 23, unsafe.) -/
def applySet (h : Hw) (ch : Nat) (me : Bool) (set : List Staged) : Hw :=
  let n := set.length
  let h := (List.range n).foldl (fun h i => match set[i]? with
    | some s => applyOne h ch (me && decide (i + 1 = n)) s
    | none => h) h
  let h := if set.any (fun s => s.opcode = 0x0A02) then h.planApplied else h
  h.retireAtts

/-- The check of a set as a whole (R59). A command that changes a table or unit no longer there makes the set stale. -/
def checkSet (fz : Fuses) (h : Hw) (ch : Nat) (set others : List Staged) : Option Reject :=
  let after := applySet h ch false set
  let stale := (List.range set.length).findSome? (fun i => match set[i]? with
    | some s => if h.changedSince s ∨ h.gone s then some ({ status := stStale, detail := i } : Reject) else none
    | none => none)
  let fit := if set.any (fun s => fitChecked s.opcode) then after.fitFails.map (fun g => ({ status := stFit, detail := g } : Reject)) else none
  ((set.findSome? (pairOf fz h after set others)).or fit).or ((set.findSome? (notEmpty h)).or stale)

/-- The payload of the response of a committing request (Tables 2.13, 3.11, 9.9, 13.10): of a COMMIT, of a command with a response of its own. -/
def commitOut (h : Hw) (r : Request) (count : Nat) : List Word :=
  match r.opcode with
  | 0x0002 => w32 count :: le64 h.time.tick
  | 0x0101 => le64 h.time.tick
  | 0x0503 => le64 (armedTotal ((h.grp? (fld r.payload 0 12 0)).elim (some 0) (·.armed)))
  | 0x0804 => ((h.part? (fld r.payload 0 5 0)).map Part.closeOut).getD []
  | _ => r.out

/-- Whether the response of a request waits for something after its commit: the end of a seal or verify, of lehr, or of the boot. -/
def Hw.answersLater (h : Hw) (r : Request) : Bool :=
  match r.opcode with
  | 0x0804 => decide (fld r.payload 0 9 8 < 2)
  | 0x0D02 => decide (h.power.lehr.phase ≠ .awake)
  | 0x0D03 => true
  | _ => false

/-- The end of a commit that failed: the set is kept, the request has its response, and COMMIT_REJECTED is raised (R59, R60). -/
def Hw.rejectSet (h : Hw) (ch : Nat) (dry : Bool) (r : Reject) : Hw :=
  ((h.modChan ch (fun x => { x with due := none })).reply ch r.status r.detail).raise 0x0003
    ([w32 (ch + b2n dry * 2 ^ 8 + r.status * 2 ^ 16), w32 (r.detail % 2 ^ 16), w32 r.word2] ++ le64 h.time.tick)

/-- The end of a commit that succeeded: the response, unless it waits, and COMMIT_APPLIED. -/
def Hw.acceptSet (h : Hw) (ch : Nat) (dry : Bool) (count : Nat) : Hw :=
  let h := h.raise 0x0002 (w32 (ch + b2n dry * 2 ^ 8 + count * 2 ^ 16) :: le64 h.time.tick)
  match (h.chan ch).cur with
  | some r => if ¬ dry ∧ h.answersLater r then h else h.reply ch stOk 0 (commitOut h r count)
  | none => h

/-- The objects of a set take a new version (R59). -/
def Hw.newVersions (h : Hw) (set : List Staged) : Hw :=
  let n := h.ctl.commits + 1
  h.modCtl (fun c => { c with commits := n, versions := (set.flatMap objectsOf).foldl (fun t o => tput t o n) c.versions })

/-- A set is applied: its objects take a new version, and a RESET_WARM in it resets the part last (R507). -/
def Hw.commitSet (h : Hw) (ch : Nat) (set : List Staged) : Hw :=
  let me := (h.chan ch).cur.any (fun r => r.opcode ≠ 0x0002)
  let h := (applySet h ch me set).newVersions set
  let h := h.modChan ch (fun x => { x with staging := [], due := none })
  if set.any (fun s => s.opcode = 0x0D03) then
    let h := h.modChan ch (fun x => { x with cur := x.cur.map (fun r => { r with out := if r.opcode = 0x0D03 then [] else commitOut h r set.length }) })
    h.warmReset 3 h.storeOk (some ch)
  else h.acceptSet ch false set.length

/-- The checks of slots 120 to 127 (R59, Table 3.5): each set due at the next tick, in ascending channel order, against the configuration that the sets before it leave. -/
def Hw.checkDue (fz : Fuses) (h : Hw) : Hw :=
  if h.faults.mpLost ∨ ¬ h.eventsOn then h
  else
    let due := h.ctl.chans.filter (fun (e : Nat × Chan) => e.2.due.any (fun d => decide (d.tick = h.time.tick + 1)))
    let others := due.flatMap (fun (e : Nat × Chan) => e.2.staging)
    (due.foldl (fun (a : Hw × Hw) (e : Nat × Chan) =>
      let r := checkSet fz a.2 e.1 e.2.staging others
      (a.1.modChan e.1 (fun x => { x with due := x.due.map (fun d => { d with found := some r }) }),
       if r.isNone ∧ ¬ e.2.due.any (·.dryRun) then (applySet a.2 e.1 false e.2.staging).newVersions e.2.staging else a.2))
      (h, h.modTime (fun t => { t with tick := t.tick + 1 }))).1

/-- The commit due on a channel (R56 to R60, R518): what the check found holds, but for emptiness, which is checked again; a set that was not checked is checked now. (DEDUCED, log 123, unsafe.) -/
def Hw.commitChan (fz : Fuses) (h : Hw) (others : List Staged) (ch : Nat) : Hw :=
  let x := h.chan ch
  match x.due with
  | none => h
  | some d =>
    if h.time.tick < d.tick then h
    else if h.inLehr ∧ ! x.staging.all (fun s => lehrServes s.opcode) then h.rejectSet ch d.dryRun { status := stTickPassed }
    else if h.faults.state = .safe ∧ ! safeServes x.staging then h.rejectSet ch d.dryRun { status := stSafe }
    else match (d.found.getD (checkSet fz h ch x.staging others)).or (x.staging.findSome? (notEmpty h)) with
      | some r => h.rejectSet ch d.dryRun r
      | none => if d.dryRun then (h.modChan ch (fun x => { x with due := none })).acceptSet ch true 0 else h.commitSet ch x.staging

/-- E2 (R60, R83): the sets due at this tick in ascending channel order; none while no management processor is active (R472) or at a handover tick. (DEDUCED, log 20, unsafe.) -/
def Hw.commitAll (fz : Fuses) (h : Hw) : Hw :=
  if h.faults.mpLost ∨ h.handoverTick = some h.time.tick then h
  else
    let due := h.ctl.chans.filter (fun (e : Nat × Chan) => e.2.due.any (fun d => decide (d.tick ≤ h.time.tick)))
    let others := due.flatMap (fun (e : Nat × Chan) => e.2.staging)
    (due.map (·.1)).foldl (fun h ch => h.commitChan fz others ch) h

end Sys2Proof.Machine
end

