-- ==== Sys2Proof/Machine/Edge.lean ====
section
/-!
DEFINITION. The edge steps of a tick but for E5 to E7: what E1 latches, the regime of E3, and what E4 does to ports, members, slots and homes (R81, R21, R165, R275
to R280).
-/

namespace Sys2Proof.Machine
open Sys2Proof

/-! ### E1 LATCH -/

/-- FRAME_OVERRUN (R86): the core cycles of group work at a complex in the tick that ends, against its budget. -/
def Hw.frameOverrun (h : Hw) (c : Nat) : Hw :=
  let x := h.cx c
  let total := (x.cycles.map (·.2)).sum
  let most := x.cycles.foldl (fun (b : Nat × Nat) e => if b.2 < e.2 then e else b) (0, 0)
  if total ≤ h.cycleBudget c then h.modCx c (fun x => { x with cycles := [], overrunRun := 0, overrunTold := false })
  else
    let h := h.modCx c (fun x => { x with cycles := [], overrunRun := x.overrunRun + 1, overrunGroup := most.1 })
    (h.modTime (fun t => { t with overruns := sat32 (t.overruns + 1) })).report 0x104 0 (unitNo 4 c) 0 [w32 most.1]

/-- The idle count of R268: latches in a row at which RECEIVED of a generation has stood still. It stops while its context does not count. -/
def Hw.latchIdle (h : Hw) : Hw :=
  { h with groups := h.groups.map (fun (e : Nat × Group) => (e.1,
      if h.counting e.2 then { e.2 with gens := e.2.gens.map (fun n => { n with idle := if n.received = n.latched then n.idle + 1 else 0, latched := n.received }) }
      else e.2)) }

/-- What a port does at E1 (R88, R102, R107, R439): its cell counts are latched, a marker leaves on a transmitter that is awake, and LINK_PARAMS goes out until it is
echoed, or to answer a new one. -/
def Hw.latchPort (h : Hw) (p : Nat) : Hw :=
  let x := h.port p
  if ¬ x.link.up then h
  else
    let h := h.modPort p (fun x => { x with
      link := { x.link with
        sentLatch := x.link.sentCells, recvLatch := ((h.time.tick % 2 ^ 32, x.link.recvCells) :: x.link.recvLatch).take 64,
        sendMarker := ! x.lanes.txAsleep },
      glean := x.glean.latch (! x.lanes.rxAsleep) })
    if x.link.paramsEchoed ∧ ¬ x.link.paramsOwed then h else (h.modLink p (fun k => { k with paramsOwed := false })).sendParams p

/-- The phase HANDOVER begins one tick before the handover tick (R64). -/
def Hw.handoverPhase (h : Hw) : Hw :=
  if h.ctl.phase = .running ∧ h.handoverTick = some (h.time.tick + 1) then h.modCtl (fun c => { c with phase := .handover }) else h

/-- The group records of a PRIMARY part whose seal commits at this tick are latched (R394, R398). -/
def Hw.latchRecords (h : Hw) : Hw :=
  let due := (h.ctl.chans.filter (fun (e : Nat × Chan) => e.2.due.any (fun d => decide (d.tick ≤ h.time.tick)))).flatMap (fun (e : Nat × Chan) => e.2.staging)
  (due.filter (fun s => decide (s.opcode = 0x0804 ∧ fld s.words 0 9 8 = 0))).foldl (fun h s =>
    h.modPart (fld s.words 0 5 0) (fun x => { x with groups := h.jobRecords x.job })) h

/-- E1: counts advance, units latch, and what firmware set for this tick begins. In lehr only the always-on domain takes part (R83). -/
def Hw.edgeLatch (fz : Fuses) (h : Hw) : Hw :=
  let h := h.advanceTime.quietEnds.safeEnds
  let h := (h.modFaults Faults.closeTick).modPower (fun p => p.latch h.time.tick h.time.mult)
  let h := h.limiterTick
  let h := if h.inLehr then h
    else
      let h := (h.cxs.map (·.1)).foldl Hw.frameOverrun h
      (h.ports.map (·.1)).foldl Hw.latchPort h.latchIdle
  let h := h.takeLatch
  let h := h.modMesh (fun m => { m with drains := (h.drain 0, h.drain 1) })
  let h := (h.booting.handoverPhase.switchMp.readyTakeover fz).writeMirror
  h.readmit.applyResets.returnResets.latchRecords.flipReturning

/-! ### E3 REGIME -/

/-- Open chunks whose address is served elsewhere since a flip stand still until their slots have moved (R279). -/
def Hw.freezeMoved (h : Hw) : Hw :=
  let away (q : Chunk) : Bool :=
    let l := locCx (h.locate h.mesh.injEpoch q.addr)
    decide (l ≠ q.cx) && decide ((h.cx l).attach = .serving) && ! q.slotLost
  { h with groups := h.groups.map (fun (e : Nat × Group) => (e.1, { e.2 with gens := e.2.gens.map (fun n =>
      { n with open_ := n.open_.map (fun (q : Nat × Chunk) => if away q.2 then (q.1, { q.2 with frozen := true }) else q) }) })) }

/-- The epoch flips (R173): new injections use the loaded epoch, and no drain of the old one has completed. -/
def Hw.flip (h : Hw) (e : Nat) : Hw :=
  let h := h.moveGranules (h.modMesh (fun m => { m with
    injEpoch := e, flipTick := h.time.tick, drainDone := 0, slowTold := false, reasons := m.reasons ||| 2, flipNext := none, copying := [] }))
  (h.settleReturned.settleNodes.freezeMoved).raise 0x0301 [w32 e]

/-- A flip whose tick has come. -/
def Hw.flipDue (h : Hw) : Hw :=
  match h.mesh.flipNext with
  | some e => if h.mesh.flipAt ≤ h.time.tick then h.flip e else h
  | none => h

/-- Routers join FENCED_ROUTERS (R175, R179). What is attached at a router that a command fences becomes DETACHED (R174), and ROUTER_FENCED is raised; a fault has done both
already. -/
def Hw.joinFences (h : Hw) : Hw :=
  let new := h.mesh.joinFenced.filter (fun a => ! h.mesh.fenced.contains a.1)
  let h := h.modMesh (fun m => { m with fenced := m.fenced ++ (new.map (·.1)).dedup, joinFenced := [], discarding := [] })
  (new.filter (·.2)).foldl (fun h a => ((attachedAt a.1).foldl (fun h c => h.setAttach c .detached) h).raise 0x0305 [w32 (a.1 + 256)]) h

/-- The reasons that follow the state of the part (Table 6.5): START_UP, DETOUR, SAFE_STATE, TEST. -/
def Hw.settleReasons (h : Hw) : Hw :=
  let bit (r : BitVec 7) (i : Nat) (b : Bool) : BitVec 7 := if b then r ||| BitVec.ofNat 7 (2 ^ i) else r &&& ~~~(BitVec.ofNat 7 (2 ^ i))
  h.modMesh (fun m => { m with
    reasons := bit (bit (bit (bit m.reasons 0 (m.reasons.getLsbD 0 && ! h.eventsOn)) 2 (decide (m.fenced ≠ []))) 3 (decide (h.faults.state = .safe)))
      4 (h.faults.tests.any (fun t => decide (t.unit / 4096 = 5))) })

/-- E3: a drain and the rollbacks that end, the flip, the routers that leave and join FENCED_ROUTERS, and then the regime (R164, R165, R173, R175, R179, R492). -/
def Hw.edgeRegime (h : Hw) : Hw :=
  let h := (h.jobs.map (·.1)).foldl Hw.rollbackEnds h.drained.drainSlow
  h.flipDue.rejoinRouters.joinFences.settleReasons.settleRegime

/-! ### E4 FENCE: the winnow mask and the members (R119, R275, R278) -/

/-- The winnow bits of E4 (R119, R439): set where a port must not take packets, cleared where its rejoin hold has ended. -/
def Hw.winnowStep (h : Hw) : Hw :=
  let h := h.modMesh (fun m => { m with winnow := m.winnow ||| portMask (natsWhere 264 h.winnowBad) })
  (natsWhere 264 h.mayOpen).foldl Hw.openPort h

/-- The port of each RANK entry of a context, by the rank table. -/
def Hw.portsOfGroup (h : Hw) (c : GroupCfg) : Tbl Nat :=
  (List.range c.members.length).foldl (fun t i =>
    let m := memberOf c i
    if m.part then t
    else match h.rankEntry c.job m.rank with
      | some (s, q) => if s = h.disc.switchNo then tput t i q else t
      | none => t) []

def Hw.refreshPorts (h : Hw) : Hw :=
  { h with groups := h.groups.map (fun (e : Nat × Group) => (e.1, { e.2 with ports := h.portsOfGroup e.2.cfg })) }

/-- Whether an owner entry owns chunks of an open generation, finished or not (R278). -/
def Group.ownsOpen (x : Group) (_n : Gen) (i : Nat) : Bool :=
  (List.range x.cfg.chunks).any (fun k => x.isTarget k && decide (x.ownerOf k = some i))

/-- An entry leaves the mask at E4, or once a management processor is active again (R472). -/
def Hw.dropMember (h : Hw) (g i : Nat) : Hw :=
  if h.faults.mpLost then h.modGrp g (fun x => { x with clearNow := if x.clearNow.contains i then x.clearNow else x.clearNow ++ [i] }) else h.clearMask g i

/-- Owners lost at this E4 (R278): the generations in which they own chunks take STATUS OWNER_LOST before those chunks can finish. -/
def Hw.ownersLost (h : Hw) (g : Nat) (x : Group) (gone : List Nat) : Hw × List Nat :=
  let fresh (i : Nat) : Bool := (memberOf x.cfg i).owner && x.gens.any (fun n => x.ownsOpen n i && (x.mask.getD i false || decide (n.status < 3)))
  let owners := gone.filter fresh
  if owners = [] then (h, [])
  else (h.modGrp g (fun x => { x with gens := x.gens.map (fun n => if owners.any (x.ownsOpen n) then { n with status := max n.status 3 } else n) }), owners)

/-- E4 of one context: contributors of its open generations whose port is winnowed and members a commit removed are lost, the marked ones leave the mask, and owner loss and a second contained
fault send it to the rollback tier (R275, R278, R460). (DEDUCED, log 39, unsafe.) -/
def Hw.edgeMembers (h : Hw) (g : Nat) : Hw :=
  match h.grp? g with
  | none => h
  | some x =>
    if x.state = .closed then h
    else
      let h := if x.grown then (h.echoInvalidate g).modGrp g (fun x => { x with grown := false }) else h
      let gone := (x.ports.filter (fun e => h.winnowed e.2)).map (·.1)
      let marked := gone.filter (fun i => x.gens.any (fun n => n.list.contains i && ! n.lost.contains i))
      let (h, owners) := h.ownersLost g x gone
      let h := marked.foldl (fun h i => h.loseMember g i) h
      let h := (gone.filter (fun i => marked.contains i || owners.contains i)).foldl (fun h i => h.dropMember g i) h
      let h := if owners ≠ [] then (h.report 0x503 2 0 5 [w32 g]).needRollback g 1 x.current else h
      if h.faults.mpLost then h
      else
        let h := x.removed.foldl (fun h i => (h.loseMember g i).clearMask g i) h
        let h := ((h.grp? g).elim [] (·.clearNow)).foldl (fun h i => h.clearMask g i) h
        let h := h.modGrp g (fun x => { x with removed := [], clearNow := [] })
        match h.grp? g with
        | none => h
        | some x => match x.gens.find? (fun n => decide (2 ≤ n.touched)) with
          | some n => if x.rollback then h else (h.report 0xC02 2 0 5 [w32 g]).needRollback g 6 n.no
          | none => h

/-! ### E4: invocations and slots that a fault took (R280, R342, R343) -/

/-- Whether an invocation is lost: a thread of it was on a core that is fenced, or its complex is fenced or DETACHED. (DEDUCED, log 41, unsafe.) -/
def Hw.invLost (h : Hw) (v : Inv) : Bool :=
  v.threads.any (fun t => h.isFenced (unitNo 1 (t / 16))) || h.isFenced (unitNo 4 v.cx) || decide ((h.cx v.cx).attach = .detached)

/-- Whether a complex fails by a fault, not by a partial reset. -/
def Hw.faultAt (h : Hw) (c : Nat) : Bool := h.isFenced (unitNo 4 c) || (h.router (cxRouter c)).faulty

/-- The slot of a chunk is lost and not yet re-based. -/
def Hw.slotGone (h : Hw) (c : Chunk) : Bool := (c.slotLost && ! c.restarted) || (decide ((h.cx c.cx).attach = .detached) && ! c.slotLost)

/-- A chunk that restarts: what it had counted is PENDING again, and its slot is gone until E6 gives it a fresh one. (DEDUCED, log 73, unsafe.) -/
def Chunk.restart (c : Chunk) : Chunk :=
  { c with slotLost := true, restarted := true, frozen := false, ending := false, short := false, counted := [], kept := [], partials := [], ctr := {} }

/-- The invocations a fault took end: those of on_contribution and on_chunk_complete leave their chunks to restart, on_tick is not run again, and on_member_lost
runs again. The chunks given are (attachment, generation, chunk). -/
def Hw.loseInvs (h : Hw) : Hw × List (Nat × Nat × Nat) :=
  let gone := h.progs.invs.filter (fun e => h.invLost e.2)
  let h := gone.foldl (fun h e => h.endInv e.1) h
  let h := (gone.filter (fun e => e.2.ev.hook = 3)).foldl (fun h e => h.queueEvent e.2.att e.2.cx { e.2.ev with repeated := true }) h
  (h, (gone.filter (fun e => e.2.ev.hook < 2)).map (fun (e : Nat × Inv) => (e.2.att, e.2.ev.gen, e.2.ev.chunk)))

/-- The faults that touched a generation: each faulty complex by its router, and a bank or stack. (DEDUCED, log 40, unsafe.) -/
def Hw.touches (h : Hw) (lost : List Chunk) (byInv : List Chunk) : Nat :=
  let sites := ((lost.filter (fun c => ! c.slotLost && h.faultAt c.cx)) ++ byInv.filter (fun c => ! decide ((h.cx c.cx).attach = .detached) || h.faultAt c.cx)).map (fun c => cxRouter c.cx)
  sites.dedup.length + b2n (lost.any (fun c => c.slotLost && ! c.restarted))

/-- The chunks of a context whose slots or invocations are lost restart (R280): L7 is re-based, GROUP_HOME_LOST and CHUNKS_RESTARTED. When a lost slot had counted a
partial, the ring's sum is lost (Table 10.6). -/
def Hw.restartChunks (byInv : List (Nat × Nat × Nat)) (h : Hw) (g : Nat) : Hw :=
  match h.grp? g with
  | none => h
  | some x =>
    let atts := h.attsOf g
    let mine (n : Gen) (k : Nat) : Bool := byInv.any (fun b => atts.contains b.1 && decide (b.2.1 = n.no ∧ b.2.2 = k))
    let isLost (n : Gen) (q : Nat × Chunk) : Bool := h.slotGone q.2 || mine n q.1
    let lost := x.gens.flatMap (fun n => (n.open_.filter (isLost n)).map (·.2))
    if lost = [] then h
    else match lost.findSome? (fun c => c.counted.find? (fun i => (memberOf x.cfg i).part)) with
      | some i => h.ringLose g (memberOf x.cfg i).rank
      | none =>
        let h := lost.foldl (fun h c => h.freeKept c.cx (c.kept.flatMap (·.2.2.1))) h
        let h := h.modGrp g (fun x => { x with gens := x.gens.map (fun n =>
          let here := n.open_.filter (isLost n)
          if here = [] then n
          else { n with
            open_ := n.open_.map (fun q => if isLost n q then (q.1, q.2.restart) else q),
            restarts := n.restarts + here.length, status := max n.status 2,
            touched := n.touched + h.touches ((here.filter (fun q => h.slotGone q.2)).map (·.2)) ((here.filter (fun q => mine n q.1)).map (·.2)) }) })
        ((h.countG g 13 lost.length).report 0x502 2 0 4 [w32 g]).raise 0x0504 [w32 g, w32 lost.length]

/-- Events that wait at a DETACHED complex go with it, but those of on_member_lost, which run again where its address is served. -/
def Hw.dropEvents (h : Hw) (c : Nat) : Hw :=
  let to_ := locCx (h.locate h.mesh.injEpoch (h.cxAddress c))
  let serves := decide (to_ ≠ c) && decide ((h.cx to_).attach = .serving)
  h.progs.atts.foldl (fun h (e : Nat × Att) =>
    let q := tget [] e.2.events c
    if q = [] then h
    else
      let stay := q.filter (fun v => decide (v.hook = 3) && ! serves)
      let h := h.modAtt e.1 (fun a => { a with events := tput a.events c stay })
      q.foldl (fun h v =>
        if v.hook = 3 then (if serves then h.queueEvent e.1 to_ { v with repeated := true } else h)
        else match v.ptr with | some p => h.dropStored c p homeUnit | none => h) h) h

/-- State windows at a DETACHED complex are lost, and their group stops as a trap stops it (R343). (DEDUCED, log 42, unsafe.) -/
def Hw.loseWindows (h : Hw) (c : Nat) : Hw :=
  let lost := (h.progs.atts.filter (fun e => (tget? e.2.windows c).isSome)).map (fun (e : Nat × Att) => (e.1, e.2.grp))
  let h := lost.foldl (fun h e => h.modAtt e.1 (fun a => { a with windows := tdel a.windows c, places := tdel a.places c })) h
  ((lost.map (·.2)).dedup).foldl (fun h g =>
    (h.report 0x702 2 0 5 [w32 g]).modGrp g (fun x => { x with stop := x.stop.or (some (h.time.tick - 1, 4)) })) h

/-- Relay credits held against a DETACHED complex return to the other complexes of its column (R168). (DEDUCED, log 43, unsafe.) -/
def Hw.restoreRelay (h : Hw) (c : Nat) : Hw :=
  if 128 ≤ c then h
  else { h with cxs := h.cxs.map (fun (e : Nat × Complex) =>
    if e.1 < 128 ∧ e.1 % 16 = c % 16 then (e.1, { e.2 with relayCredits := e.2.relayCredits.filter (fun r => r.1 ≠ c / 16) }) else e) }

def Hw.detached (h : Hw) : List Nat := (h.cxs.filter (fun e => e.2.attach = .detached)).map (·.1)

/-- What E4 does about complexes, invocations and slots that faults took. -/
def Hw.edgeSlots (h : Hw) : Hw :=
  let (h, byInv) := h.loseInvs
  let h := (h.groups.map (·.1)).foldl (Hw.restartChunks byInv) h
  h.detached.foldl (fun h c => ((h.dropEvents c).loseWindows c).restoreRelay c) h

/-! ### E4: ports change homes (R21, R22, R145, R146, R417) -/

/-- Whether a dark port may start a bring-up at a home that serves (R22). -/
def Hw.mayRelight (h : Hw) (p : Nat) : Bool :=
  let l := (h.port p).lanes
  decide (l.state = 0) && l.cfg.enable && decide (l.loopMode = 0) && l.stopTick.isNone && ! h.power.resets.any (fun r => (resetPorts r.kind r.index).contains p)

/-- A dark port changes homes: what is queued or held for it at the old one is discarded as at any winnowed port (R144). -/
def Hw.darkHome (h : Hw) (p : Nat) (alt : Bool) : Hw :=
  let x := h.port p
  if x.atAlt = alt then h
  else (h.dropStoredAll p).modPort p (fun x => { x with atAlt := alt })

/-- A port whose home no longer serves it, whose primary home is readmitted, or whose HOME_ALTERNATE a commit has changed, begins a move. The move keeps its state while the port
engine, crossbar and slices of the home it leaves are intact; a moved port that leaves its alternate home for a fence loses it. `before` names the complexes that
were DETACHED before this E4: what they served passes at once, any other at the next tick. A dark port that stays dark only changes homes. (DEDUCED, log 36, unsafe; DEDUCED, log 37, unsafe.) -/
def Hw.moveStep (before : List Nat) (h : Hw) (p : Nat) : Hw :=
  let x := h.port p
  let cur := h.home p
  let want := if x.homeAlt then alternateHome p else primaryHome p
  let other := if x.atAlt then primaryHome p else alternateHome p
  let t := h.time.tick
  if x.move ≠ .none ∨ h.mayRelight p then h
  else if h.homeServes cur then
    (if cur ≠ want ∧ h.homeServes want ∧ (x.reHome ∨ ¬ x.homeAlt) then
      h.modPort p (fun x => { x with move := .orderly t x.homeAlt, withhold := true, reHome := false })
     else h)
  else if ¬ h.homeServes other then h
  else if x.lanes.state = 0 then h.darkHome p (! x.atAlt)
  else if x.atAlt ∨ (h.cx cur).attach = .detached then
    h.modPort p (fun x => { x with move := .lossy (if before.contains cur ∨ (h.cx cur).attach ≠ .detached then t - 1 else t) (! x.atAlt) })
  else h.modPort p (fun x => { x with move := .orderly t (! x.atAlt), withhold := true })

/-- A dark port one of whose homes serves again starts a blind bring-up there (R22). -/
def Hw.relight (h : Hw) (p : Nat) : Hw :=
  let x := h.port p
  let own := x.homeAlt
  let want := if own then alternateHome p else primaryHome p
  let other := if own then primaryHome p else alternateHome p
  if ¬ h.mayRelight p then h
  else if h.homeServes want then (h.darkHome p own).blindBringUp p
  else if h.homeServes other then (h.darkHome p (! own)).blindBringUp p
  else h

/-- Whether the part is RETIRED or about to be, so that its ports stay dark. -/
def Hw.isRetired (fz : Fuses) (h : Hw) : Bool := decide (fz.lc = .retired) || (h.power.lcReset && decide (h.ctl.lcTarget = some .retired))

/-- The moves that are due (R145, R146). -/
def Hw.moveHandovers (h : Hw) : Hw := ((h.ports.filter (fun e => decide (e.2.move ≠ .none))).map (·.1)).foldl Hw.moveHandover h

/-- E4. Firmware moves ports, and brings dark ones up, once it runs. -/
def Hw.edgeFence (fz : Fuses) (h : Hw) : Hw :=
  let h := if h.faults.mpLost ∨ ¬ h.eventsOn ∨ h.inLehr then h else h.gleanEdge
  let h := ((h.cxs.map (·.1)).foldl Hw.leaveUnmapped h).winnowStep.refreshPorts
  let h := (h.groups.map (·.1)).foldl Hw.edgeMembers h
  let h := (h.groups.map (·.1)).foldl Hw.programStop h.edgeSlots
  let h := if h.faults.mpLost ∨ ¬ h.eventsOn then h else h.degradedCheck
  let before := h.detached
  let h := h.beginResets.moveHandovers
  let h := if h.eventsOn then ((List.range 264).foldl (Hw.moveStep before) h).moveHandovers else h
  if h.isRetired fz ∨ ¬ h.eventsOn then h else (List.range 264).foldl Hw.relight h

end Sys2Proof.Machine
end

