-- ==== Sys2Proof/Machine/SlotStart.lean ====
section
/-!
DEFINITION. The fixed work of the slot map and the tick edge as a whole (R74, R81, Tables 3.4 and 3.5, R461, R477).
-/

namespace Sys2Proof.Machine
open Sys2Proof

/-! ### The tick generators (R74) -/

/-- The standby becomes active, with its counts, at the slot start after the active generator was fenced; with both fenced nothing changes. -/
def Hw.switchGenerator (h : Hw) : Hw :=
  let t := h.time
  if t.genFenced.getD t.activeGen false && ! t.genFenced.getD (1 - t.activeGen) true then
    h.modTime (fun t => { t with activeGen := 1 - t.activeGen, tick := t.standby.1, base := t.standby.2.1, slot := t.standby.2.2, standby := (t.tick, t.base, t.slot) })
  else h

/-- The generators in service are checked: the one that failed parity is fenced; while both are in service, one whose counters or edges differ, which is the one farther from the
source's phase, else the standby. -/
def Hw.compareGenerators (h : Hw) (m : SlotMeas) : Hw :=
  let t := h.time
  let on (g : Nat) : Bool := ! t.genFenced.getD g true
  let parity0 := m.parity0 && on 0
  let parity1 := m.parity1 && on 1
  if ¬ parity0 ∧ ¬ parity1 ∧ ¬ (on 0 ∧ on 1 ∧ (m.countersDiffer ∨ 2 < m.edgeDiff)) then h
  else
    let bad := if parity0 ∧ ¬ parity1 then 0 else if parity1 ∧ ¬ parity0 then 1
      else if m.phase1 < m.phase0 then 0 else if m.phase0 < m.phase1 then 1 else 1 - t.activeGen
    (h.report 0x101 1 (unitNo 12 bad) 2).fence (unitNo 12 bad) 0x101

/-! ### Forced faults (R477) -/

/-- A complex is fenced in the given attachment state. -/
def Hw.fenceComplex (h : Hw) (c : Nat) (a : Attach) (s : Nat) : Hw := ((h.setAttach c a).fenceOne (unitNo 4 c) s).checkStacks s

/-- Consecutive errors of one item: each of the first three ends in a replay, the fourth is the third replay that fails. -/
def Hw.injectReplays (h : Hw) (s last u n : Nat) (fail : Hw → Hw) : Hw :=
  let h := (List.range (min n 3)).foldl (fun h _ => h.report s 0 u 1 [] true) h
  if n < 4 then h else fail (h.report last 1 u 2 [] true)

/-- A word of an SRAM slice is lost: a buffer in it goes to the cullet list, and the entries that name it find a bad pointer (R129). Which one is open, and there may be none.
(DESIGN CHOICE, log 134, safe.) -/
def Hw.loseSliceWord (h : Hw) (c slice : Nat) : Hw :=
  let here := ((h.cx c).bufs.filter (fun e => decide (ptrSlice e.1 = slice ∧ e.2.state = 1))).map (·.1)
  let (h, q) := h.draw
  match here[q % (here.length + 1)]? with
  | none => h
  | some p => (h.modBuf c p (fun b => { b with state := 2, refs := 0 })).modCx c (fun x => x.toCullet p)

/-- Occurrences that are counted alone. -/
def Hw.injectCounts (h : Hw) (s u n : Nat) : Hw := (List.range n).foldl (fun h _ => h.report s 0 u 0 [] true) h

/-- What the unit does with COUNT consecutive errors of a source (Tables 16.2, 3.12, 5.19, 6.15, 7.10, 9.15, 11.15, 13.14, 14.17, 18.13). (DESIGN CHOICE, log 53, safe; DEDUCED, log 54, unsafe.) -/
def Hw.inject (h : Hw) (s u n : Nat) : Hw :=
  let i := u % 4096
  match s with
  | 0x101 => (h.report s 1 u 2 [] true).fence u s
  | 0x102 =>
    let next := ((List.range h.time.sources.length).find? (fun k => decide (k ≠ h.time.active) && (h.time.sources[k]?).any h.sourceUsable)).getD 0xF
    (h.injectCounts s u n).setSource next
  | 0x103 => (h.injectCounts s u n).modTime (fun t => { t with lockState := if t.lockState = 2 then 1 else t.lockState })
  | 0x104 => (h.injectCounts s u n).modTime (fun t => { t with overruns := sat32 (t.overruns + n) })
  | 0x106 => (h.injectCounts s u n).modTime (fun t => { t with markerErrors := sat32 (t.markerErrors + n) })
  | 0x201 | 0x202 => (List.range n).foldl (fun h _ => h.strikeReport s u) h
  | 0x204 => h.injectReplays s s u n (fun h => (h.loseSliceWord (i / 17) (i % 17)).fence u s)
  | 0x205 | 0x206 | 0x207 => h.injectReplays s s u n (fun h => h.fenceComplex i .detached s)
  | 0x208 => h.injectReplays s s u n (fun h => h.fence u s)
  | 0x301 => h.injectReplays s 0x302 u n (fun h => h.fence u 0x302)
  | 0x302 => (h.report s 1 u 2 [] true).fence u s
  | 0x304 =>
    let h := if u / 4096 = 5 then h.countRouter i 16 n else if u / 4096 = 4 then h.countRouter (cxRouter i) 16 n else h
    h.injectReplays s s u n (fun h => if u / 4096 = 14 ∨ u / 4096 = 15 then h else h.fence u s)
  | 0x401 =>
    let (h, q) := h.draw
    let w := q % 129
    (h.injectCounts s u n).modPort i (fun x =>
      if w < 64 then x.modQueue w (fun y => { y with tokens := y.shaper.burst * 65536, deficit := 0 })
      else if w < 128 then { x with meters := tmod {} x.meters (w - 64) (fun m => { m with tc := m.cfg.cbs * 65536, tp := m.cfg.pbs * 65536 }) }
      else { x with classDeficit := (0, 0) })
  | 0x501 => h.injectReplays s s u n (fun h =>
      if u / 4096 = 3 then h.fence u s
      else (h.loseSlots (fun _ _ _ c => decide (c.cx = i))).fenceComplex i .computeFenced s)
  | 0x703 => h.injectReplays s s u n (fun h => h.fence u s)
  | 0x704 => h.injectReplays s s u n (fun h => h.fenceComplex i .computeFenced s)
  | 0x801 => (h.countM 15 (min n 3)).injectReplays s 0x802 u n (fun h => (h.loseWord (i / 33)).fence u 0x802)
  | 0x802 => ((h.report s 1 u 3 [] true).loseWord (i / 33)).fence u s
  | 0x901 => h.injectReplays s 0x902 u n (fun h => h.fastRetrain i true)
  | 0x902 => (h.report s 1 u 3 [] true).fastRetrain i true
  | 0x903 => (List.range n).foldl (fun h _ => (h.strikeReport s u).fastRetrain i false) h
  | 0x904 => h.dropChannel (i / 5) (i % 5) true
  | 0x905 => h.dropChannel (256 + i / 4) (i % 4) true
  | 0x906 => ((h.report s 1 u 3 [] true).fence u s).peLight i true
  | 0xB01 => h.report s 3 u 6 [] true
  | 0xD03 => h.report s 3 u 6 [] true
  | 0xD04 => h.thermalTrip i true
  | 0xE01 => if h.isFenced u then h else h.loseMp i true
  | _ => h.injectCounts s u n

/-- A force acts at the slot start after its command: INJECT in the unit, NOTIFY in the collector alone. -/
def Hw.forceOne (h : Hw) (s : Nat) : Hw :=
  match (h.faults.src s).force with
  | none => h
  | some (u, n, notify) =>
    let h := h.modFaults (fun f => f.modSrc s (fun x => { x with force := none }))
    if notify then (List.range n).foldl (fun h _ => h.report s ((sourceTop s).getD 0) u 0 [] true true) h else h.inject s u n

def Hw.forces (h : Hw) : Hw := (h.faults.sources.map (·.1)).foldl Hw.forceOne h

/-! ### Every slot start -/

/-- The idle slots of a transmitter are counted (R425), and a glean message that a change has called for is sent (R436). -/
def Hw.slotPort (uid : List Byte) (h : Hw) (p : Nat) : Hw :=
  let h := h.modLanes p (fun l => { l with idleCount := sat32 (l.idleCount + 1) })
  let x := h.port p
  if x.link.up ∧ x.glean.sendNow ∧ ¬ h.faults.mpLost then h.sendGlean uid p else h

/-- The work of every slot start but the refill: the generators, forced faults, the measurement of the dies, and what waits for a buffer. -/
def Hw.slotWork (fz : Fuses) (h : Hw) (m : SlotMeas) : Hw :=
  let h := (h.switchGenerator.compareGenerators m).forces
  let h := h.modPower (fun p => p.measure h.time.mult m.diePower m.dieTemp)
  if h.inLehr ∨ ¬ h.powered then h
  else
    let h := (h.ports.map (·.1)).foldl (Hw.slotPort fz.deviceUid) h
    (h.cxs.map (·.1)).foldl Hw.flushOutbox h

/-! ### The slot map (Table 3.5) -/

/-- Lanes that a commit has disabled stop from slot 1 (R430). -/
def Hw.stopDisabled (h : Hw) : Hw :=
  ((h.ports.filter (fun e => e.2.lanes.stopTick.any (fun t => decide (t ≤ h.time.tick)))).map (·.1)).foldl Hw.stopLanes h

/-- From slot 120 before a LEHR_ENTER's tick no port returns credits (R517). -/
def Hw.lehrWithhold (h : Hw) : Hw :=
  let soon := h.ctl.chans.any (fun e => e.2.due.any (fun d => decide (d.tick = h.time.tick + 1) && ! d.dryRun) && e.2.staging.any (fun s => decide (s.opcode = 0x0D01)))
  if soon ∧ h.power.lehr.phase = .awake then h.modLehr (fun l => { l with withhold := true }) else h

/-- The work that a slot of the map has of its own: 1 the audit of local identities, 2 that of the package sums, 4 the collector's sweep, 120 to 127 the slots in which
the sets due at the next tick are checked, which this model does in the first of them. -/
def Hw.slotFixed (fz : Fuses) (h : Hw) : Hw :=
  let s := h.time.slot
  if s = 1 then h.releaseLasers.stopDisabled.auditLocal
  else if s = 2 then h.auditSums
  else if s = 4 then h.sweep
  else if s = 120 then h.lehrWithhold.checkDue fz
  else if 120 < s then h.lehrWithhold
  else h

/-- SLOT_START (R81): the next slot of the tick begins. Slot 0 begins with TICK_EDGE, so after slot 127 only the tick edge can follow. -/
def execSlotStart (m : SlotMeas) : State → Out := onHw (fun fz h =>
  if ¬ h.powered ∨ 127 ≤ h.time.slot then h
  else
    let h := h.modTime (fun t => { t with slot := t.slot + 1, standby := (t.standby.1, t.standby.2.1, t.standby.2.2 + 1) })
    let h := if h.inLehr then h else h.refillAll h.time.slot
    (h.slotWork fz m).slotFixed fz)

/-! ### The tick edge (Table 3.4) -/

/-- E2 (R60, R70, R83, R514, R519): a reset that is due, then the sets due and the clock levels that firmware changes, and the wakes from lehr. Credits that were withheld for an
entry to lehr return when it failed. -/
def Hw.edgeCommit (fz : Fuses) (h : Hw) : Hw :=
  let h := (h.dueReset.commitAll fz).autoClocks.wakeByTick.wakeBySignal
  if h.power.lehr.phase = .awake then h.modLehr (fun l => { l with withhold := false }) else h

/-- E3 to E7, and the glean messages that are due while firmware runs. (DEDUCED, log 51, unsafe.) -/
def Hw.edgeRest (fz : Fuses) (h : Hw) : Hw :=
  let h := ((h.edgeRegime.edgeFence fz).edgePatience).edgeAdmit.edgeHooks
  if h.inLehr ∨ h.faults.mpLost ∨ ¬ h.eventsOn then h else h.gleanTick fz.deviceUid

/-- TICK_EDGE (R81): the refill of slot 0, E1 to E7 in order, and the work of a slot start. (DEDUCED, log 52, unsafe.) -/
def execTickEdge (m : SlotMeas) : State → Out := onHw (fun fz h =>
  if ¬ h.powered then h
  else
    let h := if h.inLehr then h else h.refillAll 0
    (((h.edgeLatch fz).edgeCommit fz).edgeRest fz).slotWork fz m)

end Sys2Proof.Machine
end

