-- ==== Sys2Proof/Machine/Dispatch.lean ====
section
/-!
DEFINITION. The dispatch: one arm for each command of the table, each a direct call of its meaning.
-/

namespace Sys2Proof.Machine
open Sys2Proof

/-- What a command does to everything but the queue of waiting commands. -/
def exec (i : Instr) (s : State) : Host.Outcome State Fault Refusal :=
  match i with
  | .doorbellRing ch v => Sys2Proof.Machine.execDoorbellRing ch v s
  | .requestBufferWrite ch off v => Sys2Proof.Machine.execRequestBufferWrite ch off v s
  | .registerWrite off size v => Sys2Proof.Machine.execRegisterWrite off size v s
  | .tickCountRead => Sys2Proof.Machine.execTickCountRead s
  | .eventRingArm v => Sys2Proof.Machine.execEventRingArm v s
  | .eventRingDisarm v => Sys2Proof.Machine.execEventRingDisarm v s
  | .eventRingConsumerWrite v => Sys2Proof.Machine.execEventRingConsumerWrite v s
  | .eventEntryWrite => Sys2Proof.Machine.execEventEntryWrite s
  | .resetArmWarm => Sys2Proof.Machine.execResetArmWarm s
  | .resetArmMpSwitch => Sys2Proof.Machine.execResetArmMpSwitch s
  | .bulkWindowWrite off data => Sys2Proof.Machine.execBulkWindowWrite off data s
  | .perstNAssert => Sys2Proof.Machine.execPerstNAssert s
  | .perstNRelease => Sys2Proof.Machine.execPerstNRelease s
  | .mctpMessageReceive binding eid body => Sys2Proof.Machine.execMctpMessageReceive binding eid body s
  | .setEndpointId binding eid operation newEid => Sys2Proof.Machine.execSetEndpointId binding eid operation newEid s
  | .getEndpointId binding eid => Sys2Proof.Machine.execGetEndpointId binding eid s
  | .getMctpVersionSupport binding eid messageType => Sys2Proof.Machine.execGetMctpVersionSupport binding eid messageType s
  | .getMessageTypeSupport binding eid => Sys2Proof.Machine.execGetMessageTypeSupport binding eid s
  | .getVendorDefinedMessageSupport binding eid selector => Sys2Proof.Machine.execGetVendorDefinedMessageSupport binding eid selector s
  | .i3cEntdaa addr => Sys2Proof.Machine.execI3cEntdaa addr s
  | .getVersion ch => Sys2Proof.Machine.execGetVersion ch s
  | .commit ch => Sys2Proof.Machine.execCommit ch s
  | .discardStaged ch => Sys2Proof.Machine.execDiscardStaged ch s
  | .eventSubscribe ch => Sys2Proof.Machine.execEventSubscribe ch s
  | .fwFlashWrite ch => Sys2Proof.Machine.execFwFlashWrite ch s
  | .fwBootSlotSet ch => Sys2Proof.Machine.execFwBootSlotSet ch s
  | .fwHitlessActivate ch => Sys2Proof.Machine.execFwHitlessActivate ch s
  | .fwStatusGet ch => Sys2Proof.Machine.execFwStatusGet ch s
  | .lcNonceGet ch => Sys2Proof.Machine.execLcNonceGet ch s
  | .lcTransition ch => Sys2Proof.Machine.execLcTransition ch s
  | .antiRollbackAdvance ch => Sys2Proof.Machine.execAntiRollbackAdvance ch s
  | .tickConfigSet ch => Sys2Proof.Machine.execTickConfigSet ch s
  | .tickStatusGet ch => Sys2Proof.Machine.execTickStatusGet ch s
  | .tickSourceSelect ch => Sys2Proof.Machine.execTickSourceSelect ch s
  | .ledgerRead ch => Sys2Proof.Machine.execLedgerRead ch s
  | .portConfigSet ch => Sys2Proof.Machine.execPortConfigSet ch s
  | .fwdTableLoad ch => Sys2Proof.Machine.execFwdTableLoad ch s
  | .nexthopSetLoad ch => Sys2Proof.Machine.execNexthopSetLoad ch s
  | .queueConfigSet ch => Sys2Proof.Machine.execQueueConfigSet ch s
  | .bufferLimitsSet ch => Sys2Proof.Machine.execBufferLimitsSet ch s
  | .slicePartitionSet ch => Sys2Proof.Machine.execSlicePartitionSet ch s
  | .sheafLoad ch => Sys2Proof.Machine.execSheafLoad ch s
  | .portCountersRead ch => Sys2Proof.Machine.execPortCountersRead ch s
  | .culletListRead ch => Sys2Proof.Machine.execCulletListRead ch s
  | .meshRouteLoad ch => Sys2Proof.Machine.execMeshRouteLoad ch s
  | .epochFlip ch => Sys2Proof.Machine.execEpochFlip ch s
  | .epochStatusGet ch => Sys2Proof.Machine.execEpochStatusGet ch s
  | .routerFence ch => Sys2Proof.Machine.execRouterFence ch s
  | .meshCountersRead ch => Sys2Proof.Machine.execMeshCountersRead ch s
  | .schedulerSet ch => Sys2Proof.Machine.execSchedulerSet ch s
  | .shaperSet ch => Sys2Proof.Machine.execShaperSet ch s
  | .meterSet ch => Sys2Proof.Machine.execMeterSet ch s
  | .jobShareSet ch => Sys2Proof.Machine.execJobShareSet ch s
  | .shapingCountersRead ch => Sys2Proof.Machine.execShapingCountersRead ch s
  | .groupCreate ch => Sys2Proof.Machine.execGroupCreate ch s
  | .groupMembershipSet ch => Sys2Proof.Machine.execGroupMembershipSet ch s
  | .groupArm ch => Sys2Proof.Machine.execGroupArm ch s
  | .groupSuspend ch => Sys2Proof.Machine.execGroupSuspend ch s
  | .groupResume ch => Sys2Proof.Machine.execGroupResume ch s
  | .groupTeardown ch => Sys2Proof.Machine.execGroupTeardown ch s
  | .groupStatusGet ch => Sys2Proof.Machine.execGroupStatusGet ch s
  | .generationRecordRead ch => Sys2Proof.Machine.execGenerationRecordRead ch s
  | .ringPlanSet ch => Sys2Proof.Machine.execRingPlanSet ch s
  | .ringStatusGet ch => Sys2Proof.Machine.execRingStatusGet ch s
  | .programLoad ch => Sys2Proof.Machine.execProgramLoad ch s
  | .programAttach ch => Sys2Proof.Machine.execProgramAttach ch s
  | .programDetach ch => Sys2Proof.Machine.execProgramDetach ch s
  | .programUnload ch => Sys2Proof.Machine.execProgramUnload ch s
  | .threadTrapRead ch => Sys2Proof.Machine.execThreadTrapRead ch s
  | .memoryPartitionSet ch => Sys2Proof.Machine.execMemoryPartitionSet ch s
  | .echoRegionSet ch => Sys2Proof.Machine.execEchoRegionSet ch s
  | .snapshotOpen ch => Sys2Proof.Machine.execSnapshotOpen ch s
  | .snapshotClose ch => Sys2Proof.Machine.execSnapshotClose ch s
  | .snapshotRecordRead ch => Sys2Proof.Machine.execSnapshotRecordRead ch s
  | .snapshotBuddySet ch => Sys2Proof.Machine.execSnapshotBuddySet ch s
  | .laneConfigSet ch => Sys2Proof.Machine.execLaneConfigSet ch s
  | .linkTrain ch => Sys2Proof.Machine.execLinkTrain ch s
  | .loopbackSet ch => Sys2Proof.Machine.execLoopbackSet ch s
  | .laserControl ch => Sys2Proof.Machine.execLaserControl ch s
  | .laneStatusGet ch => Sys2Proof.Machine.execLaneStatusGet ch s
  | .coordinatesSet ch => Sys2Proof.Machine.execCoordinatesSet ch s
  | .neighbourPlanLoad ch => Sys2Proof.Machine.execNeighbourPlanLoad ch s
  | .gleanStatusGet ch => Sys2Proof.Machine.execGleanStatusGet ch s
  | .rankTableLoad ch => Sys2Proof.Machine.execRankTableLoad ch s
  | .jobAdmit ch => Sys2Proof.Machine.execJobAdmit ch s
  | .faultConfigSet ch => Sys2Proof.Machine.execFaultConfigSet ch s
  | .faultForce ch => Sys2Proof.Machine.execFaultForce ch s
  | .faultLogRead ch => Sys2Proof.Machine.execFaultLogRead ch s
  | .unitReadmit ch => Sys2Proof.Machine.execUnitReadmit ch s
  | .spareBudgetGet ch => Sys2Proof.Machine.execSpareBudgetGet ch s
  | .recoveryPolicySet ch => Sys2Proof.Machine.execRecoveryPolicySet ch s
  | .rollbackStart ch => Sys2Proof.Machine.execRollbackStart ch s
  | .recoveryStatusGet ch => Sys2Proof.Machine.execRecoveryStatusGet ch s
  | .lehrEnter ch => Sys2Proof.Machine.execLehrEnter ch s
  | .lehrExit ch => Sys2Proof.Machine.execLehrExit ch s
  | .resetWarm ch => Sys2Proof.Machine.execResetWarm ch s
  | .resetPartial ch => Sys2Proof.Machine.execResetPartial ch s
  | .powerLimitSet ch => Sys2Proof.Machine.execPowerLimitSet ch s
  | .powerTelemetryRead ch => Sys2Proof.Machine.execPowerTelemetryRead ch s
  | .clockLevelSet ch => Sys2Proof.Machine.execClockLevelSet ch s
  | .sysRstNRelease straps => Sys2Proof.Machine.execSysRstNRelease straps s
  | .sysRstNFall => Sys2Proof.Machine.execSysRstNFall s
  | .bootComplete => Sys2Proof.Machine.execBootComplete s
  | .standbyReadySet => Sys2Proof.Machine.execStandbyReadySet s
  | .fwHandover => Sys2Proof.Machine.execFwHandover s
  | .fwActivateTimeout => Sys2Proof.Machine.execFwActivateTimeout s
  | .lcTransitionDone => Sys2Proof.Machine.execLcTransitionDone s
  | .supplyOutOfRange rail => Sys2Proof.Machine.execSupplyOutOfRange rail s
  | .supplyOutTimeout => Sys2Proof.Machine.execSupplyOutTimeout s
  | .refclkLoss => Sys2Proof.Machine.execRefclkLoss s
  | .thermalTrip die => Sys2Proof.Machine.execThermalTrip die s
  | .thermalThrottle die => Sys2Proof.Machine.execThermalThrottle die s
  | .hbmThermalLimit stack => Sys2Proof.Machine.execHbmThermalLimit stack s
  | .tickEdge m => Sys2Proof.Machine.execTickEdge m s
  | .slotStart m => Sys2Proof.Machine.execSlotStart m s
  | .tickInEdge phase => Sys2Proof.Machine.execTickInEdge phase s
  | .tickMarkerReceive port unit rxCycles => Sys2Proof.Machine.execTickMarkerReceive port unit rxCycles s
  | .tickSourceLost => Sys2Proof.Machine.execTickSourceLost s
  | .tickAlignLost => Sys2Proof.Machine.execTickAlignLost s
  | .markerTimeout port => Sys2Proof.Machine.execMarkerTimeout port s
  | .frameOverrunPersistent cx => Sys2Proof.Machine.execFrameOverrunPersistent cx s
  | .linkBlockReceive port blk => Sys2Proof.Machine.execLinkBlockReceive port blk s
  | .linkBlockTransmit port => Sys2Proof.Machine.execLinkBlockTransmit port s
  | .linkReplay port => Sys2Proof.Machine.execLinkReplay port s
  | .replayTimeout port => Sys2Proof.Machine.execReplayTimeout port s
  | .linkParamsReceive port pkt => Sys2Proof.Machine.execLinkParamsReceive port pkt s
  | .linkNoticeReceive port unit => Sys2Proof.Machine.execLinkNoticeReceive port unit s
  | .packetReceive port pkt => Sys2Proof.Machine.execPacketReceive port pkt s
  | .meshInject cx => Sys2Proof.Machine.execMeshInject cx s
  | .meshFlitReceive router dir parityOk => Sys2Proof.Machine.execMeshFlitReceive router dir parityOk s
  | .meshPacketRoute router input vc => Sys2Proof.Machine.execMeshPacketRoute router input vc s
  | .relaySweep cx => Sys2Proof.Machine.execRelaySweep cx s
  | .relayCreditReceive cx => Sys2Proof.Machine.execRelayCreditReceive cx s
  | .localHandoff cx => Sys2Proof.Machine.execLocalHandoff cx s
  | .egressStore cx => Sys2Proof.Machine.execEgressStore cx s
  | .reseqGapRelease port => Sys2Proof.Machine.execReseqGapRelease port s
  | .reseqEntryExpire port => Sys2Proof.Machine.execReseqEntryExpire port s
  | .packetSelect port => Sys2Proof.Machine.execPacketSelect port s
  | .portMoveHandover port => Sys2Proof.Machine.execPortMoveHandover port s
  | .tillerSubstitute cx => Sys2Proof.Machine.execTillerSubstitute cx s
  | .slotMoveDone cx => Sys2Proof.Machine.execSlotMoveDone cx s
  | .epochDrained => Sys2Proof.Machine.execEpochDrained s
  | .epochDrainSlow => Sys2Proof.Machine.execEpochDrainSlow s
  | .contribAtHome cx => Sys2Proof.Machine.execContribAtHome cx s
  | .patienceExpiry grp gen chunk => Sys2Proof.Machine.execPatienceExpiry grp gen chunk s
  | .idleGenerationOpen grp => Sys2Proof.Machine.execIdleGenerationOpen grp s
  | .admissionWaiting grp => Sys2Proof.Machine.execAdmissionWaiting grp s
  | .groupClose grp => Sys2Proof.Machine.execGroupClose grp s
  | .storageWipeDone grp => Sys2Proof.Machine.execStorageWipeDone grp s
  | .ringPartialLost grp axis => Sys2Proof.Machine.execRingPartialLost grp axis s
  | .invocationStart cx => Sys2Proof.Machine.execInvocationStart cx s
  | .threadWake t => Sys2Proof.Machine.execThreadWake t s
  | .programMessageReceive cx => Sys2Proof.Machine.execProgramMessageReceive cx s
  | .stalledTrap cx => Sys2Proof.Machine.execStalledTrap cx s
  | .programGroupStop grp => Sys2Proof.Machine.execProgramGroupStop grp s
  | .add t => Sys2Proof.Machine.execAdd t s
  | .sub t => Sys2Proof.Machine.execSub t s
  | .and t => Sys2Proof.Machine.execAnd t s
  | .or t => Sys2Proof.Machine.execOr t s
  | .xor t => Sys2Proof.Machine.execXor t s
  | .sll t => Sys2Proof.Machine.execSll t s
  | .srl t => Sys2Proof.Machine.execSrl t s
  | .sra t => Sys2Proof.Machine.execSra t s
  | .slt t => Sys2Proof.Machine.execSlt t s
  | .sltu t => Sys2Proof.Machine.execSltu t s
  | .min t => Sys2Proof.Machine.execMin t s
  | .max t => Sys2Proof.Machine.execMax t s
  | .minu t => Sys2Proof.Machine.execMinu t s
  | .maxu t => Sys2Proof.Machine.execMaxu t s
  | .mul t => Sys2Proof.Machine.execMul t s
  | .mulhu t => Sys2Proof.Machine.execMulhu t s
  | .mulh t => Sys2Proof.Machine.execMulh t s
  | .div t => Sys2Proof.Machine.execDiv t s
  | .divu t => Sys2Proof.Machine.execDivu t s
  | .rem t => Sys2Proof.Machine.execRem t s
  | .remu t => Sys2Proof.Machine.execRemu t s
  | .clz t => Sys2Proof.Machine.execClz t s
  | .popc t => Sys2Proof.Machine.execPopc t s
  | .addi t => Sys2Proof.Machine.execAddi t s
  | .andi t => Sys2Proof.Machine.execAndi t s
  | .ori t => Sys2Proof.Machine.execOri t s
  | .xori t => Sys2Proof.Machine.execXori t s
  | .slti t => Sys2Proof.Machine.execSlti t s
  | .sltiu t => Sys2Proof.Machine.execSltiu t s
  | .shifti t => Sys2Proof.Machine.execShifti t s
  | .lui t => Sys2Proof.Machine.execLui t s
  | .fadd t => Sys2Proof.Machine.execFadd t s
  | .fsub t => Sys2Proof.Machine.execFsub t s
  | .fmul t => Sys2Proof.Machine.execFmul t s
  | .fdiv t => Sys2Proof.Machine.execFdiv t s
  | .fsqrt t => Sys2Proof.Machine.execFsqrt t s
  | .fmin t => Sys2Proof.Machine.execFmin t s
  | .fmax t => Sys2Proof.Machine.execFmax t s
  | .feq t => Sys2Proof.Machine.execFeq t s
  | .flt t => Sys2Proof.Machine.execFlt t s
  | .fle t => Sys2Proof.Machine.execFle t s
  | .fcvtSL t => Sys2Proof.Machine.execFcvtSL t s
  | .fcvtLS t => Sys2Proof.Machine.execFcvtLS t s
  | .ld t => Sys2Proof.Machine.execLd t s
  | .st t => Sys2Proof.Machine.execSt t s
  | .vld t => Sys2Proof.Machine.execVld t s
  | .vst t => Sys2Proof.Machine.execVst t s
  | .atom t => Sys2Proof.Machine.execAtom t s
  | .wnarrow t => Sys2Proof.Machine.execWnarrow t s
  | .winfo t => Sys2Proof.Machine.execWinfo t s
  | .vadd t => Sys2Proof.Machine.execVadd t s
  | .vsub t => Sys2Proof.Machine.execVsub t s
  | .vmul t => Sys2Proof.Machine.execVmul t s
  | .vfma t => Sys2Proof.Machine.execVfma t s
  | .vdiv t => Sys2Proof.Machine.execVdiv t s
  | .vsqrt t => Sys2Proof.Machine.execVsqrt t s
  | .vmax t => Sys2Proof.Machine.execVmax t s
  | .vmin t => Sys2Proof.Machine.execVmin t s
  | .vabs t => Sys2Proof.Machine.execVabs t s
  | .vneg t => Sys2Proof.Machine.execVneg t s
  | .vand t => Sys2Proof.Machine.execVand t s
  | .vor t => Sys2Proof.Machine.execVor t s
  | .vxor t => Sys2Proof.Machine.execVxor t s
  | .vshl t => Sys2Proof.Machine.execVshl t s
  | .vshr t => Sys2Proof.Machine.execVshr t s
  | .vsra t => Sys2Proof.Machine.execVsra t s
  | .vadds t => Sys2Proof.Machine.execVadds t s
  | .vsubs t => Sys2Proof.Machine.execVsubs t s
  | .vmov t => Sys2Proof.Machine.execVmov t s
  | .vsel t => Sys2Proof.Machine.execVsel t s
  | .vcmp t => Sys2Proof.Machine.execVcmp t s
  | .vsplat t => Sys2Proof.Machine.execVsplat t s
  | .vext t => Sys2Proof.Machine.execVext t s
  | .vins t => Sys2Proof.Machine.execVins t s
  | .vredsum t => Sys2Proof.Machine.execVredsum t s
  | .vredmax t => Sys2Proof.Machine.execVredmax t s
  | .vredmin t => Sys2Proof.Machine.execVredmin t s
  | .pand t => Sys2Proof.Machine.execPand t s
  | .por t => Sys2Proof.Machine.execPor t s
  | .pxor t => Sys2Proof.Machine.execPxor t s
  | .pandn t => Sys2Proof.Machine.execPandn t s
  | .pnot t => Sys2Proof.Machine.execPnot t s
  | .pset t => Sys2Proof.Machine.execPset t s
  | .pget t => Sys2Proof.Machine.execPget t s
  | .planes t => Sys2Proof.Machine.execPlanes t s
  | .vcvt t => Sys2Proof.Machine.execVcvt t s
  | .mxq t => Sys2Proof.Machine.execMxq t s
  | .mxd t => Sys2Proof.Machine.execMxd t s
  | .accL320 t => Sys2Proof.Machine.execAccL320 t s
  | .accL96 t => Sys2Proof.Machine.execAccL96 t s
  | .accF32 t => Sys2Proof.Machine.execAccF32 t s
  | .accI32 t => Sys2Proof.Machine.execAccI32 t s
  | .lfinL320 t => Sys2Proof.Machine.execLfinL320 t s
  | .lfinL96 t => Sys2Proof.Machine.execLfinL96 t s
  | .scopy t => Sys2Proof.Machine.execScopy t s
  | .msend t => Sys2Proof.Machine.execMsend t s
  | .mrecv t => Sys2Proof.Machine.execMrecv t s
  | .psend t => Sys2Proof.Machine.execPsend t s
  | .waitMsg t => Sys2Proof.Machine.execWaitMsg t s
  | .waitTick t => Sys2Proof.Machine.execWaitTick t s
  | .nop t => Sys2Proof.Machine.execNop t s
  | .exit t => Sys2Proof.Machine.execExit t s
  | .fence t => Sys2Proof.Machine.execFence t s
  | .setidx t => Sys2Proof.Machine.execSetidx t s
  | .rdsys t => Sys2Proof.Machine.execRdsys t s
  | .beq t => Sys2Proof.Machine.execBeq t s
  | .bne t => Sys2Proof.Machine.execBne t s
  | .blt t => Sys2Proof.Machine.execBlt t s
  | .bge t => Sys2Proof.Machine.execBge t s
  | .bltu t => Sys2Proof.Machine.execBltu t s
  | .bgeu t => Sys2Proof.Machine.execBgeu t s
  | .jal t => Sys2Proof.Machine.execJal t s
  | .jr t => Sys2Proof.Machine.execJr t s
  | .echoReqServe node => Sys2Proof.Machine.execEchoReqServe node s
  | .snapWriteReceive node => Sys2Proof.Machine.execSnapWriteReceive node s
  | .snapReadReceive node => Sys2Proof.Machine.execSnapReadReceive node s
  | .snapshotSealDone handle => Sys2Proof.Machine.execSnapshotSealDone handle s
  | .snapshotBuddyDeadline handle => Sys2Proof.Machine.execSnapshotBuddyDeadline handle s
  | .snapshotVerifyDone handle => Sys2Proof.Machine.execSnapshotVerifyDone handle s
  | .hbmWipeDone stack => Sys2Proof.Machine.execHbmWipeDone stack s
  | .hbmSpareCopyDone stack => Sys2Proof.Machine.execHbmSpareCopyDone stack s
  | .trainingFrameReceive port ch frame => Sys2Proof.Machine.execTrainingFrameReceive port ch frame s
  | .adaptStep port ch fom => Sys2Proof.Machine.execAdaptStep port ch fom s
  | .readyCountdownEnd port => Sys2Proof.Machine.execReadyCountdownEnd port s
  | .trainTimeout port => Sys2Proof.Machine.execTrainTimeout port s
  | .retryExpiry port => Sys2Proof.Machine.execRetryExpiry port s
  | .lossOfSignal port ch => Sys2Proof.Machine.execLossOfSignal port ch s
  | .allChannelsLost port => Sys2Proof.Machine.execAllChannelsLost port s
  | .retrainLimitExpiry port => Sys2Proof.Machine.execRetrainLimitExpiry port s
  | .laneFomLow port ch => Sys2Proof.Machine.execLaneFomLow port ch s
  | .txSleep port => Sys2Proof.Machine.execTxSleep port s
  | .txWake port => Sys2Proof.Machine.execTxWake port s
  | .rxWake port => Sys2Proof.Machine.execRxWake port s
  | .laserInputLive laser => Sys2Proof.Machine.execLaserInputLive laser s
  | .laserNotReady laser => Sys2Proof.Machine.execLaserNotReady laser s
  | .laserInputLost laser => Sys2Proof.Machine.execLaserInputLost laser s
  | .gleanReceive port pkt => Sys2Proof.Machine.execGleanReceive port pkt s
  | .gleanNoEcho port => Sys2Proof.Machine.execGleanNoEcho port s
  | .neighbourMissing port => Sys2Proof.Machine.execNeighbourMissing port s
  | .gleanSilence port => Sys2Proof.Machine.execGleanSilence port s
  | .rejoinHoldEnd port => Sys2Proof.Machine.execRejoinHoldEnd port s
  | .collectorRewrite ok => Sys2Proof.Machine.execCollectorRewrite ok s
  | .safeStateExit => Sys2Proof.Machine.execSafeStateExit s
  | .quietPeriodExpiry => Sys2Proof.Machine.execQuietPeriodExpiry s
  | .errNPulseEnd => Sys2Proof.Machine.execErrNPulseEnd s
  | .mpLost => Sys2Proof.Machine.execMpLost s
  | .mpTakeover => Sys2Proof.Machine.execMpTakeover s
  | .builtinTestDone unit step => Sys2Proof.Machine.execBuiltinTestDone unit step s
  | .complexResetApply cx => Sys2Proof.Machine.execComplexResetApply cx s
  | .rollbackEnd job => Sys2Proof.Machine.execRollbackEnd job s
  | .powerLimiterStep half => Sys2Proof.Machine.execPowerLimiterStep half s
  | .autoClockLower half => Sys2Proof.Machine.execAutoClockLower half s
  | .autoClockRaise half => Sys2Proof.Machine.execAutoClockRaise half s
  | .lehrWakeTick => Sys2Proof.Machine.execLehrWakeTick s
  | .lehrWakeSignal port => Sys2Proof.Machine.execLehrWakeSignal port s
  | .lehrForwardingResume => Sys2Proof.Machine.execLehrForwardingResume s
  | .bypass => Sys2Proof.Machine.execBypass s
  | .idcode => Sys2Proof.Machine.execIdcode s
  | .samplePreload pins => Sys2Proof.Machine.execSamplePreload pins s
  | .extest pins => Sys2Proof.Machine.execExtest pins s
  | .clamp => Sys2Proof.Machine.execClamp s
  | .highz => Sys2Proof.Machine.execHighz s
  | .commandComplete ch => Sys2Proof.Machine.execCommandComplete ch s
  | .configSpaceWrite off v => Sys2Proof.Machine.execConfigSpaceWrite off v s
  | .strikeCountReset unit => Sys2Proof.Machine.execStrikeCountReset unit s
  | .supplyInRange rail => Sys2Proof.Machine.execSupplyInRange rail s
  | .hbmThermalRelease stack => Sys2Proof.Machine.execHbmThermalRelease stack s
  | .lehrEntered => Sys2Proof.Machine.execLehrEntered s
  | .resetPartialDone unit => Sys2Proof.Machine.execResetPartialDone unit s
  | .illegalInstruction t => Sys2Proof.Machine.execIllegalInstruction t s
  | .codeBounds t => Sys2Proof.Machine.execCodeBounds t s

end Sys2Proof.Machine
end

