-- ==== Sys2Proof/Machine/Views.lean ====
section
/-!
DEFINITION. What the outside sees of the state without changing it: reads of BAR0 and of the configuration space, the transmission units of a message, the frames, flits and
control words that the part sends, the values that cross between its clocks, and the balls and fibres of the package. No row of the command table reads these: a reader of
the state does.
-/

namespace Sys2Proof.Machine
open Sys2Proof

/-! ### Reads of BAR0 (R9, R43, R45) -/

/-- The global registers (Table 2.3). -/
def Hw.globalWord (h : Hw) (off : Nat) : Word :=
  let c := h.ctl
  match off with
  | 0x00 => 0x70201F3C
  | 0x04 => Config.silicon &&& 0xFFFF
  | 0x08 => w32 (c.phase.code + c.activeMp % 2 * 2 ^ 4 + b2n c.standbyReady * 2 ^ 5 + c.runningSlot % 4 * 2 ^ 6)
  | 0x0C => w32 h.time.tick
  | 0x10 => c.tickHi
  | 0x14 => c.scratch
  | _ => 0

/-- The control registers of channel `i` (Table 2.4). -/
def Hw.chanWord (h : Hw) (i off : Nat) : Word :=
  let x := h.chan i
  match off with
  | 0x04 => w32 (b2n x.busy + b2n x.ready * 2 + b2n x.dbIgnored * 2 ^ 2 + b2n x.wrIgnored * 2 ^ 3 + b2n (12 ≤ i) * 2 ^ 4 + b2n x.enabled * 2 ^ 5 + x.lastSeqTag * 2 ^ 16)
  | 0x08 => w32 (b2n (i < 12 ∧ x.irqEn))
  | _ => 0

/-- The buffers of a channel, the response 0x1000 above the request (R43). -/
def Hw.bufferWord (h : Hw) (i off : Nat) : Word :=
  if off < 0x1000 then tget 0 (h.chan i).req (off / 4) else (h.chan i).resp.getD ((off - 0x1000) / 4) 0

/-- The event ring's registers (Table 2.5). -/
def EventRing.word (r : EventRing) (off : Nat) : Word :=
  match off with
  | 0x00 => r.baseLo
  | 0x04 => r.baseHi
  | 0x08 => w32 r.log2
  | 0x0C => w32 (b2n r.armed + b2n r.irqEn * 2 + b2n r.wrIgnored * 2 ^ 8 + b2n r.refused * 2 ^ 9 + b2n r.overflow * 2 ^ 10 + b2n r.consInvalid * 2 ^ 11)
  | 0x10 => r.producer
  | 0x14 => r.consumer
  | 0x18 => r.dropped
  | _ => 0

/-- The reset and life-cycle registers (Table 2.7). -/
def Hw.resetWord (fz : Fuses) (h : Hw) (off : Nat) : Word :=
  match off with
  | 0x00 => w32 h.ctl.lastReset
  | 0x04 => w32 h.ctl.resetKind
  | 0x08 => w32 (b2n h.ctl.armIgnored * 2)
  | 0x0C => w32 (fz.lc.code + b2n h.ctl.wipeActive * 2 ^ 8)
  | _ => 0

/-- The state of the collector as a number (Table 16.8). -/
def CState.code (c : CState) : Nat := match c with | .normal => 0 | .fault => 1 | .safe => 2

/-- The global registers of the fault mirror (Table 16.8). -/
def Hw.mirrorWord (h : Hw) (off : Nat) : Word :=
  let f := h.faults
  match off with
  | 0x00 => w32 (f.state.code + b2n f.errnLow * 2 ^ 2 + b2n f.rewriteDone * 2 ^ 3 + b2n (f.missing = []) * 2 ^ 4)
  | 0x04 => w32 f.recoveries
  | 0x08 | 0x0C | 0x10 | 0x14 => w32 (nth f.classCount ((off - 8) / 4))
  | 0x18 => w32 (f.lastSource + f.lastClass * 2 ^ 12 + f.lastUnit * 2 ^ 16)
  | 0x1C => w32 f.lastTick
  | 0x20 => w32 (f.safeCause + (f.missing.map (fun b => 2 ^ b)).sum)
  | 0x24 => w32 (f.quietMs + f.pulseUs * 2 ^ 16 + f.errnHold * 2 ^ 26)
  | 0x28 => w32 h.quietElapsed
  | 0x2C => w32 f.logTotal
  | 0x30 => w32 f.sweepTick
  | _ => 0

/-- The log ring of the fault mirror: entry n at 32·(n mod 256), the newest entry being LOG_PRODUCER − 1 (Table 16.7). -/
def Faults.ringWord (f : Faults) (off : Nat) : Word :=
  match f.log[(f.logTotal + 255 - off / 32) % 256]? with
  | some e => e.words.getD (off % 32 / 4) 0
  | none => 0

/-- The two words of a source (Table 16.9). -/
def Faults.sourceWord (f : Faults) (s off : Nat) : Word :=
  let x := f.src s
  if off = 0 then w32 x.count
  else w32 (x.mWorst + b2n (sourceTop s).isSome * 2 ^ 2 + b2n x.force.isSome * 2 ^ 3 + b2n (f.errnC1 s) * 2 ^ 4 + b2n x.eventC0 * 2 ^ 5 + x.mLast * 2 ^ 16)

/-- The fault mirror (R478, Table 16.7). -/
def Hw.mirrorRead (h : Hw) (off : Nat) : Word :=
  if off < 0x100 then h.mirrorWord off
  else if off < 0x168 then (h.budget ((off - 0x100) / 8)).getD (off % 8 / 4) 0
  else if 0x1000 ≤ off ∧ off < 0x3000 then h.faults.ringWord (off - 0x1000)
  else if 0x8000 ≤ off then h.faults.sourceWord ((off - 0x8000) / 8) (off % 8)
  else 0

/-- The MSI-X table, and the pending bits in the upper half of its region. (PRESUMED, log 17, unsafe.) -/
def Ctl.msixWord (c : Ctl) (off : Nat) : Word :=
  if off < 4 * 56 then tget (if off / 4 % 4 = 3 then 1 else 0) c.msixTable (off / 4)
  else if off = 0x2000 then w32 (c.msixPend.map (fun v => 2 ^ v)).sum
  else 0

/-- What a read of BAR0 returns (R9, R43): the register, zero outside every region, all ones for any access but an aligned one of four bytes. No row of the command table is
such a read: this is a function of the state. (DESIGN CHOICE, log 136, safe.) -/
def Hw.bar0Read (fz : Fuses) (h : Hw) (off size : Nat) : Word :=
  if size ≠ 4 ∨ off % 4 ≠ 0 then BitVec.allOnes 32
  else if off < 0x100 then h.globalWord off
  else if 0x1000 ≤ off ∧ off < 0x1400 then h.chanWord ((off - 0x1000) / 0x40) (off % 0x40)
  else if 0x10000 ≤ off ∧ off < 0x30000 then h.bufferWord ((off - 0x10000) / 0x2000) (off % 0x2000)
  else if 0x30000 ≤ off ∧ off < 0x30100 then h.ctl.ring.word (off - 0x30000)
  else if 0x31000 ≤ off ∧ off < 0x31100 then h.resetWord fz (off - 0x31000)
  else if 0x40000 ≤ off ∧ off < 0x50000 then h.mirrorRead (off - 0x40000)
  else if 0x50000 ≤ off ∧ off < 0x54000 then h.ctl.msixWord (off - 0x50000)
  else 0

/-! ### Reads of the configuration space (R41) -/

/-- What a read of the configuration space returns: the identity of Table 2.1, the two base addresses with their kinds, and the capabilities, power management at 0x40, PCIe at 0x70 and
MSI-X at 0xB0, then Advanced Error Reporting at 0x100. The subsystem is what the flash directory names, or the device's own where it names none. (PRESUMED, log 17, unsafe.) -/
def Hw.configRead (h : Hw) (off : Nat) : Word :=
  let c := h.ctl
  match off with
  | 0x00 => 0x70201F3C
  | 0x04 => w32 (2 ^ 20 + b2n c.memEn * 2 + b2n c.masterEn * 4)
  | 0x08 => 0x02800000
  | 0x10 => w32 (c.bar0 % 2 ^ 32 + 0x4)
  | 0x14 => w32 (c.bar0 / 2 ^ 32)
  | 0x18 => w32 (c.bar2 % 2 ^ 32 + 0xC)
  | 0x1C => w32 (c.bar2 / 2 ^ 32)
  | 0x2C => if Config.subsystem = 0 then 0x70201F3C else Config.subsystem
  | 0x34 => 0x40
  | 0x40 => 0x00037001
  | 0x44 => if c.inD3 then 3 else 0
  | 0x70 => 0x0002B010
  | 0x74 => 2
  | 0x78 => w32 (c.maxPayload * 2 ^ 5)
  | 0x7C => 0x00000045
  | 0xB0 => w32 (0x11 + 13 * 2 ^ 16 + b2n c.msixEn * 2 ^ 31)
  | 0xB4 => 0x00050000
  | 0xB8 => 0x00052000
  | 0x100 => 0x00010001
  | _ => 0

/-! ### MCTP transmission units (R48) -/

/-- The longest unit of a binding: 64 bytes over I3C, up to 256 over PCIe VDM. -/
def mctpUnit (binding asked : Nat) : Nat := if binding = 0 then 64 else max 64 (min asked 256)

/-- The units a message leaves in, in order, over a binding whose reader asks for units of `asked` bytes. -/
def mctpUnits (binding asked : Nat) (body : List Byte) : List (List Byte) :=
  let n := mctpUnit binding asked
  (List.range (cdiv body.length n)).map (fun i => (body.drop (n * i)).take n)

/-! ### Training frames (R8, R408) -/

/-- FRAME_KIND of a frame sent on a channel: TRAIN on a SPARE channel and until both ends are ready, then READY; WAKE from a transmitter that wakes. -/
def Lanes.frameKind (l : Lanes) (ch : Nat) : Nat :=
  if l.txMap.getD ch 7 = 6 ∨ ¬ l.allReady ∨ ¬ l.partnerAll then 1 else if l.txAsleep then 3 else 2

/-- TX_TAP and TX_STEP: the partner's knob that the adaptation of a channel is trying (R410), or the preset before its first step. -/
def Lanes.txRequest (l : Lanes) (ch : Nat) : Nat × Nat :=
  let c := l.chan ch
  if c.ready ∨ (l.state ≠ 1 ∧ l.state ≠ 3) then (0, 0)
  else if c.knob = 0 then (3, l.cfg.preset)
  else if c.knob = 19 ∨ c.knob = 20 then (1, c.knob - 18)
  else if c.knob = 21 ∨ c.knob = 22 then (2, c.knob - 20)
  else (0, 0)

/-- The control field of the frame that a port sends on a channel (Table 14.3), `countdown` frames before the last; `ack` is TX_ACK, which the spec leaves to how the transmitter
took the partner's last request. -/
def Lanes.frameWords (l : Lanes) (ch countdown ack : Nat) : List Word :=
  let c := l.chan ch
  let k := l.frameKind ch
  let (tap, step) := l.txRequest ch
  let w0 := w32 (1 * 2 ^ 28 + k * 2 ^ 24 + ch * 2 ^ 21 + b2n l.cfg.v16 * 2 ^ 20 + b2n c.ready * 2 ^ 19 + b2n l.allReady * 2 ^ 18 + c.fom * 2 ^ 8 + tap * 2 ^ 6
    + step * 2 ^ 2 + ack % 4)
  let w1 := w32 (mapWord (if l.electrical then l.rxMap.set 4 7 else l.rxMap) + (if k = 1 then 0 else countdown % 16 * 2 ^ 8))
  let w2 := w32 l.nonce
  [w0, w1, w2, w32 (crc16 (([w0, w1, w2].flatMap beBytes) ++ [0, 0]))]

/-- The control field as sent, most significant byte first (R8). -/
def Lanes.frameBytes (l : Lanes) (ch countdown ack : Nat) : List Byte := (l.frameWords ch countdown ack).flatMap beBytes

/-- The two symbols of each bit of the control field: a one is level 3 then level 0, a zero level 0 then level 3. -/
def bitSymbols (b : Bool) : List Nat := if b then [3, 0] else [0, 3]

/-- The symbols that open a frame: sixteen at level 3, sixteen at level 0, then the control field, bit 127 first. 7,904 symbols of the channel's PRBS31Q generator follow. -/
def Lanes.frameOpening (l : Lanes) (ch countdown ack : Nat) : List Nat :=
  List.replicate 16 3 ++ List.replicate 16 0
  ++ (l.frameBytes ch countdown ack).flatMap (fun b => (List.range 8).flatMap (fun i => bitSymbols (b.getLsbD (7 - i))))

/-! ### Mesh flits and control words (R154, R158) -/

/-- Bytes at an offset of a field of `n` bytes, the rest zero. -/
def padTo (n : Nat) (l : List Byte) : List Byte := (l ++ List.replicate n 0).take n

/-- The payload bytes of a part. -/
def MeshPkt.partPayload (m : MeshPkt) : List Byte := if m.part = 1 then m.pkt.payload.drop 4096 else m.pkt.payload.take 4096

/-- The 512 bytes of data of flit `i` (R158): a SHORT flit holds the packet header and then the payload; a LONG one 512 bytes of payload; a RELAY_CREDIT zeros. -/
def MeshPkt.flitData (m : MeshPkt) (i : Nat) : List Byte :=
  if m.kind = 5 then List.replicate 512 0
  else if m.flits = 1 then padTo 512 (m.pkt.hdrBytes ++ m.partPayload)
  else padTo 512 (m.partPayload.drop (512 * i))

/-- The 64 bytes of sideband of flit `i` (R158): the mesh header, and in a LONG part the packet header beside flit 1. -/
def MeshPkt.flitSideband (m : MeshPkt) (i : Nat) : List Byte :=
  if i = 0 then m.words.flatMap beBytes else if i = 1 then padTo 64 m.pkt.hdrBytes else List.replicate 64 0

/-- The parity bits of a flit's data and sideband, one on each 64-bit word (R154). -/
def wordParities : List Byte → List Bool
  | a :: b :: c :: d :: e :: f :: g :: k :: t => oddOnes 64 (beNat [a, b, c, d, e, f, g, k]) :: wordParities t
  | _ => []

/-- A link control word (Table 6.1) with its even parity: the flit if one is present, the credits returned if any, NAK_FSEQ if a resend is asked for. -/
def controlWord (flit : Option Flit) (credit : Option (Nat × Nat)) (nak : Option Nat) : Nat :=
  let f := match flit with
    | some f => 2 ^ 27 + f.vc * 2 ^ 24 + b2n (f.idx = 0) * 2 ^ 23 + b2n (f.idx + 1 = f.mp.flits) * 2 ^ 22 + f.fseq * 2 ^ 17
    | none => 0
  let w := f + (match credit with | some c => 2 ^ 16 + c.1 * 2 ^ 13 + c.2 * 2 ^ 9 | none => 0) + (match nak with | some n => 2 ^ 8 + n * 2 ^ 3 | none => 0)
  w + b2n (oddOnes 28 w)

/-- Whether a received control word passes its check: even parity, and no credit return of zero flits, which counts as a parity failure (Table 6.1). -/
def controlOk (w : Nat) : Bool := ! oddOnes 28 w && ! (bit w 16 && decide (bits w 12 9 = 0))

/-- Whether a flit passes the receiver's check (R154, R156): its control word and the parity of every word of its data and sideband. -/
def flitOk (control : Nat) (data sideband : List Byte) (dataParity sideParity : List Bool) : Bool :=
  controlOk control && wordParities data = dataParity && wordParities sideband = sideParity

/-! ### Values that cross between clocks (R183) -/

/-- HOLD: the smallest whole number of the sender's cycles that spans three of the receiver's, the two clocks in units of one another. -/
def crossingHold (sender receiver : Nat) : Nat := cdiv (3 * sender) receiver

/-- What the receiver holds after a sample: a value is accepted when it agrees with the sample before and its parity is right. -/
def crossingAccept (kept : Nat) (before sample : Nat × Bool) : Nat := if before = sample ∧ sample.2 then sample.1 else kept

/-- A value that agrees twice and fails parity raises CROSSING_PARITY and is published again; the third republication that fails fences the receiver. -/
def crossingFails (before sample : Nat × Bool) : Bool := decide (before = sample) && ! sample.2

/-! ### HBM addresses (R378) -/

/-- The active channel that serves a byte address of a stack. -/
def hbmChannel (a : Nat) : Nat := a / 256 % 32

/-- The memory node, 0 to 3, of a channel; the spare is served by the node of the channel it replaces. -/
def hbmNode (replaced channel : Nat) : Nat := (if channel = 32 then replaced else channel) / 8

/-- Whether a byte of a stack lies in the firmware area, its top gibibyte of 96. -/
def firmwareArea (a : Nat) : Bool := 95 * 2 ^ 30 ≤ a ∧ a < 96 * 2 ^ 30

/-! ### Balls and fibres (R525 to R528, R544) -/

/-- Whether the part drives an open-drain ball low (R529, R530): none while SYS_RST_N is low, until the boot ROM is done after a cold reset,
or under HIGHZ. -/
def Hw.pullsLow (h : Hw) (low : Bool) : Bool := ! h.pins.resetLow && (decide (h.ctl.phase ≠ .rom) || h.power.warmSince.isSome) && ! h.pins.floating && low

/-- ERR_N is pulled low (R463, R464). -/
def Hw.errnBallLow (h : Hw) : Bool := h.pullsLow h.faults.errnLow

/-- THERMTRIP_N is pulled low: from a trip until SYS_RST_N falls (R515, R540). -/
def Hw.thermtripBallLow (h : Hw) : Bool := h.pullsLow h.pins.tripLow

/-- LSRC_EN_N of a module is pulled low (R420); under EXTEST it stays released (R532). -/
def Hw.lsrcBallLow (h : Hw) (m : Nat) : Bool := h.pullsLow (h.lasers.enabled.contains m) && h.pins.driven.isNone

/-- The letters of row names. -/
def rowLetters : List Char := ['A', 'B', 'C', 'D', 'E', 'F', 'G', 'H', 'J', 'K', 'L', 'M', 'N', 'P', 'T', 'U', 'V', 'W', 'Y']

/-- The name of row `n`, 1 to 94 (R525). -/
def rowName (n : Nat) : List Char :=
  if n ≤ 19 then [rowLetters.getD (n - 1) 'A'] else [rowLetters.getD ((n - 20) / 19) 'A', rowLetters.getD ((n - 20) % 19) 'A']

/-- The region of Table 19.1, by its order, that owns the ball of row `n` and column `c`. -/
def ballRegion (n c : Nat) : Nat :=
  let inside (c0 c1 n0 n1 : Nat) : Bool := c0 ≤ c ∧ c ≤ c1 ∧ n0 ≤ n ∧ n ≤ n1
  if inside 1 12 1 25 then 1
  else if inside 1 12 26 60 then 2
  else if inside 1 12 61 80 then 3
  else if inside 1 12 81 88 then 4
  else if inside 1 12 89 94 then 5
  else if inside 83 94 10 73 then 6
  else if inside 83 94 1 9 || inside 83 94 74 85 then 7
  else if inside 83 94 86 94 then 8
  else if inside 13 82 1 8 || inside 13 82 87 94 then 9
  else if inside 13 82 9 12 || inside 13 82 83 86 then 10
  else if inside 30 46 13 16 then 11
  else if inside 30 46 17 18 then 12
  else if inside 30 46 19 20 then 13
  else if inside 47 63 79 82 then 14
  else if inside 47 63 77 78 then 15
  else if inside 47 63 75 76 then 16
  else 17

/-- Whether a ball of a power region carries its rail; it is VSS otherwise (R526). -/
def ballIsRail (n c : Nat) : Bool := ! [1, 2, 6].contains (ballRegion n c) && (n + c) % 2 = 1

/-- The balls of electrical lane `i` as row and column: TX_P, TX_N, RX_P, RX_N (R527). -/
def eioBalls (i : Nat) : List (Nat × Nat) := [86, 87, 90, 91].map (fun c => (10 + 2 * i, c))

/-- The balls of PCIe lane `j` (R528). -/
def pcieBalls (j : Nat) : List (Nat × Nat) := [3, 4, 7, 8].map (fun c => (40 + 2 * j, c))

/-- The ferrule positions of an optical port's transmit and receive fibres (R544). -/
def portFibres (p : Nat) : Nat × Nat := (2 * (p % 32), 2 * (p % 32) + 1)

end Sys2Proof.Machine
end

