-- ==== Sys2Proof/Safety.lean ====
section
/-!
DEFINITION. The terms the claims use: when a combine instruction runs to its end, what its end leaves, and when a window grants an access.
-/

namespace Sys2Proof.Machine
open Sys2Proof

/-! ### A combine instruction that runs to its end -/

/-- Thread t runs, its PC lies inside its code, and the word there encodes the instruction of a MAJOR and a FUNC (R351); c is what it works on. -/
def Hw.Runs (h : Hw) (t maj func : Nat) (c : Ctx) : Prop := h.ctx t = some (c, true) ∧ opKey c.w = some (2048 * maj + func)

/-- Busy cycles more keep the invocation inside the limit past which CYCLE_LIMIT traps (R374). -/
def Ctx.Affords (c : Ctx) (busy : Nat) : Prop :=
  (c.th.busy + busy) * (if c.a.image.gang then 8 else 1) ≤ 4 * c.declared + 1024 * (if c.a.image.gang then 8 else 1)

/-- The thread with its PC on the next word. -/
def Ctx.after (c : Ctx) : Thread := { c.th with pc := (c.th.pc + 1) % 2 ^ 16 }

/-- What the end of an instruction leaves: the thread as the instruction leaves it with its busy cycles added, its counts with its chunk or generation,
its cycles charged to the group. -/
def Hw.retire (h : Hw) (c : Ctx) (th : Thread) (ctr : Counters) (busy : Nat) : Hw :=
  (((h.putThread c.t { th with busy := (c.th.busy + busy) % 2 ^ 32 }).addCounts c ctr).spendCycles c.v.cx c.a.grp busy).drawnStale th

/-- A scalar register as a bit vector; s0 reads zero. -/
def Thread.reg (th : Thread) (r : Nat) : Dword := if r = 0 then 0 else th.s.getD r 0

/-- The thread with a scalar register written; a write to s0 is discarded. -/
def Thread.write (th : Thread) (r : Nat) (v : Dword) : Thread := if r = 0 then th else { th with s := th.s.set r v }

/-- Window r grants an access: its rights, its bounds and the alignment (R327, R353). -/
def Thread.Grants (th : Thread) (r : Nat) (rd wr : Bool) (off len align : Nat) : Prop :=
  (th.win r).kind ≠ 0 ∧ (rd = true → (th.win r).rd = true) ∧ (wr = true → (th.win r).wr = true) ∧ off + len ≤ (th.win r).len ∧ off % align = 0

/-! ### Requests -/

/-- Channel c has request r in execution, it waits for the row of opcode op, and an active management processor serves it (R44, R51, R472). -/
def Hw.Asks (h : Hw) (c op : Nat) (r : Request) : Prop :=
  h.faults.mpLost = false ∧ (h.chan c).cur = some r ∧ r.waiting = true ∧ r.latched = false ∧ r.opcode = op

/-- The part with the response of channel c's request r made (Table 2.8): it waits for COMMAND_COMPLETE. -/
def Hw.answered (h : Hw) (c : Nat) (r : Request) (status detail : Nat) (payload : List Word) : Hw :=
  h.modChan c (fun x => { x with cur := some { r with waiting := false }, reply := some (response r status detail payload) })

/-- A request staged: its opcode, its payload and the bytes of the bulk window that it names, copied when it is staged (R52, R57). -/
def Hw.stagedOf (h : Hw) (c : Nat) (r : Request) : Staged :=
  { opcode := r.opcode, words := r.payload, stamp := h.ctl.commits,
    bulk := memReadList 0 h.ctl.bulk (bulkRange r.opcode c r.payload).1 (bulkRange r.opcode c r.payload).2.1 }

/-- The fuses hold what they can hold: an anti-rollback field of 64 bits and a revoke bit for each of the four image keys (R62, R69). -/
def State.FusesLegal (s : State) : Prop := s.fuses.antiRoll ≤ 64 ∧ s.fuses.revoked.length = 4

/-- An event of a code is the last one raised by what made h' of h, where events are raised, from FW_PHASE RUNNING onward (R46). -/
def Hw.Tells (h h' : Hw) (code : Nat) : Prop := h.eventsOn = true → h'.ctl.raised.getLast?.map (·.code) = some code

/-- The state with the part changed. -/
def State.withHw (s : State) (h : Hw) : State := { s with hw := h }

end Sys2Proof.Machine
end

