-- ==== Sys2Proof/WellFormed.lean ====
section
/-!
DEFINITION. When a command is well-formed: every unit it names is one the W20 has (Table 0.1 and the counts of the chapters): 264 ports, 144 complexes and tillers, 128 routers,
16 DCI channels, 8 memory nodes, 20 dies, 16 laser modules, 11 rails, 8,192 groups, 20,736 threads, 64 handles, 4,096 jobs.
-/

namespace Sys2Proof

/-- Whether the operands of a command name units that exist. MESH_INJECT counts the eight memory nodes as 144 to 151. -/
def Instr.wf (i : Instr) : Bool :=
  match i with
  | .doorbellRing ch _ => decide (ch < 16)
  | .requestBufferWrite ch _ _ => decide (ch < 16)
  | .registerWrite _ _ _ => true
  | .tickCountRead => true
  | .eventRingArm _ => true
  | .eventRingDisarm _ => true
  | .eventRingConsumerWrite _ => true
  | .eventEntryWrite => true
  | .resetArmWarm => true
  | .resetArmMpSwitch => true
  | .bulkWindowWrite _ _ => true
  | .perstNAssert => true
  | .perstNRelease => true
  | .mctpMessageReceive _ _ _ => true
  | .setEndpointId _ _ _ _ => true
  | .getEndpointId _ _ => true
  | .getMctpVersionSupport _ _ _ => true
  | .getMessageTypeSupport _ _ => true
  | .getVendorDefinedMessageSupport _ _ _ => true
  | .i3cEntdaa _ => true
  | .getVersion ch => decide (ch < 16)
  | .commit ch => decide (ch < 16)
  | .discardStaged ch => decide (ch < 16)
  | .eventSubscribe ch => decide (ch < 16)
  | .fwFlashWrite ch => decide (ch < 16)
  | .fwBootSlotSet ch => decide (ch < 16)
  | .fwHitlessActivate ch => decide (ch < 16)
  | .fwStatusGet ch => decide (ch < 16)
  | .lcNonceGet ch => decide (ch < 16)
  | .lcTransition ch => decide (ch < 16)
  | .antiRollbackAdvance ch => decide (ch < 16)
  | .tickConfigSet ch => decide (ch < 16)
  | .tickStatusGet ch => decide (ch < 16)
  | .tickSourceSelect ch => decide (ch < 16)
  | .ledgerRead ch => decide (ch < 16)
  | .portConfigSet ch => decide (ch < 16)
  | .fwdTableLoad ch => decide (ch < 16)
  | .nexthopSetLoad ch => decide (ch < 16)
  | .queueConfigSet ch => decide (ch < 16)
  | .bufferLimitsSet ch => decide (ch < 16)
  | .slicePartitionSet ch => decide (ch < 16)
  | .sheafLoad ch => decide (ch < 16)
  | .portCountersRead ch => decide (ch < 16)
  | .culletListRead ch => decide (ch < 16)
  | .meshRouteLoad ch => decide (ch < 16)
  | .epochFlip ch => decide (ch < 16)
  | .epochStatusGet ch => decide (ch < 16)
  | .routerFence ch => decide (ch < 16)
  | .meshCountersRead ch => decide (ch < 16)
  | .schedulerSet ch => decide (ch < 16)
  | .shaperSet ch => decide (ch < 16)
  | .meterSet ch => decide (ch < 16)
  | .jobShareSet ch => decide (ch < 16)
  | .shapingCountersRead ch => decide (ch < 16)
  | .groupCreate ch => decide (ch < 16)
  | .groupMembershipSet ch => decide (ch < 16)
  | .groupArm ch => decide (ch < 16)
  | .groupSuspend ch => decide (ch < 16)
  | .groupResume ch => decide (ch < 16)
  | .groupTeardown ch => decide (ch < 16)
  | .groupStatusGet ch => decide (ch < 16)
  | .generationRecordRead ch => decide (ch < 16)
  | .ringPlanSet ch => decide (ch < 16)
  | .ringStatusGet ch => decide (ch < 16)
  | .programLoad ch => decide (ch < 16)
  | .programAttach ch => decide (ch < 16)
  | .programDetach ch => decide (ch < 16)
  | .programUnload ch => decide (ch < 16)
  | .threadTrapRead ch => decide (ch < 16)
  | .memoryPartitionSet ch => decide (ch < 16)
  | .echoRegionSet ch => decide (ch < 16)
  | .snapshotOpen ch => decide (ch < 16)
  | .snapshotClose ch => decide (ch < 16)
  | .snapshotRecordRead ch => decide (ch < 16)
  | .snapshotBuddySet ch => decide (ch < 16)
  | .laneConfigSet ch => decide (ch < 16)
  | .linkTrain ch => decide (ch < 16)
  | .loopbackSet ch => decide (ch < 16)
  | .laserControl ch => decide (ch < 16)
  | .laneStatusGet ch => decide (ch < 16)
  | .coordinatesSet ch => decide (ch < 16)
  | .neighbourPlanLoad ch => decide (ch < 16)
  | .gleanStatusGet ch => decide (ch < 16)
  | .rankTableLoad ch => decide (ch < 16)
  | .jobAdmit ch => decide (ch < 16)
  | .faultConfigSet ch => decide (ch < 16)
  | .faultForce ch => decide (ch < 16)
  | .faultLogRead ch => decide (ch < 16)
  | .unitReadmit ch => decide (ch < 16)
  | .spareBudgetGet ch => decide (ch < 16)
  | .recoveryPolicySet ch => decide (ch < 16)
  | .rollbackStart ch => decide (ch < 16)
  | .recoveryStatusGet ch => decide (ch < 16)
  | .lehrEnter ch => decide (ch < 16)
  | .lehrExit ch => decide (ch < 16)
  | .resetWarm ch => decide (ch < 16)
  | .resetPartial ch => decide (ch < 16)
  | .powerLimitSet ch => decide (ch < 16)
  | .powerTelemetryRead ch => decide (ch < 16)
  | .clockLevelSet ch => decide (ch < 16)
  | .sysRstNRelease _ => true
  | .sysRstNFall => true
  | .bootComplete => true
  | .standbyReadySet => true
  | .fwHandover => true
  | .fwActivateTimeout => true
  | .lcTransitionDone => true
  | .supplyOutOfRange rail => decide (rail < 11)
  | .supplyOutTimeout => true
  | .refclkLoss => true
  | .thermalTrip die => decide (die < 20)
  | .thermalThrottle die => decide (die < 20)
  | .hbmThermalLimit stack => decide (stack < 2)
  | .tickEdge _ => true
  | .slotStart _ => true
  | .tickInEdge _ => true
  | .tickMarkerReceive port _ _ => decide (port < 264)
  | .tickSourceLost => true
  | .tickAlignLost => true
  | .markerTimeout port => decide (port < 264)
  | .frameOverrunPersistent cx => decide (cx < 144)
  | .linkBlockReceive port _ => decide (port < 264)
  | .linkBlockTransmit port => decide (port < 264)
  | .linkReplay port => decide (port < 264)
  | .replayTimeout port => decide (port < 264)
  | .linkParamsReceive port _ => decide (port < 264)
  | .linkNoticeReceive port _ => decide (port < 264)
  | .packetReceive port _ => decide (port < 264)
  | .meshInject cx => decide (cx < 152)
  | .meshFlitReceive router _ _ => decide (router < 128)
  | .meshPacketRoute router _ _ => decide (router < 128)
  | .relaySweep cx => decide (cx < 144)
  | .relayCreditReceive cx => decide (cx < 144)
  | .localHandoff cx => decide (cx < 144)
  | .egressStore cx => decide (cx < 144)
  | .reseqGapRelease port => decide (port < 264)
  | .reseqEntryExpire port => decide (port < 264)
  | .packetSelect port => decide (port < 264)
  | .portMoveHandover port => decide (port < 264)
  | .tillerSubstitute cx => decide (cx < 144)
  | .slotMoveDone cx => decide (cx < 144)
  | .epochDrained => true
  | .epochDrainSlow => true
  | .contribAtHome cx => decide (cx < 144)
  | .patienceExpiry grp _ _ => decide (grp < 8192)
  | .idleGenerationOpen grp => decide (grp < 8192)
  | .admissionWaiting grp => decide (grp < 8192)
  | .groupClose grp => decide (grp < 8192)
  | .storageWipeDone grp => decide (grp < 8192)
  | .ringPartialLost grp _ => decide (grp < 8192)
  | .invocationStart cx => decide (cx < 144)
  | .threadWake t => decide (t < 20736)
  | .programMessageReceive cx => decide (cx < 144)
  | .stalledTrap cx => decide (cx < 144)
  | .programGroupStop grp => decide (grp < 8192)
  | .add t => decide (t < 20736)
  | .sub t => decide (t < 20736)
  | .and t => decide (t < 20736)
  | .or t => decide (t < 20736)
  | .xor t => decide (t < 20736)
  | .sll t => decide (t < 20736)
  | .srl t => decide (t < 20736)
  | .sra t => decide (t < 20736)
  | .slt t => decide (t < 20736)
  | .sltu t => decide (t < 20736)
  | .min t => decide (t < 20736)
  | .max t => decide (t < 20736)
  | .minu t => decide (t < 20736)
  | .maxu t => decide (t < 20736)
  | .mul t => decide (t < 20736)
  | .mulhu t => decide (t < 20736)
  | .mulh t => decide (t < 20736)
  | .div t => decide (t < 20736)
  | .divu t => decide (t < 20736)
  | .rem t => decide (t < 20736)
  | .remu t => decide (t < 20736)
  | .clz t => decide (t < 20736)
  | .popc t => decide (t < 20736)
  | .addi t => decide (t < 20736)
  | .andi t => decide (t < 20736)
  | .ori t => decide (t < 20736)
  | .xori t => decide (t < 20736)
  | .slti t => decide (t < 20736)
  | .sltiu t => decide (t < 20736)
  | .shifti t => decide (t < 20736)
  | .lui t => decide (t < 20736)
  | .fadd t => decide (t < 20736)
  | .fsub t => decide (t < 20736)
  | .fmul t => decide (t < 20736)
  | .fdiv t => decide (t < 20736)
  | .fsqrt t => decide (t < 20736)
  | .fmin t => decide (t < 20736)
  | .fmax t => decide (t < 20736)
  | .feq t => decide (t < 20736)
  | .flt t => decide (t < 20736)
  | .fle t => decide (t < 20736)
  | .fcvtSL t => decide (t < 20736)
  | .fcvtLS t => decide (t < 20736)
  | .ld t => decide (t < 20736)
  | .st t => decide (t < 20736)
  | .vld t => decide (t < 20736)
  | .vst t => decide (t < 20736)
  | .atom t => decide (t < 20736)
  | .wnarrow t => decide (t < 20736)
  | .winfo t => decide (t < 20736)
  | .vadd t => decide (t < 20736)
  | .vsub t => decide (t < 20736)
  | .vmul t => decide (t < 20736)
  | .vfma t => decide (t < 20736)
  | .vdiv t => decide (t < 20736)
  | .vsqrt t => decide (t < 20736)
  | .vmax t => decide (t < 20736)
  | .vmin t => decide (t < 20736)
  | .vabs t => decide (t < 20736)
  | .vneg t => decide (t < 20736)
  | .vand t => decide (t < 20736)
  | .vor t => decide (t < 20736)
  | .vxor t => decide (t < 20736)
  | .vshl t => decide (t < 20736)
  | .vshr t => decide (t < 20736)
  | .vsra t => decide (t < 20736)
  | .vadds t => decide (t < 20736)
  | .vsubs t => decide (t < 20736)
  | .vmov t => decide (t < 20736)
  | .vsel t => decide (t < 20736)
  | .vcmp t => decide (t < 20736)
  | .vsplat t => decide (t < 20736)
  | .vext t => decide (t < 20736)
  | .vins t => decide (t < 20736)
  | .vredsum t => decide (t < 20736)
  | .vredmax t => decide (t < 20736)
  | .vredmin t => decide (t < 20736)
  | .pand t => decide (t < 20736)
  | .por t => decide (t < 20736)
  | .pxor t => decide (t < 20736)
  | .pandn t => decide (t < 20736)
  | .pnot t => decide (t < 20736)
  | .pset t => decide (t < 20736)
  | .pget t => decide (t < 20736)
  | .planes t => decide (t < 20736)
  | .vcvt t => decide (t < 20736)
  | .mxq t => decide (t < 20736)
  | .mxd t => decide (t < 20736)
  | .accL320 t => decide (t < 20736)
  | .accL96 t => decide (t < 20736)
  | .accF32 t => decide (t < 20736)
  | .accI32 t => decide (t < 20736)
  | .lfinL320 t => decide (t < 20736)
  | .lfinL96 t => decide (t < 20736)
  | .scopy t => decide (t < 20736)
  | .msend t => decide (t < 20736)
  | .mrecv t => decide (t < 20736)
  | .psend t => decide (t < 20736)
  | .waitMsg t => decide (t < 20736)
  | .waitTick t => decide (t < 20736)
  | .nop t => decide (t < 20736)
  | .exit t => decide (t < 20736)
  | .fence t => decide (t < 20736)
  | .setidx t => decide (t < 20736)
  | .rdsys t => decide (t < 20736)
  | .beq t => decide (t < 20736)
  | .bne t => decide (t < 20736)
  | .blt t => decide (t < 20736)
  | .bge t => decide (t < 20736)
  | .bltu t => decide (t < 20736)
  | .bgeu t => decide (t < 20736)
  | .jal t => decide (t < 20736)
  | .jr t => decide (t < 20736)
  | .echoReqServe node => decide (node < 8)
  | .snapWriteReceive node => decide (node < 8)
  | .snapReadReceive node => decide (node < 8)
  | .snapshotSealDone handle => decide (handle < 64)
  | .snapshotBuddyDeadline handle => decide (handle < 64)
  | .snapshotVerifyDone handle => decide (handle < 64)
  | .hbmWipeDone stack => decide (stack < 2)
  | .hbmSpareCopyDone stack => decide (stack < 2)
  | .trainingFrameReceive port _ _ => decide (port < 264)
  | .adaptStep port _ _ => decide (port < 264)
  | .readyCountdownEnd port => decide (port < 264)
  | .trainTimeout port => decide (port < 264)
  | .retryExpiry port => decide (port < 264)
  | .lossOfSignal port _ => decide (port < 264)
  | .allChannelsLost port => decide (port < 264)
  | .retrainLimitExpiry port => decide (port < 264)
  | .laneFomLow port _ => decide (port < 264)
  | .txSleep port => decide (port < 264)
  | .txWake port => decide (port < 264)
  | .rxWake port => decide (port < 264)
  | .laserInputLive laser => decide (laser < 16)
  | .laserNotReady laser => decide (laser < 16)
  | .laserInputLost laser => decide (laser < 16)
  | .gleanReceive port _ => decide (port < 264)
  | .gleanNoEcho port => decide (port < 264)
  | .neighbourMissing port => decide (port < 264)
  | .gleanSilence port => decide (port < 264)
  | .rejoinHoldEnd port => decide (port < 264)
  | .collectorRewrite _ => true
  | .safeStateExit => true
  | .quietPeriodExpiry => true
  | .errNPulseEnd => true
  | .mpLost => true
  | .mpTakeover => true
  | .builtinTestDone unit _ => decide (unit < 65536)
  | .complexResetApply cx => decide (cx < 144)
  | .rollbackEnd job => decide (job < 4096)
  | .powerLimiterStep half => decide (half < 2)
  | .autoClockLower half => decide (half < 2)
  | .autoClockRaise half => decide (half < 2)
  | .lehrWakeTick => true
  | .lehrWakeSignal port => decide (port < 264)
  | .lehrForwardingResume => true
  | .bypass => true
  | .idcode => true
  | .samplePreload _ => true
  | .extest _ => true
  | .clamp => true
  | .highz => true
  | .commandComplete ch => decide (ch < 16)
  | .configSpaceWrite _ _ => true
  | .strikeCountReset unit => decide (unit < 65536)
  | .supplyInRange rail => decide (rail < 11)
  | .hbmThermalRelease stack => decide (stack < 2)
  | .lehrEntered => true
  | .resetPartialDone unit => decide (unit < 65536)
  | .illegalInstruction t => decide (t < 20736)
  | .codeBounds t => decide (t < 20736)

end Sys2Proof
end

