-- ==== Sys2Proof/Certificates/Slice0/Obligations.lean ====
section
/-!
DEFINITION. The statements for the provers. Each is a proposition about `exec`, `step` or the state after reset; its docstring names the rules it formalises.
-/

open Sys2Proof Sys2Proof.Machine

/-! ### Combine instructions: scalar -/

/-- Table 12.4, R357: a register-form integer instruction other than a division writes its result to s[sd], nothing to s0, in one busy cycle. The next
state is given whole, so every other register, window, thread and byte of the part is as it was. Table 12.4, R357: a division by a divisor other than
zero rounds toward zero, its remainder takes the dividend's sign, in 24 busy cycles; by zero it traps with ARITHMETIC (cause 9) and writes nothing.
Table 12.4, R357: an immediate-form instruction writes its result to s[sd] from s[sa] and IMM16: sign-extended for ADDI, SLTI, SLTIU and LUI,
zero-extended for the logical ones; SHIFTI shifts by IMM16[5:0], as IMM16[7:6] says. A SHIFTI with IMM16[15:8] not zero and a LUI with its sa field
not zero encode nothing. -/
def Obligations.IntegerInstructions : Prop :=
  (∀ row ∈ ([(.add, 0x00, fun a b => a + b), (.sub, 0x01, fun a b => a - b), (.and, 0x02, fun a b => a &&& b), (.or, 0x03, fun a b => a ||| b),
       (.xor, 0x04, fun a b => a ^^^ b), (.sll, 0x05, fun a b => a <<< (b.toNat % 64)), (.srl, 0x06, fun a b => a >>> (b.toNat % 64)),
       (.sra, 0x07, fun a b => a.sshiftRight (b.toNat % 64)), (.slt, 0x08, fun a b => if a.slt b then 1 else 0),
       (.sltu, 0x09, fun a b => if a.ult b then 1 else 0), (.min, 0x0A, fun a b => if b.slt a then b else a),
       (.max, 0x0B, fun a b => if a.slt b then b else a), (.minu, 0x0C, fun a b => if b.ult a then b else a),
       (.maxu, 0x0D, fun a b => if a.ult b then b else a), (.mul, 0x10, fun a b => a * b),
       (.mulhu, 0x11, fun a b => BitVec.ofNat 64 (a.toNat * b.toNat / 2 ^ 64)), (.mulh, 0x12, fun a b => BitVec.ofInt 64 (a.toInt * b.toInt / 2 ^ 64)),
       (.clz, 0x18, fun a _ => BitVec.ofNat 64 (if a = 0 then 64 else 63 - Nat.log2 a.toNat)),
       (.popc, 0x19, fun a _ => BitVec.ofNat 64 ((List.range 64).countP a.getLsbD))] : List ((Nat → Instr) × Nat × (Dword → Dword → Dword))),
     ∀ (s : State) (t : Nat) (c : Ctx), s.hw.Runs t 0x01 row.2.1 c → c.Affords 1 →
       exec (row.1 t) s = .next (s.withHw (s.hw.retire c
         (c.after.write (c.fld 25 21) (row.2.2 (c.th.reg (c.fld 20 16)) (c.th.reg (c.fld 15 11)))) {} 1))) ∧
  (∀ row ∈ ([(.div, 0x14, fun a b => a.sdiv b), (.divu, 0x15, fun a b => a / b), (.rem, 0x16, fun a b => a.srem b),
       (.remu, 0x17, fun a b => a % b)] : List ((Nat → Instr) × Nat × (Dword → Dword → Dword))),
     ∀ (s : State) (t : Nat) (c : Ctx), s.hw.Runs t 0x01 row.2.1 c →
       (c.th.reg (c.fld 15 11) ≠ 0 → c.Affords 24 →
         exec (row.1 t) s = .next (s.withHw (s.hw.retire c
           (c.after.write (c.fld 25 21) (row.2.2 (c.th.reg (c.fld 20 16)) (c.th.reg (c.fld 15 11)))) {} 24))) ∧
       (c.th.reg (c.fld 15 11) = 0 → exec (row.1 t) s = .next (s.withHw (s.hw.trap t 9 0 0)))) ∧
  (∀ row ∈ ([(.addi, 0x02, fun a i => a + i.signExtend 64), (.andi, 0x03, fun a i => a &&& i.zeroExtend 64), (.ori, 0x04, fun a i => a ||| i.zeroExtend 64),
       (.xori, 0x05, fun a i => a ^^^ i.zeroExtend 64), (.slti, 0x06, fun a i => if a.slt (i.signExtend 64) then 1 else 0),
       (.sltiu, 0x07, fun a i => if a.ult (i.signExtend 64) then 1 else 0),
       (.shifti, 0x08, fun a i => match (i.extractLsb' 6 2).toNat with
         | 0 => a <<< (i.extractLsb' 0 6).toNat
         | 1 => a >>> (i.extractLsb' 0 6).toNat
         | 2 => a.sshiftRight (i.extractLsb' 0 6).toNat
         | _ => a.rotateRight (i.extractLsb' 0 6).toNat),
       (.lui, 0x09, fun _ i => i.signExtend 64 <<< 16)] : List ((Nat → Instr) × Nat × (Dword → BitVec 16 → Dword))),
     ∀ (s : State) (t : Nat) (c : Ctx), s.hw.Runs t row.2.1 0 c → c.Affords 1 →
       exec (row.1 t) s = .next (s.withHw (s.hw.retire c
         (c.after.write (c.fld 25 21) (row.2.2 (c.th.reg (c.fld 20 16)) (BitVec.ofNat 16 c.w))) {} 1))) ∧
  (∀ w : Nat, bits w 31 26 = 0x08 → bits w 15 8 ≠ 0 → opKey w = none) ∧
   (∀ w : Nat, bits w 31 26 = 0x09 → bits w 20 16 ≠ 0 → opKey w = none)

/-- R358, R364: a scalar FP32 instruction takes the low words of its sources, rounds the exact result once to nearest even, and counts INVALID, and the
rounding's SATURATED and FLUSHED, at element index IDX; FMIN, FMAX and the compares count nothing; FCVT.S.L rounds the whole signed 64-bit source to
the nearest FP32 number, ties to even, and counts nothing. The model's own choices in it: log 89. -/
def Obligations.ScalarFloatResult : Prop :=
  (∀ row ∈ ([(.fadd, 0, 1, fun i k a b => fpResult fp32 i k ((f32 a).add (f32 b)) 1 (addInvalid (f32 a) (f32 b)) false),
      (.fsub, 1, 1, fun i k a b => fpResult fp32 i k ((f32 a).add (f32 (b ^^^ 2 ^ 31))) 1 (addInvalid (f32 a) (f32 (b ^^^ 2 ^ 31))) false),
      (.fmul, 2, 1, fun i k a b => fpResult fp32 i k ((f32 a).mul (f32 b)) 1 (mulInvalid (f32 a) (f32 b)) false),
      (.fdiv, 3, 12, fun i k a b => fpResult fp32 i k (divVal (f32 a) (f32 b)).1 (divVal (f32 a) (f32 b)).2.1 (divVal (f32 a) (f32 b)).2.2.1
        (divVal (f32 a) (f32 b)).2.2.2),
      (.fsqrt, 4, 12, fun i k a _ => fpResult fp32 i k (sqrtVal (f32 a)).1 1 (sqrtVal (f32 a)).2 false),
      (.fmin, 5, 1, fun _ _ a b => (fpPick fp32 false a b, {})), (.fmax, 6, 1, fun _ _ a b => (fpPick fp32 true a b, {})),
      (.feq, 8, 1, fun _ _ a b => (if (f32 a).eqv (f32 b) then 1 else 0, {})), (.flt, 9, 1, fun _ _ a b => (if (f32 a).lt (f32 b) then 1 else 0, {})),
      (.fle, 0x0A, 1, fun _ _ a b => (if (f32 a).lt (f32 b) || (f32 a).eqv (f32 b) then 1 else 0, {})),
      (.fcvtLS, 0x0D, 1, fun i k a _ => truncInt 64 i k (f32 a))] : List ((Nat → Instr) × Nat × Nat × (Nat → Nat → Nat → Nat → Nat × Counters))),
    ∀ (s : State) (t : Nat) (c : Ctx), s.hw.Runs t 0x0A row.2.1 c → c.Affords row.2.2.1 →
      let r := row.2.2.2 c.th.idx c.v.ev.rank ((c.th.reg (c.fld 20 16)).setWidth 32).toNat ((c.th.reg (c.fld 15 11)).setWidth 32).toNat
      exec (row.1 t) s = .next (s.withHw (s.hw.retire c (c.after.write (c.fld 25 21) (BitVec.ofNat 64 r.1)) r.2 row.2.2.1))) ∧
  ∀ (s : State) (t : Nat) (c : Ctx), s.hw.Runs t 0x0A 0x0C c → c.Affords 1 →
    let k := (c.th.reg (c.fld 20 16)).toInt
    exec (.fcvtSL t) s = .next (s.withHw (s.hw.retire c
      (c.after.write (c.fld 25 21) (BitVec.ofNat 64 (encodeFlt fp32 .rne false (.fin (decide (k < 0)) k.natAbs 0) 1).1)) {} 1))

/-- R353, Table 12.6: LD reads 1, 2, 4 or 8 bytes of a window that grants them, the first byte the least significant, and zero-extends them, or
sign-extends them with bit 10 set; the offset is s[sa] plus the signed immediate times the bytes. ST stores the low bytes of s[sd] there: every other
byte of the memory under the window is as it was. R353, R354: VLD loads each active byte of v[vd] from 64 bytes of a window and keeps the rest of the
register; VST stores each active byte, and every other byte of the memory under the window is as it was. -/
def Obligations.WindowLoadsAndStores : Prop :=
  (∀ (s : State) (t : Nat) (c : Ctx),
     let n := 2 ^ c.fld 12 11
     let r := c.fld 15 13
     let o := (c.th.reg (c.fld 20 16) + (BitVec.ofNat 10 c.w).signExtend 64 * BitVec.ofNat 64 n).toNat
     let v := BitVec.ofNat 64 (leNat (s.hw.winRead { c with th := c.after } (c.th.win r) o n))
     (s.hw.Runs t 0x0C 0 c → c.Affords 1 → c.th.Grants r true false o n n →
       exec (.ld t) s = .next (s.withHw (s.hw.retire c
         (c.after.write (c.fld 25 21) (if c.fld 10 10 = 1 then BitVec.ofInt 64 (toSigned (8 * n) v.toNat) else v)) {} 1))) ∧
     (s.hw.Runs t 0x0D 0 c → c.Affords 1 → c.th.Grants r false true o n n →
       exec (.st t) s = .next (s.withHw ((s.hw.winWrite { c with th := c.after } (c.th.win r) o
         ((List.range n).map (fun i => ((c.th.reg (c.fld 25 21)) >>> (8 * i)).setWidth 8))).retire c c.after {} 1)))) ∧
  (∀ (s : State) (t : Nat) (c : Ctx), c.Affords 1 →
     let r := c.fld 15 13
     let o := (c.th.reg (c.fld 20 16) + (BitVec.ofNat 10 c.w).signExtend 64 * 64).toNat
     let c' : Ctx := { c with th := c.after }
     let v := c.th.vr (c.fld 25 22)
     (s.hw.Runs t 0x0E 0 c → c.th.Grants r true false o 64 64 →
       ∃ z : BitVec 512, (∀ k < 64, lane 8 z.toNat k =
           if c.th.active (c.fld 12 10) 8 k then ((s.hw.winRead c' (c.th.win r) o 64).getD k 0).toNat else lane 8 v k) ∧
         exec (.vld t) s = .next (s.withHw (s.hw.retire c (c.after.setV (c.fld 25 22) z.toNat) {} 1))) ∧
     (s.hw.Runs t 0x0F 0 c → c.th.Grants r false true o 64 64 →
       exec (.vst t) s = .next (s.withHw (((List.range 64).foldl (fun h k => if c.th.active (c.fld 12 10) 8 k
         then h.winWrite c' (c.th.win r) (o + k) [BitVec.ofNat 8 (v >>> (8 * k))] else h) s.hw).retire c c.after {} 1))))

/-- R353, R377, Tables 11.11 and 12.6: a scalar or vector access of a window traps: WINDOW_RIGHTS (2) where the window is absent or lacks the right, else
WINDOW_BOUNDS (1) beyond its length, else ALIGNMENT (3) off the access's own multiple, with the window's number and the offset, and does nothing else.
R359, R373: WNARROW makes window wd of the part of window ws that starts at s[so] and is s[sn] bytes long, of kind 7, with the rights asked, none for
no bytes; WINFO puts a window's kind, rights and length into s[so]. The model's own choices in it: log 89, 91. -/
def Obligations.WindowTrapsAndNarrowing : Prop :=
  (∀ row ∈ ([(.ld, 0x0C, true), (.st, 0x0D, false), (.vld, 0x0E, true), (.vst, 0x0F, false)] : List ((Nat → Instr) × Nat × Bool)),
     ∀ (s : State) (t : Nat) (c : Ctx), s.hw.Runs t row.2.1 0 c →
       let n := if row.2.1 < 0x0E then 2 ^ c.fld 12 11 else 64
       let r := c.fld 15 13
       let o := (c.th.reg (c.fld 20 16) + (BitVec.ofNat 10 c.w).signExtend 64 * BitVec.ofNat 64 n).toNat
       let w := c.th.win r
       let right := w.kind ≠ 0 ∧ (if row.2.2 then w.rd else w.wr) = true
       (¬ right → exec (row.1 t) s = .next (s.withHw (s.hw.trap t 2 r o))) ∧
       (right → w.len < o + n → exec (row.1 t) s = .next (s.withHw (s.hw.trap t 1 r o))) ∧
       (right → o + n ≤ w.len → o % n ≠ 0 → exec (row.1 t) s = .next (s.withHw (s.hw.trap t 3 r o)))) ∧
  (∀ (s : State) (t : Nat) (c : Ctx),
     let w := c.th.win (c.fld 22 20)
     let o := c.th.sr (c.fld 19 15)
     let n := c.th.sr (c.fld 14 10)
     let rd := decide (c.fld 9 9 = 1)
     let wr := decide (c.fld 8 8 = 1)
     (s.hw.Runs t 0x11 0 c → c.Affords 1 → (rd = true → w.rd = true) → (wr = true → w.wr = true) → o + n ≤ w.len → o % 4 = 0 →
       exec (.wnarrow t) s = .next (s.withHw (s.hw.retire c (c.after.setW (c.fld 25 23)
         (if n = 0 then {} else { kind := 7, rd := rd, wr := wr, len := n, under := w.under, off := w.off + o })) {} 1))) ∧
     (s.hw.Runs t 0x11 1 c → c.Affords 1 →
       exec (.winfo t) s = .next (s.withHw (s.hw.retire c (c.after.write (c.fld 19 15)
         (BitVec.ofNat 64 (w.kind + (if w.rd then 16 else 0) + (if w.wr then 32 else 0) + 256 * w.len))) {} 1))))

/-- R359, Table 12.6: ATOM reads 4 or 8 bytes of a window that grants both rights, puts the old value into s[sd], and stores what its operation makes of
the old value, s[sb] and, for compare and swap, the old s[sd], each of the access's width. OP 7 encodes nothing. A command is one step of the whole
part, so no other access of the complex falls inside it. -/
def Obligations.AtomResult : Prop :=
  (∀ (s : State) (t : Nat) (c : Ctx), s.hw.Runs t 0x10 0 c → c.Affords 1 →
     let n := if c.fld 7 7 = 1 then 8 else 4
     let r := c.fld 10 8
     let o := c.th.sr (c.fld 20 16)
     let m := 2 ^ (8 * n)
     let old := leNat (s.hw.winRead { c with th := c.after } (c.th.win r) o n)
     let b := c.th.sr (c.fld 15 11) % m
     let new := match c.fld 6 4 with
       | 0 => (old + b) % m
       | 1 => b
       | 2 => if old = c.th.sr (c.fld 25 21) % m then b else old
       | 3 => max old b
       | 4 => min old b
       | 5 => old ||| b
       | _ => old &&& b
     c.th.Grants r true true o n n →
       exec (.atom t) s = .next (s.withHw ((s.hw.winWrite { c with th := c.after } (c.th.win r) o (leBytesN n new)).retire c
         (c.after.write (c.fld 25 21) (BitVec.ofNat 64 old)) {} 1))) ∧
  (∀ w : Nat, bits w 31 26 = 0x10 → bits w 6 4 = 7 → opKey w = none)

/-- R374: a conditional branch whose compare holds goes to its own word plus the signed OFF16, else to the next word, and writes no register; JAL links
the next word's PC in s[sd] and goes to its own word plus the signed OFF21; JR links the same and goes to s[sa], modulo the 16 bits of PC. R351, R374:
a thread whose PC lies inside the code on a word that encodes nothing traps with ILLEGAL_INSTRUCTION (4); one whose PC lies at or beyond the end of
the code traps with CODE_BOUNDS (5). A JR with sb or FUNC not zero encodes nothing. -/
def Obligations.ControlFlowAndFetch : Prop :=
  ((∀ row ∈ ([(.beq, 0x30, fun a b => a == b), (.bne, 0x31, fun a b => a != b), (.blt, 0x32, fun a b => a.slt b), (.bge, 0x33, fun a b => ! a.slt b),
       (.bltu, 0x34, fun a b => a.ult b), (.bgeu, 0x35, fun a b => ! a.ult b)] : List ((Nat → Instr) × Nat × (Dword → Dword → Bool))),
     ∀ (s : State) (t : Nat) (c : Ctx), s.hw.Runs t row.2.1 0 c → c.Affords 1 →
       exec (row.1 t) s = .next (s.withHw (s.hw.retire c { c.th with
         pc := if row.2.2 (c.th.reg (c.fld 25 21)) (c.th.reg (c.fld 20 16)) then (BitVec.ofNat 16 c.th.pc + BitVec.ofNat 16 c.w).toNat
           else (c.th.pc + 1) % 2 ^ 16 } {} 1))) ∧
   ∀ (s : State) (t : Nat) (c : Ctx), c.Affords 1 →
     (s.hw.Runs t 0x36 0 c → exec (.jal t) s = .next (s.withHw (s.hw.retire c
       { c.th.write (c.fld 25 21) (BitVec.ofNat 64 ((c.th.pc + 1) % 2 ^ 16)) with
         pc := (BitVec.ofNat 16 c.th.pc + BitVec.ofNat 16 c.w).toNat } {} 1))) ∧
     (s.hw.Runs t 0x37 0 c → exec (.jr t) s = .next (s.withHw (s.hw.retire c
       { c.th.write (c.fld 25 21) (BitVec.ofNat 64 ((c.th.pc + 1) % 2 ^ 16)) with
         pc := (c.th.reg (c.fld 20 16)).toNat % 2 ^ 16 } {} 1)))) ∧
  (∀ (s : State) (t : Nat) (c : Ctx),
     (s.hw.ctx t = some (c, true) → opKey c.w = none → exec (.illegalInstruction t) s = .next (s.withHw (s.hw.trap t 4 0 0))) ∧
     (s.hw.ctx t = some (c, false) → exec (.codeBounds t) s = .next (s.withHw (s.hw.trap t 5 0 0)))) ∧
  (∀ w : Nat, bits w 31 26 = 0x37 → bits w 15 0 ≠ 0 → opKey w = none)

/-! ### Combine instructions: vectors and predicates -/

/-- R354, R364, R365, Table 12.8: a lane arithmetic instruction gives each active lane the operation's result (a float rounded once in the lane's format,
an integer modulo the lane) and leaves each inactive lane as it was; the counts of its active lanes are joined in lane order, each at element index
IDX plus the lane; 16-bit floats take two busy cycles, VDIV and VSQRT four. R229, R354, Table 12.8: the other lane operations give each active lane
their result and leave each inactive lane as it was; VADDS and VSUBS saturate and count SATURATED for INT32 alone. -/
def Obligations.VectorLaneOperations : Prop :=
  (∀ row ∈ ([(.vadd, 0x00, 0, fun _ x y _ => x + y), (.vsub, 0x01, 1, fun b x y _ => x + (2 ^ b - y)), (.vmul, 0x02, 2, fun _ x y _ => x * y),
       (.vfma, 0x03, 3, fun _ x y d => x * y + d), (.vdiv, 0x04, 4, fun _ _ _ d => d), (.vsqrt, 0x05, 5, fun _ _ _ d => d),
       (.vabs, 0x08, 8, fun b x _ _ => if x.testBit (b - 1) then 2 ^ b - x else x), (.vneg, 0x09, 9, fun b x _ _ => 2 ^ b - x)] :
       List ((Nat → Instr) × Nat × Nat × (Nat → Nat → Nat → Nat → Nat))),
     ∀ (s : State) (t : Nat) (c : Ctx),
       let ty := c.fld 10 8
       let b := laneBits ty
       let busy := if row.2.1 = 4 ∨ row.2.1 = 5 then 4 else if ty = 1 ∨ ty = 2 then 2 else 1
       let old := c.th.vr (c.fld 25 22)
       let res (k : Nat) : Nat × Counters :=
         let x := lane b (c.th.vr (c.fld 21 18)) k
         let y := lane b (c.th.vr (c.fld 17 14)) k
         if ¬ c.th.active (c.fld 13 11) b k then (lane b old k, {})
         else if ty ≤ 2 then fpOp row.2.2.1 (fltOf ty) (c.th.idx + k) c.v.ev.rank x y (lane b old k)
         else (row.2.2.2 b x y (lane b old k) % 2 ^ b, {})
       s.hw.Runs t 0x14 row.2.1 c → c.Affords busy →
         ∃ v : BitVec 512, (∀ k < laneCount ty, lane b v.toNat k = (res k).1 % 2 ^ b) ∧
           exec (row.1 t) s = .next (s.withHw (s.hw.retire c (c.after.setV (c.fld 25 22) v.toNat)
             ((List.range (laneCount ty)).foldl (fun a k => a.join (res k).2) {}) busy))) ∧
  (∀ row ∈ ([(.vmax, 0x06, fun ty x y => pickLane true ty x y), (.vmin, 0x07, fun ty x y => pickLane false ty x y), (.vand, 0x10, fun _ x y => x &&& y),
       (.vor, 0x11, fun _ x y => x ||| y), (.vxor, 0x12, fun _ x y => x ^^^ y), (.vshl, 0x13, fun ty x y => x <<< (y % laneBits ty)),
       (.vshr, 0x14, fun ty x y => x >>> (y % laneBits ty)),
       (.vsra, 0x15, fun ty x y => (BitVec.sshiftRight (BitVec.ofNat (laneBits ty) x) (y % laneBits ty)).toNat),
       (.vadds, 0x16, fun ty x y => ofSigned (laneBits ty) (max (-(2 ^ (laneBits ty - 1))) (min (2 ^ (laneBits ty - 1) - 1) (sLane ty x + sLane ty y)))),
       (.vsubs, 0x17, fun ty x y => ofSigned (laneBits ty) (max (-(2 ^ (laneBits ty - 1))) (min (2 ^ (laneBits ty - 1) - 1) (sLane ty x - sLane ty y)))),
       (.vmov, 0x18, fun _ x _ => x)] : List ((Nat → Instr) × Nat × (Nat → Nat → Nat → Nat))),
     ∀ (s : State) (t : Nat) (c : Ctx),
       let ty := c.fld 10 8
       let b := laneBits ty
       let busy := if (row.2.1 = 6 ∨ row.2.1 = 7) ∧ (ty = 1 ∨ ty = 2) then 2 else 1
       let x (k : Nat) := lane b (c.th.vr (c.fld 21 18)) k
       let y (k : Nat) := lane b (c.th.vr (c.fld 17 14)) k
       let out (z : Int) : Bool := decide (z < -(2 ^ 31) ∨ 2 ^ 31 ≤ z)
       let sat (k : Nat) : Bool := decide (ty = 5) && c.th.active (c.fld 13 11) b k &&
         ((decide (row.2.1 = 0x16) && out (sLane ty (x k) + sLane ty (y k))) || (decide (row.2.1 = 0x17) && out (sLane ty (x k) - sLane ty (y k))))
       s.hw.Runs t 0x14 row.2.1 c → c.Affords busy →
         ∃ v : BitVec 512, (∀ k < laneCount ty, lane b v.toNat k =
             if c.th.active (c.fld 13 11) b k then row.2.2 ty (x k) (y k) % 2 ^ b else lane b (c.th.vr (c.fld 25 22)) k) ∧
           exec (row.1 t) s = .next (s.withHw (s.hw.retire c (c.after.setV (c.fld 25 22) v.toNat)
             ((List.range (laneCount ty)).foldl (fun a k => a.join { sat := b2n (sat k) }) {}) busy)))

/-- R354, R361, R362, Table 12.8: VSEL takes each lane from va where the predicate bit is one (or P is zero), else from vb; VSPLAT puts the low lane bits
of s[s1] into each active lane; VINS puts them into lane s[s2] alone, and VEXT reads that lane, a 16-bit float as FP32 bits; VCMP sets the bits of
p[pd] that cover an active lane to its outcome, and every other bit to zero. VEXT and VINS trap with ARITHMETIC (9) where s[s2] is not below the lane
count of TYPE. -/
def Obligations.VectorMoves : Prop :=
  (∀ row ∈ ([(.vext, 1), (.vins, 2)] : List ((Nat → Instr) × Nat)), ∀ (s : State) (t : Nat) (c : Ctx), s.hw.Runs t 0x16 row.2 c →
    laneCount (c.fld 8 6) ≤ c.th.sr (c.fld 16 12) → exec (row.1 t) s = .next (s.withHw (s.hw.trap t 9 0 0))) ∧
  ∀ (s : State) (t : Nat) (c : Ctx), c.Affords 1 →
    let run (i : Instr) (th : Thread) : Prop := exec i s = .next (s.withHw (s.hw.retire c th {} 1))
    (s.hw.Runs t 0x14 0x19 c → let b := laneBits (c.fld 10 8)
      ∃ v : BitVec 512, (∀ k < laneCount (c.fld 10 8), lane b v.toNat k =
          lane b (c.th.vr (if c.th.active (c.fld 13 11) b k then c.fld 21 18 else c.fld 17 14)) k) ∧
        run (.vsel t) (c.after.setV (c.fld 25 22) v.toNat)) ∧
    (s.hw.Runs t 0x15 0 c → let b := laneBits (c.fld 10 8)
      ∃ p : Dword, (∀ j < 64, p.getLsbD j = (c.th.active (c.fld 13 11) b (j / (b / 8)) && cmpLane (c.fld 10 8) (c.fld 7 4)
            (lane b (c.th.vr (c.fld 21 18)) (j / (b / 8))) (lane b (c.th.vr (c.fld 17 14)) (j / (b / 8))))) ∧
        run (.vcmp t) (c.after.setP (c.fld 25 23) p.toNat)) ∧
    (s.hw.Runs t 0x16 0 c → let b := laneBits (c.fld 8 6)
      ∃ v : BitVec 512, (∀ k < laneCount (c.fld 8 6), lane b v.toNat k =
          if c.th.active (c.fld 11 9) b k then c.th.sr (c.fld 21 17) % 2 ^ b else lane b (c.th.vr (c.fld 25 22)) k) ∧
        run (.vsplat t) (c.after.setV (c.fld 25 22) v.toNat)) ∧
    (s.hw.Runs t 0x16 2 c → let b := laneBits (c.fld 8 6)
      c.th.sr (c.fld 16 12) < laneCount (c.fld 8 6) →
      ∃ v : BitVec 512, (∀ k < laneCount (c.fld 8 6), lane b v.toNat k =
          if k = c.th.sr (c.fld 16 12) then c.th.sr (c.fld 21 17) % 2 ^ b else lane b (c.th.vr (c.fld 25 22)) k) ∧
        run (.vins t) (c.after.setV (c.fld 25 22) v.toNat)) ∧
    (s.hw.Runs t 0x16 1 c → let x := lane (laneBits (c.fld 8 6)) (c.th.vr (c.fld 25 22)) (c.th.sr (c.fld 16 12))
      c.th.sr (c.fld 16 12) < laneCount (c.fld 8 6) →
        run (.vext t) (c.after.write (c.fld 21 17) (BitVec.ofNat 64
          (if c.fld 8 6 = 1 ∨ c.fld 8 6 = 2 then (encodeFlt fp32 .rne false (decodeFlt (fltOf (c.fld 8 6)) x) 1).1 else x))))

/-- R363: the predicate instructions write p[pd] bit by bit from p[pa], p[pb] or s[s1], PLANES with the first min(s[s1], 64) bits set; PGET writes s[s1]
from p[pa] and no predicate. R229, R362: VREDSUM of an integer TYPE writes the wrapped sum of the active signed lanes to s[s1]; VREDMAX and VREDMIN of
one write a signed active lane that no active lane passes, or the lane format's identity where no lane is active. VREDSUM of a float TYPE adds the
active lanes from lane 0 upward from −0, rounding each sum; VREDMAX and VREDMIN of one pick by R229; the FP32 bits of the result are written. Each
takes two busy cycles. A predicate instruction with an undefined FUNC, or a field that its FUNC does not use not zero, encodes nothing. -/
def Obligations.PredicatesAndReductions : Prop :=
  (∀ (s : State) (t : Nat) (c : Ctx), c.Affords 1 →
     let a : Dword := c.th.p.getD (c.fld 22 20) 0
     let b : Dword := c.th.p.getD (c.fld 19 17) 0
     let x := c.th.reg (c.fld 16 12)
     (∀ row ∈ ([(.pand, 0, a &&& b), (.por, 1, a ||| b), (.pxor, 2, a ^^^ b), (.pandn, 3, a &&& ~~~ b), (.pnot, 4, ~~~ a), (.pset, 5, x)] :
         List ((Nat → Instr) × Nat × Dword)), s.hw.Runs t 0x17 row.2.1 c →
       exec (row.1 t) s = .next (s.withHw (s.hw.retire c { c.after with p := c.th.p.set (c.fld 25 23) row.2.2 } {} 1))) ∧
     (s.hw.Runs t 0x17 7 c → ∃ q : Dword, (∀ j < 64, q.getLsbD j = decide (j < x.toNat)) ∧
       exec (.planes t) s = .next (s.withHw (s.hw.retire c { c.after with p := c.th.p.set (c.fld 25 23) q } {} 1))) ∧
     (s.hw.Runs t 0x17 6 c → exec (.pget t) s = .next (s.withHw (s.hw.retire c (c.after.write (c.fld 16 12) a) {} 1)))) ∧
  (∀ (s : State) (t : Nat) (c : Ctx), c.Affords 2 →
     let ty := c.fld 8 6
     let n := laneBits ty
     let act := (List.range (laneCount ty)).filter (fun k => c.th.active (c.fld 11 9) n k)
     let x (k : Nat) := lane n (c.th.vr (c.fld 25 22)) k
     let wide (z : Nat) := if ty = 1 ∨ ty = 2 then (encodeFlt fp32 .rne false (decodeFlt (fltOf ty) z) 1).1 else z
     (s.hw.Runs t 0x16 3 c → 3 ≤ ty → exec (.vredsum t) s = .next (s.withHw (s.hw.retire c
         (c.after.write (c.fld 21 17) (BitVec.ofInt 64 (act.map (fun k => sLane ty (x k))).sum)) {} 2))) ∧
     (s.hw.Runs t 0x16 3 c → ty ≤ 2 →
       let r := act.foldl (fun (a : Nat × Counters) k =>
         let o := fpOp 0 (fltOf ty) (c.th.idx + k) c.v.ev.rank a.1 (x k) 0
         (o.1, a.2.join o.2)) (withSign (fltOf ty) true 0, {})
       exec (.vredsum t) s = .next (s.withHw (s.hw.retire c (c.after.write (c.fld 21 17) (BitVec.ofNat 64 (wide r.1))) r.2 2))) ∧
     (∀ row ∈ ([(.vredmax, 4, true), (.vredmin, 5, false)] : List ((Nat → Instr) × Nat × Bool)), s.hw.Runs t 0x16 row.2.1 c →
       ∃ r : Dword, exec (row.1 t) s = .next (s.withHw (s.hw.retire c (c.after.write (c.fld 21 17) r) {} 2)) ∧
         (3 ≤ ty → act ≠ [] → (∃ k ∈ act, r = BitVec.ofInt 64 (sLane ty (x k))) ∧
           ∀ k ∈ act, if row.2.2 then sLane ty (x k) ≤ r.toInt else r.toInt ≤ sLane ty (x k)) ∧
         (3 ≤ ty → act = [] → r = BitVec.ofInt 64 (if row.2.2 then -(2 ^ (n - 1)) else 2 ^ (n - 1) - 1)) ∧
         (ty ≤ 2 → act = [] → r = if row.2.2 then 0xFF800000 else 0x7F800000) ∧
         (ty ≤ 2 → ∀ k rest, act = k :: rest → r = BitVec.ofNat 64 (wide (rest.foldl (fun a j => fpPick (fltOf ty) row.2.2 a (x j))
           (fpPick (fltOf ty) row.2.2 (x k) (x k))))))) ∧
  (∀ w : Nat, bits w 31 26 = 0x17 → (7 < bits w 3 0 ∨ (bits w 3 0 ≤ 4 ∧ bits w 16 12 ≠ 0) ∨ (4 ≤ bits w 3 0 ∧ bits w 19 17 ≠ 0) ∨
    ((bits w 3 0 = 5 ∨ bits w 3 0 = 7) ∧ bits w 22 20 ≠ 0) ∨ (bits w 3 0 = 6 ∧ bits w 25 23 ≠ 0)) → opKey w = none)

/-- R366: VCVT converts N elements of the source, the wider side a whole register and the narrower at PART, rounds each once (to nearest even, or as the
group's ROUNDING with bit 1 set; a bare element's scale is the signed s[sb][7:0]) and leaves every other bit of v[vd] as it was; an exponent of −128
traps with ARITHMETIC (9). A NaN written in a bare format that has none is an open value (log 3). R237, R367: MXQ quantises the 32 FP32 lanes of v[v2]
and v[v2 + 1] as one MX block, its scale byte to s[s1] and its packed elements to v[v1], other bits zero; MXD decodes 32 packed elements under the
scale s[s1][7:0] into the FP32 lanes of v[v1] and v[v1 + 1], a scale of 0xFF as NaN with INVALID for each. Two busy cycles. The model's own choices in it: log 3, 90. -/
def Obligations.ConvertAndMxBlocks : Prop :=
  (∀ (s : State) (t : Nat) (c : Ctx), s.hw.Runs t 0x18 0 c →
     let src := c.fld 12 9
     let dst := c.fld 8 5
     let n := cvtCount src dst
     let bs := fmtBits src
     let bd := fmtBits dst
     let e := toSigned 8 (c.th.sr (c.fld 17 13) % 256)
     let bare := bareElem src || bareElem dst
     let from_ := if bs < bd then c.fld 4 2 * n else 0
     let lo := if bd < bs then c.fld 4 2 * n else 0
     let x (k : Nat) := cvtDecode src e (lane bs (c.th.vr (c.fld 21 18)) (from_ + k))
     let res (k : Nat) := cvtEncode dst (if c.fld 1 1 = 1 then c.rnd (c.th.idx + k) else .rne) c.x.cfg.arith.flushOut e (c.th.idx + k) c.v.ev.rank
       (Config.openValue (s.hw.fresh + k)).toNat (x k)
     let drawn := noNan dst && (List.range n).any (fun k => (x k).isNan)
     (bare = true → e = -128 → exec (.vcvt t) s = .next (s.withHw (s.hw.trap t 9 0 0))) ∧
     (¬ (bare = true ∧ e = -128) → c.Affords 1 →
       ∃ v : BitVec 512, (∀ j < 512, v.getLsbD j =
           if lo * bd ≤ j ∧ j < (lo + n) * bd then (res (j / bd - lo)).1.testBit (j % bd) else (c.th.vr (c.fld 25 22)).testBit j) ∧
         exec (.vcvt t) s = .next (s.withHw (({ s.hw with fresh := s.hw.fresh + (if drawn then n else 0) } : Hw).retire c (c.after.setV (c.fld 25 22) v.toNat)
           ((List.range n).foldl (fun a k => a.join (res k).2) {}) 1)))) ∧
  (∀ (s : State) (t : Nat) (c : Ctx), c.Affords 2 →
     let f := c.fld 12 9
     let v1 := c.fld 25 22
     let v2 := c.fld 21 18
     let x (k : Nat) : Val := f32 (lane 32 (c.th.vr (v2 + k / 16)) (k % 16))
     let q := mxBlock f (fun i => if c.fld 8 8 = 1 then c.rnd i else .rne) c.x.cfg.arith.flushOut c.v.ev.rank c.th.idx
       ((List.range 32).map (fun k => (x k, 1, false))) {}
     let scale := c.th.sr (c.fld 17 13) % 256
     let d (k : Nat) := encodeFlt fp32 .rne false (decodeElem f (scale, lane (fmtBits f) (c.th.vr v2) k)) 1
     (s.hw.Runs t 0x19 0 c → ∃ v : BitVec 512,
       (∀ k < 32, lane (fmtBits f) v.toNat k = nth q.2.1 k % 2 ^ fmtBits f) ∧ v.toNat < 2 ^ (32 * fmtBits f) ∧
       exec (.mxq t) s = .next (s.withHw (s.hw.retire c ((c.after.write (c.fld 17 13) (BitVec.ofNat 64 q.1)).setV v1 v.toNat) q.2.2 2))) ∧
     (s.hw.Runs t 0x1A 0 c → ∃ a b : BitVec 512,
       (∀ k < 16, lane 32 a.toNat k = (d k).1 % 2 ^ 32 ∧ lane 32 b.toNat k = (d (16 + k)).1 % 2 ^ 32) ∧
       exec (.mxd t) s = .next (s.withHw (s.hw.retire c ((c.after.setV v1 a.toNat).setV (v1 + 1) b.toNat)
         ((List.range 32).foldl (fun k j => k.join (if scale = 255 then ({} : Counters).addInvalid (c.th.idx + j) c.v.ev.rank else ({} : Counters).addFlags (d j).2)) {}) 2))))

/-! ### Combine instructions: streams, messages, control, traps -/

/-- R368, Table 12.10: an accumulate instruction whose windows grant its whole ranges adds each of its n elements into its own destination word by its
kind's rule, counting as Table 8.10 gives, and stores the words back; with FMT 15 each source word is merged into the destination word and nothing is
counted. The model's own choices in it: log 89, 90. -/
def Obligations.AccumulateResult : Prop :=
  ∀ row ∈ ([(.accL320, 0x20, 40, 4, 8, accLong 40), (.accL96, 0x21, 12, 4, 8, accLong 12),
      (.accF32, 0x22, 4, 16, 32, fun c acc i x => floatAdd i c.v.ev.rank acc (c.operand i x).1 (c.operand i x).2),
      (.accI32, 0x23, 4, 16, 32, fun c acc _ x => intAdd acc (decodeIntElem c.fmt x) {})] :
      List ((Nat → Instr) × Nat × Nat × Nat × Nat × (Ctx → Nat → Nat → Nat × Nat → Nat × Counters))),
    ∀ (s : State) (t : Nat) (c : Ctx),
      let w := row.2.2.1
      let n := c.sbv % 2 ^ 32
      let total := c.x.cfg.elems
      let width := fmtBits c.fmt
      let bytes := if c.fmt = 15 then n * w else if fmtMx c.fmt then payloadBytes c.fmt total else cdiv (n * width) 8
      let units := if c.fmt = 15 then n else cdiv n (if width < 8 then row.2.2.2.2.1 else row.2.2.2.1)
      let c' : Ctx := { c with th := c.after }
      let src := s.hw.winRead c' (c.th.win c.ws) c.sav bytes
      let old := cutWords w n (s.hw.winRead c' (c.th.win c.wd) (c.sdv * w) (n * w))
      let item (j : Nat) : Nat × Nat := (streamFields c.fmt total c.sdv n src).getD j (0, 0)
      let new (j : Nat) : Nat × Counters := if c.fmt = 15 then (longMerge w (nth old j) (nth (cutWords w n src) j), {})
        else row.2.2.2.2.2 c' (nth old j) (c.sdv + j) (item j)
      s.hw.Runs t row.2.1 0 c → n ≠ 0 → c.th.Grants c.ws true false c.sav bytes 4 → c.th.Grants c.wd true true (c.sdv * w) (n * w) 1 →
        (fmtMx c.fmt = true → c.sdv + n ≤ total) → c.Affords (1 + units) →
        exec (row.1 t) s = .next (s.withHw ((s.hw.winWrite c' (c.th.win c.wd) (c.sdv * w) ((List.range n).flatMap (fun j => leBytesN w (new j).1))).retire c
          c.after ((List.range n).foldl (fun a j => a.join (new j).2) {}) (1 + units)))

/-- R370, Tables 8.8 and 12.11: LFIN finishes each of n accumulator words from element s[sa] and writes the results, of 1, 2 or 4 bytes each, from byte
s[sd] of the destination window; SCOPY copies n bytes, as if through a temporary buffer. R368, R370, R371: a stream instruction whose count
s[sb][31:0] is zero changes no window and does not trap. A SCOPY whose count or an offset is no multiple of 4 traps with MISALIGNED (3); one with FMT
or FLAG not zero encodes nothing. -/
def Obligations.StreamFinishAndCopy : Prop :=
  (∀ (s : State) (t : Nat) (c : Ctx),
     let n := c.sbv % 2 ^ 32
     let c' : Ctx := { c with th := c.after }
     let size := fmtBits c.fmt / 8
     (∀ row ∈ ([(.lfinL320, 0x24, 40), (.lfinL96, 0x25, 12)] : List ((Nat → Instr) × Nat × Nat)),
       let w := row.2.2
       let old := cutWords w n (s.hw.winRead c' (c.th.win c.ws) (c.sav * w) (n * w))
       let new (j : Nat) := c'.lfinWord w (nth old j) (c.sav + j)
       s.hw.Runs t row.2.1 0 c → n ≠ 0 → c.th.Grants c.ws true false (c.sav * w) (n * w) 1 → c.th.Grants c.wd false true c.sdv (n * size) size →
         c.Affords (1 + cdiv n 16) →
         exec (row.1 t) s = .next (s.withHw ((s.hw.winWrite c' (c.th.win c.wd) c.sdv ((List.range n).flatMap (fun j => leBytesN size (new j).1))).retire c
           c.after ((List.range n).foldl (fun a j => a.join (new j).2) {}) (1 + cdiv n 16)))) ∧
     (s.hw.Runs t 0x26 0 c → n ≠ 0 → n % 4 = 0 → c.th.Grants c.ws true false c.sav n 4 → c.th.Grants c.wd false true c.sdv n 4 → c.Affords (1 + cdiv n 64) →
       exec (.scopy t) s = .next (s.withHw ((s.hw.winWrite c' (c.th.win c.wd) c.sdv (s.hw.winRead c' (c.th.win c.ws) c.sav n)).retire c
         c.after {} (1 + cdiv n 64))))) ∧
  (∀ row ∈ ([(.accL320, 0x20), (.accL96, 0x21), (.accF32, 0x22), (.accI32, 0x23), (.lfinL320, 0x24), (.lfinL96, 0x25), (.scopy, 0x26)] :
       List ((Nat → Instr) × Nat)), ∀ (s : State) (t : Nat) (c : Ctx), s.hw.Runs t row.2 0 c → c.sbv % 2 ^ 32 = 0 → c.Affords 1 →
     exec (row.1 t) s = .next (s.withHw (s.hw.retire c c.after {} 1))) ∧
  (∀ (s : State) (t : Nat) (c : Ctx), s.hw.Runs t 0x26 0 c → c.sbv % 2 ^ 32 ≠ 0 →
    (c.sbv % 2 ^ 32 % 4 ≠ 0 ∨ c.sav % 4 ≠ 0 ∨ c.sdv % 4 ≠ 0) → c.th.Grants c.ws true false c.sav (c.sbv % 2 ^ 32) 1 →
    c.th.Grants c.wd false true c.sdv (c.sbv % 2 ^ 32) 1 → ∃ win off, exec (.scopy t) s = .next (s.withHw (s.hw.trap t 3 win off))) ∧
   (∀ w : Nat, bits w 31 26 = 0x26 → bits w 4 0 ≠ 0 → opKey w = none)

/-- R331, R372: MSEND of a legal length to a mapped mesh address, with a shared buffer that fits, sends the message as the complex's own unicast mesh
packet of the injection epoch; MRECV frees the message bound before and binds the oldest queued one to w5, its sender in s16 and its length in s[sd],
or, with the queue empty, leaves w5 NONE, s16 all ones and s[sd] zero. R332, R372: PSEND of a packet whose header lies in a readable window, whose
payload fits it, of the group's job and of a type and class that a program may send, sends it (a destination that fails is counted in
PROGRAM_SEND_DROPS alone); a packet that fails one of these checks traps with SEND_REFUSED (7). The model's own choices in it: log 92. -/
def Obligations.MessagesAndPackets : Prop :=
  (∀ (s : State) (t : Nat) (c : Ctx),
     let n := c.sbv
     let cx := c.v.cx
     let c' : Ctx := { c with th := c.after }
     (s.hw.Runs t 0x28 0 c → c.th.Grants (c.fld 10 8) true false c.sav n 1 → 4 ≤ n → n ≤ 4096 → n % 4 = 0 → c.sdv < 128 → c.sdv ∉ s.hw.mesh.unmapped →
       ((s.hw.cx cx).pick cx (msgPkt c.v.att (s.hw.cxAddress cx) (s.hw.winRead c' (c.th.win (c.fld 10 8)) c.sav n)).len false).isSome → c.Affords (1 + cdiv n 64) →
       let pk := msgPkt c.v.att (s.hw.cxAddress cx) (s.hw.winRead c' (c.th.win (c.fld 10 8)) c.sav n)
       let send : OwnSend := { base := meshBase pk s.hw.mesh.injEpoch (cxRouter cx) c.x.cfg.job 511, addr := some (s.hw.locate s.hw.mesh.injEpoch c.sdv) }
       exec (.msend t) s = .next (s.withHw ((s.hw.ownSend cx send).retire c c.after {} (1 + cdiv n 64)))) ∧
     (s.hw.Runs t 0x28 1 c → c.Affords 1 →
       let h := c.th.bound.elim s.hw (fun b => s.hw.dropStored cx b.1 c.v.unit)
       let w := c.th.w.map (fun (w : Win) => if w.under = 6 then { w with under := 7 } else w)
       (tget [] c.a.msgs cx = [] → exec (.mrecv t) s = .next (s.withHw (h.retire c
         ((({ c.after with w := w.set 5 {}, bound := none } : Thread).write 16 (BitVec.allOnes 64)).write (c.fld 25 21) 0) {} 1))) ∧
       (∀ p sender b rest, tget [] c.a.msgs cx = (p, sender, b) :: rest →
         exec (.mrecv t) s = .next (s.withHw ((h.modAtt c.v.att (fun a => { a with msgs := tput a.msgs cx rest })).retire c
           ((({ c.after with w := w.set 5 { kind := 6, rd := true, len := b.length, under := 6 }, bound := some (p, b) } : Thread).write 16
             (BitVec.ofNat 64 sender)).write (c.fld 25 21) (BitVec.ofNat 64 b.length)) {} 1))))) ∧
  (∀ (s : State) (t : Nat) (c : Ctx), s.hw.Runs t 0x28 2 c →
     let w := c.th.win (c.fld 10 8)
     let c' : Ctx := { c with th := c.after }
     let hdr := beWords (s.hw.winRead c' w c.sav 64)
     let len := fld hdr 0 15 0
     let pk := mkPkt hdr (s.hw.winRead c' w (c.sav + 64) len)
     let good := c.sav + 64 + len ≤ w.len ∧ pk.job = c.x.cfg.job ∧ pk.ptype ∈ [1, 2, 3, 4] ∧ typeClass pk.ptype = pk.cls
     c.th.Grants (c.fld 10 8) true false c.sav 64 1 →
       (¬ good → exec (.psend t) s = .next (s.withHw (s.hw.trap t 7 0 0))) ∧
       (good → ((s.hw.cx c.v.cx).pick c.v.cx len false).isSome → c.Affords (1 + cdiv (64 + len) 64) →
         let r := s.hw.sendPacket c.v.cx pk
         exec (.psend t) s = .next (s.withHw ((if r.2 then r.1 else
           r.1.modProgs (fun p => { p with sendDrops := sat32 (p.sendDrops + 1) })).retire c c.after {} (1 + cdiv (64 + len) 64)))))

/-- R360, R373, R375: NOP and FENCE change nothing but PC and BUSY; SETIDX writes the low word of s[sa] to IDX; WAIT.MSG goes on where the attachment's
queue holds a message and else leaves the thread waiting for one; WAIT.TICK leaves it waiting for the next E7. RDSYS puts the value that IMM8 selects
into s[sd]: IDX, the tick, the slot, BUSY, the location, the instruction set's version, the group's application word, or the members now in the
chunk's bitmap. R325, R348, R375: EXIT ends the thread (IDLE: it is no thread any more), frees its bound message and takes it off its invocation; bit
0 of s1 of gang member 0 asks that no RESULT is sent; the last thread to exit ends the invocation. An undefined FUNC or IMM8, and a field that the
FUNC does not use and that is not zero, encode nothing. -/
def Obligations.SystemAndExit : Prop :=
  ((∀ (s : State) (t : Nat) (c : Ctx), c.Affords 1 →
     (s.hw.Runs t 0x2A 0 c → exec (.nop t) s = .next (s.withHw (s.hw.retire c c.after {} 1))) ∧
     (s.hw.Runs t 0x2A 2 c → exec (.fence t) s = .next (s.withHw (s.hw.retire c c.after {} 1))) ∧
     (s.hw.Runs t 0x2A 3 c → exec (.setidx t) s = .next (s.withHw (s.hw.retire c { c.after with idx := ((c.th.reg (c.fld 20 16)).setWidth 32).toNat } {} 1))) ∧
     (s.hw.Runs t 0x29 0 c → exec (.waitMsg t) s = .next (s.withHw (s.hw.retire c
       (if tget [] c.a.msgs c.v.cx = [] then { c.after with state := .waitMsg } else c.after) {} 1))) ∧
     (s.hw.Runs t 0x29 1 c → exec (.waitTick t) s = .next (s.withHw (s.hw.retire c { c.after with state := .waitTick false } {} 1)))) ∧
   ∀ row ∈ ([(0, fun _ c => c.th.idx), (1, fun h _ => h.time.tick), (2, fun h _ => h.time.slot), (3, fun _ c => c.th.busy),
       (4, fun _ c => c.t / 144 ||| (c.t / 16 % 9) <<< 8 ||| (c.t % 16) <<< 12), (5, fun _ _ => 1), (6, fun _ c => (c.x.cfg.image.getD 3 0).toNat),
       (7, fun _ c => match c.ch with | some k => k.counted.length | none => 0)] : List (Nat × (Hw → Ctx → Nat))),
     ∀ (s : State) (t : Nat) (c : Ctx), s.hw.Runs t 0x2A 4 c → c.Affords 1 → c.fld 15 8 = row.1 → t < 20736 →
       exec (.rdsys t) s = .next (s.withHw (s.hw.retire c (c.after.write (c.fld 25 21) (BitVec.ofNat 64 (row.2 s.hw c))) {} 1))) ∧
  (∀ (s : State) (t : Nat) (c : Ctx), s.hw.Runs t 0x2A 1 c → c.Affords 1 → c.th.busy + 1 < 2 ^ 32 →
     let h := s.hw.retire c { c.after with state := .stopped } {} 1
     let h := match c.th.bound with
       | some b => h.dropStored c.v.cx b.1 c.v.unit
       | none => h
     let v : Inv := { c.v with running := c.v.running.filter (· ≠ t), noResult := c.v.noResult || (decide (c.th.gang = 0) && (c.th.reg 1).getLsbD 0) }
     let h := h.modProgs (fun p => { p with threads := tdel p.threads t, invs := tput p.invs c.th.inv v })
     exec (.exit t) s = .next (s.withHw (if v.running = [] then h.invDone c.th.inv else h))) ∧
  (∀ w : Nat, bits w 31 26 = 0x2A → (4 < bits w 7 0 ∨ (bits w 7 0 ≤ 2 ∧ bits w 25 8 ≠ 0) ∨ (bits w 7 0 = 3 ∧ (bits w 25 21 ≠ 0 ∨ bits w 15 8 ≠ 0)) ∨
    (bits w 7 0 = 4 ∧ (bits w 20 16 ≠ 0 ∨ 7 < bits w 15 8))) → opKey w = none)

/-- R341, Tables 11.8 and 11.12: a trap stops its thread, records cause, window, offset and the PC of the instruction that trapped as the newest of at
most 16 trap records, and counts it; the trapping instruction has written no register, no window and no predicate. The model's own choices in it: log 89. -/
def Obligations.TrapStopsThread : Prop :=
  ∀ (h : Hw) (t cause win off : Nat) (c : Ctx) (inside : Bool), h.ctx t = some (c, inside) →
    let h' := h.trap t cause win off
    tget? h'.progs.threads t = some { c.th with state := .stopped } ∧ h'.progs.trapCount = min (h.progs.trapCount + 1) (2 ^ 32 - 1) ∧
    h'.progs.traps.length ≤ 16 ∧ (∀ r, h'.progs.traps.head? = some r → r.cause = cause ∧ r.pc = c.th.pc ∧ r.thread = t ∧ r.win = win ∧ r.off = off)

/-! ### The endpoint, the channels and the bindings -/

/-- R44, R50 to R53: ringing an enabled, idle channel's doorbell takes its request into execution: BUSY is set, RESPONSE_READY cleared, and the request is
the envelope and the payload that PAYLOAD_LEN gives; one that the envelope checks pass locks the bulk range it names and waits for its command, one
that they fail gets that failure as its response. One rung during HANDOVER or with no active processor is latched, its range locked from then on. A
doorbell rung while BUSY, while disabled, or on channels 12 to 15 only sets DOORBELL_IGNORED. The model's own choices in it: log 18, 19, 114. -/
def Obligations.DoorbellTakesRequest : Prop :=
  ∀ (s : State) (c : Nat) (v : Word), c < 16 → s.hw.accessible → v.getLsbD 0 →
    let x := s.hw.chan c
    let env := (List.range 4).map (fun i => tget (0 : Word) x.req i)
    let r : Request := { words := (List.range (4 + min (cdiv (fld env 1 15 0) 4) 1020)).map (fun i => tget 0 x.req i), arrived := s.hw.slotNow }
    let taken := s.hw.modChan c (fun y => { y with busy := true, ready := false, cur := some r, reply := none })
    (c < 12 → x.busy = false → x.enabled = true → s.hw.ctl.phase ≠ .handover → s.hw.faults.mpLost = false → ¬ (r.seqTag ≠ 0 ∧ r.seqTag = x.lastSeqTag ∧ x.resp ≠ []) →
      (envelopeFail s.fuses taken c r = none → exec (.doorbellRing c v) s = .next (s.withHw (taken.modChan c (fun y => { y with
        cur := some { r with lockOff := (bulkRange r.opcode c r.payload).1, lockLen := (bulkRange r.opcode c r.payload).2.1 } })))) ∧
      (∀ st d, envelopeFail s.fuses taken c r = some (st, d) → exec (.doorbellRing c v) s = .next (s.withHw (taken.modChan c (fun y => { y with
        cur := some { r with waiting := false }, reply := some (response r st d []) }))))) ∧
    (c < 12 → x.busy = false → x.enabled = true → s.hw.ctl.phase = .handover ∨ s.hw.faults.mpLost = true → exec (.doorbellRing c v) s = .next (s.withHw (s.hw.modChan c (fun y =>
      { y with busy := true, ready := false, cur := some { s.hw.locks c r with latched := true }, reply := none })))) ∧
    (12 ≤ c ∨ x.busy = true ∨ x.enabled = false →
      exec (.doorbellRing c v) s = .next (s.withHw (s.hw.modChan c (fun y => { y with dbIgnored := true }))))

/-- R42, R44, R52, R73, Table 2.3: what the other accesses of the endpoint do. A word of the request buffer is stored unless the channel is busy or the
management controller's; a read of TICK_COUNT returns the low word of the tick and latches its high word; bytes of the bulk window are stored unless
one lies in a locked range, which is counted; the configuration space takes the two base addresses, memory space, bus mastering and the MSI-X enable.
R42: PERST_N resets the endpoint alone: the link goes down, the configuration space loses its values, the ring is disarmed with its flags cleared,
DOORBELL_IGNORED and WRITE_IGNORED clear on every channel, while requests in execution, staging sets and everything outside the control part stay; on
its release the link trains again. R9, R43, Tables 2.3 to 2.5: a read of BAR0 returns all ones for any access but an aligned one of four bytes, and
zero outside every region; the identity, the scratch register, the low and high tick words, a channel's status and buffers and the ring's counts read
as they stand. Reads stand outside the command table (the model, log 136). The model's own choices in it: log 16, 17, 60, 136. -/
def Obligations.EndpointAccessesAndReset : Prop :=
  (∀ (s : State), s.hw.accessible →
     let ctl (f : Ctl → Ctl) : State := s.withHw (s.hw.modCtl f)
     (∀ c off v, c < 12 → off < 4096 → off % 4 = 0 → (s.hw.chan c).busy = false →
       exec (.requestBufferWrite c off v) s = .next (s.withHw (s.hw.modChan c (fun y => { y with req := tput y.req (off / 4) v })))) ∧
     (∀ c off v, c < 16 → off < 4096 → off % 4 = 0 → (12 ≤ c ∨ (s.hw.chan c).busy = true) →
       exec (.requestBufferWrite c off v) s = .next (s.withHw (s.hw.modChan c (fun y => { y with wrIgnored := true })))) ∧
     exec .tickCountRead s = .next (ctl (fun c => { c with
       readData := BitVec.ofNat 32 s.hw.time.tick, tickHi := BitVec.ofNat 32 (s.hw.time.tick / 2 ^ 32) })) ∧
     (∀ off data, off + data.length ≤ 16 * 2 ^ 20 → s.hw.lockedFor 16 off data.length = false → memWf 0 s.hw.ctl.bulk = true →
       ∃ b, (∀ a, memRead 0 b a = if off ≤ a ∧ a < off + data.length then data.getD (a - off) 0 else memRead 0 s.hw.ctl.bulk a) ∧
         exec (.bulkWindowWrite off data) s = .next (ctl (fun c => { c with bulk := b }))) ∧
     (∀ off data, off + data.length ≤ 16 * 2 ^ 20 → s.hw.lockedFor 16 off data.length = true →
       exec (.bulkWindowWrite off data) s = .next (ctl (fun c => { c with lockViol := min (c.lockViol + 1) (2 ^ 32 - 1) }))) ∧
     (∀ v : Word, exec (.configSpaceWrite 0x04 v) s = .next (ctl (fun c => { c with memEn := v.getLsbD 1, masterEn := v.getLsbD 2 })) ∧
       (∃ h, exec (.configSpaceWrite 0x10 v) s = .next (s.withHw h) ∧ { h with ctl := s.hw.ctl } = s.hw ∧ h.ctl = { s.hw.ctl with bar0 := h.ctl.bar0 } ∧
         h.ctl.bar0 % 2 ^ 32 = v.toNat / 2 ^ 19 * 2 ^ 19 ∧ h.ctl.bar0 / 2 ^ 32 = s.hw.ctl.bar0 / 2 ^ 32) ∧
       exec (.configSpaceWrite 0x14 v) s = .next (ctl (fun c => { c with bar0 := c.bar0 % 2 ^ 32 + v.toNat * 2 ^ 32 })) ∧
       (∃ h, exec (.configSpaceWrite 0x18 v) s = .next (s.withHw h) ∧ { h with ctl := s.hw.ctl } = s.hw ∧ h.ctl = { s.hw.ctl with bar2 := h.ctl.bar2 } ∧
         h.ctl.bar2 % 2 ^ 32 = v.toNat / 2 ^ 24 * 2 ^ 24 ∧ h.ctl.bar2 / 2 ^ 32 = s.hw.ctl.bar2 / 2 ^ 32) ∧
       exec (.configSpaceWrite 0x1C v) s = .next (ctl (fun c => { c with bar2 := c.bar2 % 2 ^ 32 + v.toNat * 2 ^ 32 })) ∧
       exec (.configSpaceWrite 0xB0 v) s = .next (ctl (fun c => { c with msixEn := v.getLsbD 31 })))) ∧
  (∀ (s : State),
     (∃ h, exec .perstNAssert s = .next (s.withHw h) ∧ { h with ctl := s.hw.ctl } = s.hw ∧ h.ctl.perstLow = true ∧ h.ctl.linkUp = false ∧ h.ctl.memEn = false ∧ h.ctl.masterEn = false ∧
       h.ctl.msixEn = false ∧ h.ctl.inD3 = false ∧ h.ctl.maxPayload = 0 ∧ h.ctl.bar0 = 0 ∧ h.ctl.bar2 = 0 ∧ h.ctl.ring.armed = false ∧ h.ctl.ring.producer = s.hw.ctl.ring.producer ∧ h.ctl.bulk = s.hw.ctl.bulk ∧
       ∀ c, h.chan c = { s.hw.chan c with dbIgnored := false, wrIgnored := false }) ∧
     (s.hw.ctl.perstLow = true → s.hw.powered = true →
       ∃ h, exec .perstNRelease s = .next (s.withHw h) ∧ h.ctl.perstLow = false ∧ h.ctl.linkUp = true ∧ { h with ctl := s.hw.ctl } = s.hw)) ∧
  (∀ (fz : Fuses) (h : Hw) (off size : Nat),
     (size ≠ 4 ∨ off % 4 ≠ 0 → h.bar0Read fz off size = 0xFFFFFFFF) ∧
     (off % 4 = 0 → (0x100 ≤ off ∧ off < 0x1000) ∨ (0x1400 ≤ off ∧ off < 0x10000) ∨ (0x30100 ≤ off ∧ off < 0x31000) ∨ (0x31100 ≤ off ∧ off < 0x40000) ∨ 0x54000 ≤ off → h.bar0Read fz off 4 = 0) ∧
     h.bar0Read fz 0 4 = 0x70201F3C ∧ h.bar0Read fz 0x14 4 = h.ctl.scratch ∧ h.bar0Read fz 0xC 4 = BitVec.ofNat 32 h.time.tick ∧ h.bar0Read fz 0x10 4 = h.ctl.tickHi ∧
     (∀ c, c < 16 → (h.bar0Read fz (0x1004 + 0x40 * c) 4).getLsbD 0 = (h.chan c).busy ∧ (h.bar0Read fz (0x1004 + 0x40 * c) 4).getLsbD 1 = (h.chan c).ready) ∧
     (∀ c i, c < 16 → i < 1024 → h.bar0Read fz (0x10000 + 0x2000 * c + 4 * i) 4 = tget 0 (h.chan c).req i ∧ h.bar0Read fz (0x11000 + 0x2000 * c + 4 * i) 4 = (h.chan c).resp.getD i 0) ∧
     h.bar0Read fz 0x30010 4 = h.ctl.ring.producer ∧ h.bar0Read fz 0x30014 4 = h.ctl.ring.consumer ∧ h.bar0Read fz 0x30018 4 = h.ctl.ring.dropped)

/-- R44, R49: COMMAND_COMPLETE writes the response buffer, clears BUSY and sets RESPONSE_READY; on a host channel it sends MSI-X vector c when IRQ_EN is
one; on the management controller's channels the response leaves over the binding and to the endpoint that the request came from, over I3C with an
in-band interrupt (R48). The model's own choices in it: log 5, 20. -/
def Obligations.CommandCompletes : Prop :=
  ∀ (s : State) (c : Nat) (r : Request) (out : List Word), c < 16 → s.hw.faults.mpLost = false → (s.hw.chan c).cur = some r → (s.hw.chan c).reply = some out →
    let h := s.hw.modChan c (fun x => { x with busy := false, ready := true, cur := none, reply := none, due := none, resp := out, lastSeqTag := fld out 0 31 16 })
    exec (.commandComplete c) s = .next (s.withHw (
      if 12 ≤ c then h.modCtl (fun k => { k with
        mctpOut := k.mctpOut ++ [(r.binding, r.eid, [0x7E, 0x1F, 0x3C, BitVec.ofNat 8 c, 0, 0, 0] ++ out.flatMap leBytes)],
        i3cIbi := k.i3cIbi + (if r.binding = 0 then 1 else 0) })
      else if (s.hw.chan c).irqEn then h.msix c else h))

/-- R46, Table 2.5: arming a disarmed ring of a legal size zeroes its counts, takes DROPPED from the held queue's losses and puts the held events before
all others; disarming keeps events for later; CONSUMER moves no further than the entries written, or it is refused. R46, Table 2.6: the oldest raised
event goes into an armed ring that has room, at BASE + 32·(PRODUCER mod size): the code and EVENT_SEQ, the tick and the data; PRODUCER advances. A
full ring drops it: DROPPED counts and OVERFLOW is set. With the ring disarmed it is held, the oldest of more than 256 held events lost and counted. The model's own choices in it: log 5, 108, 112. -/
def Obligations.EventRingRules : Prop :=
  (∀ (s : State) (v : Word), s.hw.accessible →
     let k := s.hw.ctl
     let flags (r : EventRing) : EventRing := { r with irqEn := v.getLsbD 1, wrIgnored := r.wrIgnored && ! v.getLsbD 8, refused := r.refused && ! v.getLsbD 9,
                                                       overflow := r.overflow && ! v.getLsbD 10, consInvalid := r.consInvalid && ! v.getLsbD 11 }
     (v.getLsbD 0 = true → k.ring.armed = false → 6 ≤ k.ring.log2 → k.ring.log2 ≤ 16 →
       ∃ h, exec (.eventRingArm v) s = .next (s.withHw h) ∧
         h.ctl.ring = { flags k.ring with armed := true, producer := 0, consumer := 0, dropped := BitVec.ofNat 32 (min k.heldDropped (2 ^ 32 - 1)) } ∧
         h.ctl.raised = k.held ++ k.raised ∧ h.ctl.held = [] ∧ h.ctl.heldDropped = 0) ∧
     (v.getLsbD 0 = false → ∃ h, exec (.eventRingDisarm v) s = .next (s.withHw h) ∧ h.ctl.ring = { flags k.ring with armed := false } ∧
       h.ctl.raised = k.raised ∧ h.ctl.held = k.held) ∧
     ((v - k.ring.consumer).toNat ≤ (k.ring.producer - k.ring.consumer).toNat →
       exec (.eventRingConsumerWrite v) s = .next (s.withHw (s.hw.modCtl (fun c => { c with ring := { c.ring with consumer := v } })))) ∧
     (¬ (v - k.ring.consumer).toNat ≤ (k.ring.producer - k.ring.consumer).toNat →
       exec (.eventRingConsumerWrite v) s = .next (s.withHw (s.hw.modCtl (fun c => { c with ring := { c.ring with consInvalid := true } }))))) ∧
  (∀ (s : State) (e : Event) (rest : List Event), s.hw.ctl.raised = e :: rest →
     let k := s.hw.ctl
     let entry : List Word := [BitVec.ofNat 32 (e.code + e.seq * 2 ^ 16), BitVec.ofNat 32 e.tick, BitVec.ofNat 32 (e.tick / 2 ^ 32)] ++ e.data
     (k.ring.armed = true → k.masterEn = true → k.perstLow = false → k.linkUp = true → k.dropMark = false → (k.ring.producer - k.ring.consumer).toNat ≠ 2 ^ k.ring.log2 →
       ∃ h, exec .eventEntryWrite s = .next (s.withHw h) ∧ h.ctl.raised = rest ∧ h.ctl.ring.producer = k.ring.producer + 1 ∧ h.ctl.ring.consumer = k.ring.consumer ∧
         h.ctl.hostWrites = k.hostWrites ++ [(k.ring.baseHi.toNat * 2 ^ 32 + k.ring.baseLo.toNat + 32 * (k.ring.producer.toNat % 2 ^ k.ring.log2), entry)]) ∧
     (k.ring.armed = true → k.masterEn = true → k.perstLow = false → k.linkUp = true → (k.ring.producer - k.ring.consumer).toNat = 2 ^ k.ring.log2 →
       ∃ h, exec .eventEntryWrite s = .next (s.withHw h) ∧ h.ctl.raised = rest ∧ h.ctl.hostWrites = k.hostWrites ∧
         h.ctl.ring = { k.ring with overflow := true, dropped := BitVec.ofNat 32 (min (k.ring.dropped.toNat + 1) (2 ^ 32 - 1)) }) ∧
     (k.ring.armed = false → ∃ h, exec .eventEntryWrite s = .next (s.withHw h) ∧ h.ctl.raised = rest ∧ h.ctl.ring = k.ring ∧ h.ctl.hostWrites = k.hostWrites ∧
       (k.held.length < 256 → h.ctl.held = k.held ++ [e] ∧ h.ctl.heldDropped = k.heldDropped) ∧
       (k.held.length = 256 → h.ctl.held = k.held.tail ++ [e] ∧ h.ctl.heldDropped = min (k.heldDropped + 1) (2 ^ 32 - 1))))

/-- R48, Table 2.18: the MCTP control messages of a powered part: SET_ENDPOINT_ID takes an endpoint ID that is neither 0 nor 0xFF for its binding, the
others answer the endpoint ID, the versions of a type supported, the message types and the vendor set 0x1F3C; ENTDAA takes a dynamic address. Each
answers on the binding and to the endpoint that asked, over I3C (binding 0) with an in-band interrupt. R45, R49, R51: a DCI message to an enabled,
idle channel 12 to 15 of a powered part is taken into execution as a request of that channel, with its binding and endpoint, and fills that channel's
request buffer; during HANDOVER or with no active processor it is latched; one to another channel number is dropped and counted, and so is one to a
channel that is busy. The model's own choices in it: log 18, 100, 111, 113. -/
def Obligations.MctpMessages : Prop :=
  (∀ (s : State) (b e : Nat), s.hw.powered = true →
     let answers (i : Instr) (eids : Tbl Nat) (bytes : List Byte) : Prop := exec i s = .next (s.withHw (s.hw.modCtl (fun c => { c with
       mctpEids := eids, mctpOut := c.mctpOut ++ [(b, e, [0, 0] ++ bytes)], i3cIbi := c.i3cIbi + (if b = 0 then 1 else 0) })))
     let same := s.hw.ctl.mctpEids
     (∀ op n, op < 2 → n ≠ 0 → n < 255 → answers (.setEndpointId b e op n) (tput same (b % 2) n) [1, 0, 0, BitVec.ofNat 8 n, 0]) ∧
     answers (.getEndpointId b e) same [2, 0, BitVec.ofNat 8 (tget 0 same (b % 2)), 0, 0] ∧
     (∀ t, t = 0xFF ∨ t = 0 ∨ t = 0x7E → answers (.getMctpVersionSupport b e t) same [4, 0, 1, 0xF1, 0xF3, 0xFF, 0]) ∧
     answers (.getMessageTypeSupport b e) same [5, 0, 1, 0x7E] ∧
     answers (.getVendorDefinedMessageSupport b e 0) same [6, 0, 0xFF, 0, 0x1F, 0x3C, 0, 0] ∧
     (∀ a, exec (.i3cEntdaa a) s = .next (s.withHw (s.hw.modCtl (fun c => { c with i3cAddr := a % 128 }))))) ∧
  (∀ (s : State) (b e c : Nat) (words : List Word), s.hw.powered = true → c < 256 →
     let body : List Byte := [0x1F, 0x3C, BitVec.ofNat 8 c, 0, 0, 0] ++ words.flatMap leBytes
     (12 ≤ c → c < 16 → (s.hw.chan c).busy = false → (s.hw.chan c).enabled = true → s.hw.ctl.phase ≠ .handover → s.hw.faults.mpLost = false →
       ∃ h r, exec (.mctpMessageReceive b e body) s = .next (s.withHw h) ∧ (h.chan c).busy = true ∧ (h.chan c).ready = false ∧ (h.chan c).cur = some r ∧
         r.words = words ∧ r.binding = b ∧ r.eid = e ∧ tget 0 h.ctl.mctpEids 2 = b ∧ ∀ i, i < words.length → i < 1024 → tget 0 (h.chan c).req i = words.getD i 0) ∧
     (12 ≤ c → c < 16 → (s.hw.chan c).busy = false → s.hw.ctl.phase = .handover ∨ s.hw.faults.mpLost = true →
       ∃ h r, exec (.mctpMessageReceive b e body) s = .next (s.withHw h) ∧ (h.chan c).busy = true ∧ (h.chan c).cur = some r ∧ r.latched = true ∧ r.words = words) ∧
     (c < 12 ∨ 16 ≤ c → exec (.mctpMessageReceive b e body) s = .next (s.withHw (s.hw.modCtl (fun k => { k with badChannel := min (k.badChannel + 1) (2 ^ 32 - 1) })))) ∧
     (12 ≤ c → c < 16 → (s.hw.chan c).busy = true → ∃ h, exec (.mctpMessageReceive b e body) s = .next (s.withHw h) ∧
       h.ctl.chanBusy = min (s.hw.ctl.chanBusy + 1) (2 ^ 32 - 1) ∧ h.chan c = s.hw.chan c))

/-! ### Staging and commit -/

/-- R53, R56 to R58: a command that configures and fails its own check is answered with that failure, with nothing changed but its channel; one that by
its zero rule changes nothing is answered OK at once; one with STAGE_ONLY is added to its channel's staging set, stamped with the commits made so far
and with the bytes it names copied, and answered STAGED with its place; one without is added, and the whole set's commit is set for the tick it names
or the first eligible one, or it is refused with the set as it was when that tick cannot be; the 257th staged command is answered STAGING_FULL. The model's own choices in it: log 18, 25. -/
def Obligations.ConfiguringCommandsStage : Prop :=
  ∀ row ∈ ([(.tickConfigSet, 0x0101, failTickConfigSet, outTickConfigSet), (.tickSourceSelect, 0x0103, failTickSourceSelect, fun _ _ _ => []),
      (.portConfigSet, 0x0201, failPortConfigSet, fun _ _ _ => []), (.fwdTableLoad, 0x0202, failFwdTableLoad, fun _ _ _ => []),
      (.nexthopSetLoad, 0x0203, failNexthopSetLoad, fun _ _ _ => []), (.queueConfigSet, 0x0204, failQueueConfigSet, fun _ _ _ => []),
      (.bufferLimitsSet, 0x0205, failBufferLimitsSet, fun _ _ _ => []), (.slicePartitionSet, 0x0206, failSlicePartitionSet, fun _ _ _ => []),
      (.sheafLoad, 0x0207, failSheafLoad, fun _ _ _ => []), (.meshRouteLoad, 0x0301, failMeshRouteLoad, fun _ _ _ => []),
      (.epochFlip, 0x0302, failEpochFlip, fun _ _ _ => []), (.routerFence, 0x0304, failRouterFence, fun _ _ _ => []),
      (.schedulerSet, 0x0401, failSchedulerSet, fun _ _ _ => []), (.shaperSet, 0x0402, failShaperSet, fun _ _ _ => []),
      (.meterSet, 0x0403, failMeterSet, fun _ _ _ => []), (.jobShareSet, 0x0404, failJobShareSet, fun _ _ _ => []),
      (.groupCreate, 0x0501, failGroupCreate, outGroupCreate), (.groupMembershipSet, 0x0502, failGroupMembershipSet, fun _ _ _ => []),
      (.groupArm, 0x0503, failGroupArm, outGroupArm), (.groupSuspend, 0x0504, failGroupSuspend, fun _ _ _ => []),
      (.groupResume, 0x0505, failGroupResume, fun _ _ _ => []), (.groupTeardown, 0x0506, failGroupTeardown, fun _ _ _ => []),
      (.ringPlanSet, 0x0601, failRingPlanSet, outRingPlanSet), (.programAttach, 0x0702, failProgramAttach, fun _ _ _ => []),
      (.programDetach, 0x0703, failProgramDetach, fun _ _ _ => []), (.memoryPartitionSet, 0x0801, failMemoryPartitionSet, fun _ _ _ => []),
      (.echoRegionSet, 0x0802, failEchoRegionSet, fun _ _ _ => []), (.snapshotClose, 0x0804, failSnapshotClose, fun _ _ _ => []),
      (.snapshotBuddySet, 0x0806, failSnapshotBuddySet, fun _ _ _ => []), (.laneConfigSet, 0x0901, failLaneConfigSet, fun _ _ _ => []),
      (.linkTrain, 0x0902, failLinkTrain, fun _ _ _ => []), (.loopbackSet, 0x0903, failLoopbackSet, fun _ _ _ => []),
      (.laserControl, 0x0904, failLaserControl, fun _ _ _ => []), (.coordinatesSet, 0x0A01, failCoordinatesSet, fun _ _ _ => []),
      (.neighbourPlanLoad, 0x0A02, failNeighbourPlanLoad, fun _ _ _ => []), (.rankTableLoad, 0x0A04, failRankTableLoad, outRankTableLoad),
      (.jobAdmit, 0x0A05, failJobAdmit, fun _ _ _ => []), (.faultConfigSet, 0x0B01, failFaultConfigSet, fun _ _ _ => []),
      (.recoveryPolicySet, 0x0C01, failRecoveryPolicySet, fun _ _ _ => []), (.lehrEnter, 0x0D01, failLehrEnter, fun _ _ _ => []),
      (.lehrExit, 0x0D02, failLehrExit, fun _ _ _ => []), (.resetWarm, 0x0D03, failResetWarm, fun _ _ _ => []),
      (.resetPartial, 0x0D04, failResetPartial, fun _ _ _ => []), (.powerLimitSet, 0x0D05, failPowerLimitSet, fun _ _ _ => []),
      (.clockLevelSet, 0x0D07, failClockLevelSet, fun _ _ _ => [])] : List ((Nat → Instr) × Nat × (Fuses → Hw → Nat → List Word → List Byte → Option Fail) × (Hw → Nat → List Word → List Word))),
    ∀ (s : State) (c : Nat) (r : Request), c < 16 → s.hw.Asks c row.2.1 r →
      let p := r.payload
      let st := s.hw.stagedOf c r
      let set := (s.hw.chan c).staging
      let out := row.2.2.2 s.hw c p
      let check := row.2.2.1 s.fuses s.hw c p st.bulk
      let run := exec (row.1 c) s
      (∀ f, check = some f → run = .next (s.withHw (s.hw.answered c r f.1 f.2 []))) ∧
      (check = none → changesNothing row.2.1 p = true → run = .next (s.withHw (s.hw.answered c r stOk 0 out))) ∧
      (check = none → changesNothing row.2.1 p = false → 256 ≤ set.length → run = .next (s.withHw (s.hw.answered c r stStagingFull 0 []))) ∧
      (check = none → changesNothing row.2.1 p = false → set.length < 256 → r.stageOnly = true →
        run = .next (s.withHw ((s.hw.modChan c (fun x => { x with staging := set ++ [st] })).answered c r stStaged set.length out))) ∧
      (check = none → changesNothing row.2.1 p = false → set.length < 256 → r.stageOnly = false →
        ∀ t, s.hw.commitTick r.arrived (if r.atTick then r.target else 0) (set ++ [st]) = .inl t →
        run = .next (s.withHw (s.hw.modChan c (fun x => { x with
          staging := set ++ [st], due := some { tick := t, named := r.atTick && decide (r.target ≠ 0) }, cur := some { r with waiting := false, out := out } })))) ∧
      (check = none → changesNothing row.2.1 p = false → set.length < 256 → r.stageOnly = false →
        ∀ f, s.hw.commitTick r.arrived (if r.atTick then r.target else 0) (set ++ [st]) = .inr f → run = .next (s.withHw (s.hw.answered c r f.1 f.2 [])))

/-- R389, R499: SNAPSHOT_OPEN and ROLLBACK_START stage what they will need at the commit: the one its request with the stack it is to use filled in, and
answers that stack and the bytes it reserves; the other with the bytes of the snapshot record, from a sealed part of the job or from the bulk window.
With STAGE_ONLY it is added to the set; without, the set's commit is set. The model's own choices in it: log 18, 96. -/
def Obligations.OpenAndRollbackStage : Prop :=
  ∀ (s : State) (c : Nat) (r : Request), c < 16 → (s.hw.chan c).staging.length < 256 →
    let p := r.payload
    let set := (s.hw.chan c).staging
    let staged (run : Host.Outcome State Fault Refusal) (st : Staged) (out : List Word) : Prop :=
      (r.stageOnly = true → run = .next (s.withHw ((s.hw.modChan c (fun x => { x with staging := set ++ [st] })).answered c r stStaged set.length out))) ∧
      (r.stageOnly = false → ∀ t, s.hw.commitTick r.arrived (if r.atTick then r.target else 0) (set ++ [st]) = .inl t →
        run = .next (s.withHw (s.hw.modChan c (fun x => { x with
          staging := set ++ [st], due := some { tick := t, named := r.atTick && decide (r.target ≠ 0) }, cur := some { r with waiting := false, out := out } }))))
    (s.hw.Asks c 0x0803 r → 4 ≤ r.words.length → checkOpen s.hw p = none →
      staged (exec (.snapshotOpen c) s) { opcode := 0x0803, words := lmod 0 p 0 (fun w => setBits w 9 2 (s.hw.openStack p)), stamp := s.hw.ctl.commits }
        ([BitVec.ofNat 32 (s.hw.openStack p)] ++ le64 (partReserve (openRanks p)))) ∧
    (s.hw.Asks c 0x0C02 r → fld p 0 11 0 ≠ 0 → s.hw.rollingBack (fld p 0 11 0) = false →
      (fld p 0 24 24 = 0 → ∀ x, s.hw.part? (fld p 0 21 16) = some x → x.buddy = false → x.job = fld p 0 11 0 → (x.state = .sealed ∨ x.state = .damaged) →
        recordHolds (fld p 0 11 0) (memReadList 0 x.record 0 x.recBytes) = true →
        staged (exec (.rollbackStart c) s) { opcode := 0x0C02, words := p, bulk := memReadList 0 x.record 0 x.recBytes, stamp := s.hw.ctl.commits } []) ∧
      (fld p 0 24 24 = 1 → c < 12 → wnat p 2 ≠ 0 → wnat p 2 ≤ 16 * 2 ^ 20 → recordHolds (fld p 0 11 0) (memReadList 0 s.hw.ctl.bulk (wnat p 1) (wnat p 2)) = true →
        staged (exec (.rollbackStart c) s) { opcode := 0x0C02, words := p, bulk := memReadList 0 s.hw.ctl.bulk (wnat p 1) (wnat p 2), stamp := s.hw.ctl.commits } []))

/-- R57, R58: COMMIT sets the staging set's commit for its tick, which without a target is the first that starts at least 8 slots after the request (and
no set that changes the tick's length or firmware handover moves it), and answers an empty set at once with zero commands and the current tick;
DISCARD_STAGED empties the set and answers how many it held, unless the set is due. -/
def Obligations.CommitAndDiscard : Prop :=
  ∀ (s : State) (c : Nat) (r : Request), c < 16 →
    let set := (s.hw.chan c).staging
    (s.hw.Asks c 0x0002 r → set = [] → exec (.commit c) s = .next (s.withHw (s.hw.answered c r stOk 0 (0 :: le64 s.hw.time.tick)))) ∧
    (s.hw.Asks c 0x0002 r → set ≠ [] → ∀ t, s.hw.commitTick r.arrived r.target set = .inl t →
      exec (.commit c) s = .next (s.withHw (s.hw.modChan c (fun x => { x with
        due := some { tick := t, dryRun := decide (fld r.payload 0 0 0 = 1), named := decide (r.target ≠ 0) }, cur := some { r with waiting := false } })))) ∧
    (s.hw.Asks c 0x0002 r → set ≠ [] → ∀ f, s.hw.commitTick r.arrived r.target set = .inr f → exec (.commit c) s = .next (s.withHw (s.hw.answered c r f.1 f.2 []))) ∧
    (s.hw.Asks c 0x0002 r → set ≠ [] → (∀ q ∈ set, q.opcode ≠ 0x0101) → s.hw.handoverTick = none → r.target = 0 → exec (.commit c) s = .next (s.withHw (s.hw.modChan c (fun x => { x with
        due := some { tick := max (s.hw.time.tick + 1) ((r.arrived + 135) / 128), dryRun := decide (fld r.payload 0 0 0 = 1) }, cur := some { r with waiting := false } })))) ∧
    (s.hw.Asks c 0x0003 r → (s.hw.chan c).due = none → exec (.discardStaged c) s = .next (s.withHw
      ((s.hw.modChan c (fun x => { x with staging := [] })).answered c r stOk 0 [BitVec.ofNat 32 set.length]))) ∧
    (s.hw.Asks c 0x0003 r → (s.hw.chan c).due ≠ none → exec (.discardStaged c) s = .next (s.withHw (s.hw.answered c r stTickPassed 0 [])))

/-- R58, R64, R89: a set without a target commits at the first tick to come that starts at least 8 slots after its request's slot (an alignment boundary
where the set changes the tick's length) and is not the tick of a firmware handover; a set with one commits at that tick, which is such a tick and
lies at most 2^24 ticks ahead. A COMMIT whose target is not eligible, or lies more than 2^24 ticks ahead, is answered TICK_PASSED and leaves the
staging set as it was. -/
def Obligations.CommitTickChosen : Prop :=
  (∀ (h : Hw) (arrived target : Nat) (set : List Staged) (t : Nat), h.commitTick arrived target set = .inl t →
     let bounded := set.any (fun q => decide (q.opcode = 0x0101))
     h.time.tick < t ∧ arrived + 8 ≤ 128 * t ∧ h.handoverTick ≠ some t ∧
     (target = 0 → ∀ t', h.time.tick < t' → arrived + 8 ≤ 128 * t' → h.handoverTick ≠ some t' → (bounded = true → h.boundaryTick t' = true) → t ≤ t') ∧
     (target = 0 → bounded = true → h.time.mult ∣ 32 → h.time.mult ∣ h.time.base → h.boundaryTick t = true) ∧
     (target ≠ 0 → t % 2 ^ 32 = target % 2 ^ 32 ∧ t ≤ h.time.tick + 2 ^ 24 ∧ (bounded = true → h.boundaryTick t = true))) ∧
  (∀ (s : State) (c : Nat) (r : Request), c < 16 → s.hw.Asks c 0x0002 r → (s.hw.chan c).staging ≠ [] → r.target ≠ 0 →
    let d := (r.target + 2 ^ 32 - s.hw.time.tick % 2 ^ 32) % 2 ^ 32
    (d = 0 ∨ 128 * (s.hw.time.tick + d) < r.arrived + 8 ∨ 2 ^ 24 < d) →
      exec (.commit c) s = .next (s.withHw (s.hw.answered c r stTickPassed 0 [])) ∧ ((s.hw.answered c r stTickPassed 0 []).chan c).staging = (s.hw.chan c).staging)

/-- R59, R60: at E2 a set that is due, against which the check of slots 120 to 127 found nothing (made now for a set it did not see) and which meets
nothing that must be empty and is not, takes effect whole, its response is made and its channel's staging set is empty; one that fails keeps its set,
takes no effect, and is answered with the failure. The model's own choices in it: log 21, 22, 23, 24, 123. -/
def Obligations.CommitOfDueSet : Prop :=
  ∀ (fz : Fuses) (h : Hw) (others : List Staged) (c : Nat) (d : Due), (h.chan c).due = some d → d.tick ≤ h.time.tick → h.inLehr = false → h.faults.state ≠ .safe →
    let set := (h.chan c).staging
    let verdict := (d.found.getD (checkSet fz h c set others)).or (set.findSome? (notEmpty h))
    (verdict = none → d.dryRun = false → h.commitChan fz others c = h.commitSet c set) ∧
    (∀ e, verdict = some e → ∃ k : Ctl, h.commitChan fz others c = { h with ctl := k } ∧
      (tget {} k.chans c).staging = set ∧ (tget {} k.chans c).due = none ∧ (h.eventsOn = true → k.eventCount = (h.ctl.eventCount + 1) % 2 ^ 16) ∧
      ∀ r, (h.chan c).cur = some r → (tget {} k.chans c).reply = some (response r e.status e.detail []))

/-! ### Commands that answer -/

/-- Tables 2.13, 2.18, 3.10, 3.11, 6.11, 10.8, 16.13, 17.11, 18.10: the commands that read one part of the hardware answer OK with its values, and change
nothing but their channel. GET_VERSION, FW_STATUS_GET, TICK_STATUS_GET, EPOCH_STATUS_GET, RING_STATUS_GET, FAULT_LOG_READ, SPARE_BUDGET_GET,
RECOVERY_STATUS_GET, POWER_TELEMETRY_READ and LEDGER_READ. The model's own choices in it: log 18, 140. -/
def Obligations.StatusCommandsAnswer : Prop :=
  ∀ (s : State) (c : Nat) (r : Request), c < 16 →
    let h := s.hw
    let p := r.payload
    let n32 (n : Nat) : Word := BitVec.ofNat 32 n
    let n64 (n : Nat) : List Word := [n32 n, n32 (n / 2 ^ 32)]
    let ok (out : List Word) : Host.Outcome State Fault Refusal := .next (s.withHw (h.answered c r stOk 0 out))
    (h.Asks c 0x0001 r → exec (.getVersion c) s = ok [n32 (1 + 256 * Config.dciMinor.toNat + 0x7020 * 2 ^ 16), n32 h.ctl.fwVersion, n32 h.ctl.secVersion, 0x10800288,
      n32 (1024 + 256 * 2 ^ 16), n32 (8192 + 16896 * 2 ^ 16), n32 4194304, n32 (16 + 8 * 2 ^ 8 + 2 * 2 ^ 16 + s.fuses.lc.code * 2 ^ 24), n32 192]) ∧
    (h.Asks c 0x0E04 r → exec (.fwStatusGet c) s = ok ([n32 h.ctl.phase.code, n32 h.ctl.fwVersion]
      ++ [0, 1].map (fun slot => if h.imageCheck s.fuses slot = 0 then n32 (h.imageFacts slot).1 else 0) ++ [n32 s.fuses.antiRoll, n32 h.ctl.handoverVer])) ∧
    (h.Asks c 0x0102 r → exec (.tickStatusGet c) s = ok (n64 h.time.tick ++ n64 h.time.base ++ [n32 (h.time.mult + h.time.slot * 2 ^ 8 + h.time.activeGen * 2 ^ 16
        + (if h.time.genFenced.getD (1 - h.time.activeGen) true then 0 else 2 ^ 17) + h.time.active * 2 ^ 20 + h.time.lockState * 2 ^ 24),
      BitVec.ofInt 32 h.time.offsetPs, n32 (h.time.offsets.foldl max 0), BitVec.ofInt 32 h.time.freqAdj, n32 h.time.overruns, n32 h.time.imbalances, n32 h.time.markerErrors])) ∧
    (h.Asks c 0x0303 r → exec (.epochStatusGet c) s = ok ([n32 (h.mesh.injEpoch + (if h.mesh.regimeBubble then 2 else 0) + (if h.mesh.flipping then 4 else 0) + h.mesh.reasons.toNat * 2 ^ 8)]
      ++ n64 h.mesh.flipTick ++ [n32 h.mesh.drainCount] ++ n64 h.mesh.drainDone ++ (List.range 4).map (fun i => n32 ((maskOf h.mesh.fenced).toNat >>> (32 * i)))
      ++ (List.range 4).map (fun i => n32 ((maskOf (natsWhere 128 (fun k => (h.cx k).attach = .detached))).toNat >>> (32 * i))))) ∧
    (h.Asks c 0x0602 r → ∀ x q, h.grp? (fld p 0 12 0) = some x → x.plan = some q → exec (.ringStatusGet c) s = ok ([n32 (q.id + (if x.ringLost then 2 ^ 16 else 0)), n32 q.index,
      n32 x.mismatch, n32 x.heldOut] ++ (List.range 4).flatMap (fun a => [n32 (tget {} x.axes a).heard, n32 (tget {} x.axes a).got, n32 (tget {} x.axes a).sent, n32 (tget {} x.axes a).halfB]))) ∧
    (h.Asks c 0x0B03 r → let hist := decide (fld p 0 24 24 = 1)
      let log := if hist then h.faults.history else h.faults.log
      let total := if hist then h.faults.histTotal else h.faults.logTotal
      exec (.faultLogRead c) s = ok ([n32 total, n32 (total - log.length), 0, 0] ++ ((log.drop (fld p 0 15 0)).take (fld p 0 22 16)).flatMap (·.words))) ∧
    (h.Asks c 0x0B05 r → exec (.spareBudgetGet c) s = ok ((List.range 13).flatMap h.budget)) ∧
    (h.Asks c 0x0C03 r → fld p 0 11 0 ≠ 0 → let j := h.job (fld p 0 11 0)
      let mine := h.groups.filter (fun e => decide (e.2.cfg.job = fld p 0 11 0))
      exec (.recoveryStatusGet c) s = ok ([n32 ((if j.running.isSome then 2 else if j.needed then 1 else 0) + (if j.suspend then 4 else 0)), n32 j.maxDrop,
        n32 (mine.countP (fun e => e.2.rollback) + mine.length * 2 ^ 16)] ++ n64 j.lastTick ++ n64 j.doneTick
        ++ [n32 (j.snapshot + j.restored * 2 ^ 16), n32 (j.created + j.removed * 2 ^ 16), n32 j.stale])) ∧
    (h.Asks c 0x0D06 r → ∃ out, exec (.powerTelemetryRead c) s = ok out ∧ out.take 2 = n64 h.power.latchTick ∧
      out.getD 2 0 = n32 (min 65535 h.power.latchPower.sum + h.power.limit * 2 ^ 16) ∧ out.getLast? = some (n32 h.power.throttleTicks)) ∧
    (h.Asks c 0x0104 r → ∀ l, fld p 0 2 0 ≠ 0 → ledgerIndexOk (fld p 0 2 0) (wnat p 1) = true → h.ledger (fld p 0 2 0) (wnat p 1) = some l →
      h.time.unbalanced.contains (fld p 0 2 0 * 2 ^ 29 + wnat p 1) = false →
      exec (.ledgerRead c) s = ok (n64 h.latch.tick ++ n64 l.left ++ n64 l.right ++ [n32 l.allow, 3, n32 (tget 0 h.time.imbalanceCount (fld p 0 2 0 * 2 ^ 29 + wnat p 1))]))

/-- R151, R186, R207, R429: PORT_COUNTERS_READ, MESH_COUNTERS_READ, SHAPING_COUNTERS_READ and LANE_STATUS_GET answer OK with the counters they name,
behind the current tick. Without CLEAR nothing else changes; with CLEAR those counters alone are zeroed, after the read. Before the read the two cycle
counters of a router, and the decoder counts of a port's lanes, rise by free values (log 34, log 135); nothing else of the router, and no other router
or port, does. The model's own choices in it: log 18, 34, 67, 135. -/
def Obligations.CounterCommandsAnswer : Prop :=
  ∀ (s : State) (c : Nat) (r : Request), c < 16 →
    let h := s.hw
    let p := r.payload
    let n64 (n : Nat) : List Word := [BitVec.ofNat 32 n, BitVec.ofNat 32 (n / 2 ^ 32)]
    let u := fld p 0 8 0
    let rt := fld p 0 7 0
    let clear := fld p 0 16 16 = 1
    let first := fld p 1 7 0
    let n := fld p 1 15 8
    let ends (h' : Hw) (out : List Word) : Host.Outcome State Fault Refusal := .next (s.withHw (h'.answered c r stOk 0 out))
    (h.Asks c 0x0208 r → u < 264 → first + n ≤ 35 →
      let out := n64 h.time.tick ++ (List.range n).flatMap (fun i => n64 (tget 0 (h.port u).counters (first + i)))
      (¬ clear → exec (.portCountersRead c) s = ends h out) ∧
      (clear → ∃ x, exec (.portCountersRead c) s = ends (h.setPort u x) out ∧ { x with counters := (h.port u).counters } = h.port u ∧
        ∀ i, tget 0 x.counters i = if first ≤ i ∧ i < first + n then 0 else tget 0 (h.port u).counters i)) ∧
    (h.Asks c 0x0305 r → rt < 128 → first + n ≤ 17 →
      let k := h.waitCycles rt
      let out := n64 h.time.tick ++ (List.range n).flatMap (fun i => n64 (tget 0 (k.router rt).counters (first + i)))
      (∃ x, k = ({ h with fresh := h.fresh + 2 } : Hw).modRouter rt (fun _ => x) ∧ { x with counters := (h.router rt).counters } = h.router rt ∧
        ∀ i, i ≠ 7 → i ≠ 13 → tget 0 x.counters i = tget 0 (h.router rt).counters i) ∧
      (¬ clear → exec (.meshCountersRead c) s = ends k out) ∧
      (clear → ∃ x, exec (.meshCountersRead c) s = ends (k.modRouter rt (fun _ => x)) out ∧ { x with counters := (k.router rt).counters } = k.router rt ∧
        ∀ i, tget 0 x.counters i = if first ≤ i ∧ i < first + n then 0 else tget 0 (k.router rt).counters i)) ∧
    (h.Asks c 0x0405 r → u < 264 → fld p 0 17 17 = 0 → let i := fld p 0 23 18
      let q := (h.port u).queue i
      let out := n64 h.time.tick ++ n64 q.txPackets ++ n64 q.txBytes ++ n64 q.shaperHeld ++ n64 q.creditHeld ++ n64 ((q.tokens / 65536) % (2 ^ 64 : Int)).toNat ++ n64 q.deficit
      (¬ clear → exec (.shapingCountersRead c) s = ends h out) ∧
      (clear → exec (.shapingCountersRead c) s = ends (h.modPort u (fun x => { x with
        queues := tput x.queues i { q with txPackets := 0, txBytes := 0, shaperHeld := 0, creditHeld := 0 } })) out)) ∧
    (h.Asks c 0x0405 r → u < 264 → fld p 0 17 17 = 1 → let i := fld p 0 23 18
      let m := (h.port u).meter i
      let out := n64 h.time.tick ++ n64 m.green ++ n64 m.yellow ++ n64 m.redDrop ++ n64 m.redPass ++ n64 (m.tc / 65536) ++ n64 (m.tp / 65536)
      (¬ clear → exec (.shapingCountersRead c) s = ends h out) ∧
      (clear → exec (.shapingCountersRead c) s = ends (h.modPort u (fun x => { x with
        meters := tput x.meters i { m with green := 0, yellow := 0, redDrop := 0, redPass := 0 } })) out)) ∧
    (h.Asks c 0x0905 r → u < 264 →
      let a := h.draw
      let b := a.1.draw
      let k := b.1.decodeLanes u
      let out := k.laneStatus u a.2 b.2
      (∀ q, q ≠ u → k.port q = h.port q) ∧ { (k.port u).lanes with counters := (h.port u).lanes.counters, chans := (h.port u).lanes.chans } = (h.port u).lanes ∧
      (∀ i, i ≠ 0 → i ≠ 5 → tget 0 (k.port u).lanes.counters i = tget 0 (h.port u).lanes.counters i) ∧
      (¬ clear → exec (.laneStatusGet c) s = ends k out) ∧
      (clear → exec (.laneStatusGet c) s = ends (k.modLanes u (fun l => { l with counters := [], chans := l.chans.map (fun e => (e.1, { e.2 with corrected := 0 })) })) out))

/-- Tables 5.17, 9.10, 9.12, 11.12, 13.12, 15.11: CULLET_LIST_READ, GLEAN_STATUS_GET, GROUP_STATUS_GET, GENERATION_RECORD_READ, THREAD_TRAP_READ and
SNAPSHOT_RECORD_READ answer OK with what they name, and change nothing but their channel. The records of a context that has been torn down and wiped
stay readable. The model's own choices in it: log 18, 84. -/
def Obligations.TableCommandsAnswer : Prop :=
  ∀ (s : State) (c : Nat) (r : Request), c < 16 →
    let h := s.hw
    let p := r.payload
    let n32 (n : Nat) : Word := BitVec.ofNat 32 n
    let n64 (n : Nat) : List Word := [n32 n, n32 (n / 2 ^ 32)]
    let ok (out : List Word) : Host.Outcome State Fault Refusal := .next (s.withHw (h.answered c r stOk 0 out))
    (h.Asks c 0x0209 r → fld p 0 7 0 < 144 → fld p 1 15 0 + fld p 1 31 16 ≤ 256 → let x := h.cx (fld p 0 7 0)
      exec (.culletListRead c) s = ok ([n32 x.cullet.length, n32 x.culletOver, n32 x.promotions, n32 (match x.drainTo with | none => 0 | some k => x.leaving k)]
        ++ (List.range (fld p 1 31 16)).map (fun i => n32 (nth x.cullet (fld p 1 15 0 + i))))) ∧
    (h.Asks c 0x0A03 r → fld p 0 8 0 < 264 → let g := (h.port (fld p 0 8 0)).glean
      ∃ out, exec (.gleanStatusGet c) s = ok out ∧ out.take 4 = [n32 (g.state + (if g.missing then 8 else 0) + (if h.winnowed (fld p 0 8 0) then 16 else 0)
        + (if h.disc.degraded then 32 else 0) + g.cause * 2 ^ 8 + g.other * 2 ^ 16), n32 h.disc.serial, n32 g.hold, n32 h.disc.livePermille] ∧
        (out.drop 4).take 3 = n64 g.lastTick ++ [n32 g.messages] ∧ out.length = 24) ∧
    (h.Asks c 0x0507 r → ∀ x, h.grp? (fld p 0 12 0) = some x → ∃ out, exec (.groupStatusGet c) s = ok out ∧
      (out.drop 1).take 6 = n64 x.current ++ n64 (armedTotal x.armed) ++ [n32 x.wait, n32 (h.heldCells (fld p 0 12 0) x)] ∧
      fld out 0 2 0 = x.state.code ∧ out.drop 10 = (List.range 16).map (fun i => n32 (tget 0 x.counters i))) ∧
    (h.Asks c 0x0508 r → ∀ x e, h.grp? (fld p 0 12 0) = some x → x.records.find? (fun e => decide (e.1 = wnat p 1 + wnat p 2 * 2 ^ 32)) = some e →
      exec (.generationRecordRead c) s = ok (leWords (e.2.flatMap beBytes))) ∧
    (h.Asks c 0x0508 r → ∀ l e, h.grp? (fld p 0 12 0) = none → tget? h.records (fld p 0 12 0) = some l → l.find? (fun e => decide (e.1 = wnat p 1 + wnat p 2 * 2 ^ 32)) = some e →
      exec (.generationRecordRead c) s = ok (leWords (e.2.flatMap beBytes))) ∧
    (h.Asks c 0x0705 r → fld p 0 3 0 + fld p 0 8 4 ≤ 16 → ∃ out, exec (.threadTrapRead c) s = ok out ∧
      out.take 4 = [n32 h.progs.trapCount, n32 h.progs.tickSkipped, n32 h.progs.discarded, n32 h.progs.sendDrops] ∧
      out.length = 4 + 10 * ((h.progs.traps.drop (fld p 0 3 0)).take (fld p 0 8 4)).length ∧
      ∀ i t, ((h.progs.traps.drop (fld p 0 3 0)).take (fld p 0 8 4))[i]? = some t → out.getD (4 + 10 * i + 2) 0 = n32 t.progId ∧ out.getD (4 + 10 * i + 6) 0 = n32 t.off) ∧
    (h.Asks c 0x0805 r → fld p 0 8 8 = 0 → ∀ x, h.part? (fld p 0 5 0) = some x → wnat p 1 % 4 = 0 → fld p 2 11 0 % 4 = 0 → fld p 2 11 0 ≤ 4064 → wnat p 1 + fld p 2 11 0 ≤ x.recBytes →
      exec (.snapshotRecordRead c) s = ok ([n32 (x.state.code + (if x.buddy then 2 ^ 8 else 0) + x.snapshot * 2 ^ 16), n32 x.job] ++ n64 x.recBytes
        ++ leWords (memReadList 0 x.record (wnat p 1) (fld p 2 11 0))))

/-! ### Firmware, fuses and keys -/

/-- R61 to R65, R68: what the firmware commands do. EVENT_SUBSCRIBE takes the one subscription; FW_FLASH_WRITE writes the slot not running, byte for byte,
and answers the check of its image; FW_BOOT_SLOT_SET of a slot whose image passes makes the flash directory name it; FW_HITLESS_ACTIVATE of an image
whose handover versions fit and that passes its checks starts an activation; LC_NONCE_GET answers the device's identifier and a fresh nonce, which it
keeps. The model's own choices in it: log 9, 10, 18, 115. -/
def Obligations.FirmwareCommands : Prop :=
  ∀ (s : State) (c : Nat) (r : Request), c < 16 →
    let h := s.hw
    let p := r.payload
    let ends (h' : Hw) (out : List Word) : Host.Outcome State Fault Refusal := .next (s.withHw (h'.answered c r stOk 0 out))
    (h.Asks c 0x0004 r → ¬ (fld p 0 8 8 = 1 ∧ fld p 0 7 0 = 0) →
      exec (.eventSubscribe c) s = ends (h.modCtl (fun k => { k with subEid := fld p 0 7 0, subOn := decide (fld p 0 8 8 = 1) })) []) ∧
    (h.Asks c 0x0E01 r → c < 12 → wnat p 2 ≠ 0 → fld p 0 0 0 ≠ h.ctl.runningSlot → wnat p 2 ≤ 2 ^ 24 → memWf 0xFF h.ctl.flash = true →
      let base := 0x100000 + fld p 0 0 0 * 0x1000000
      ∃ f : List Host.Cell, (∀ a, memRead 0xFF f a = if base ≤ a ∧ a < base + wnat p 2 then memRead 0 h.ctl.bulk (wnat p 1 + (a - base)) else memRead 0xFF h.ctl.flash a) ∧
        let h' := h.modCtl (fun k => { k with flash := f, slotWritten := k.slotWritten.set (fld p 0 0 0) true })
        exec (.fwFlashWrite c) s = ends h' [BitVec.ofNat 32 (h'.imageCheck s.fuses (fld p 0 0 0))]) ∧
    (h.Asks c 0x0E02 r → h.imageCheck s.fuses (fld p 0 0 0) = 0 → memWf 0xFF h.ctl.flash = true → (∀ k, h.dirCopy = some k → h.dirWord k 0 + 1 < 2 ^ 32) →
      ∃ h', exec (.fwBootSlotSet c) s = ends h' [] ∧ h'.bootSlot = fld p 0 0 0 ∧ { h' with ctl := h.ctl } = h ∧
        ∀ a, 0x2000 ≤ a → memRead 0xFF h'.ctl.flash a = memRead 0xFF h.ctl.flash a) ∧
    (h.Asks c 0x0E02 r → h.imageCheck s.fuses (fld p 0 0 0) ≠ 0 →
      exec (.fwBootSlotSet c) s = .next (s.withHw (h.answered c r stImage (h.imageCheck s.fuses (fld p 0 0 0)) []))) ∧
    (h.Asks c 0x0E03 r → let slot := fld p 0 0 0
      let facts := h.imageFacts slot
      facts.2.2.2 ≤ h.ctl.handoverVer → h.ctl.handoverMin ≤ facts.2.2.1 → h.imageCheck s.fuses slot = 0 →
      ∃ h' a, exec (.fwHitlessActivate c) s = .next (s.withHw h') ∧ h'.ctl.activation = some a ∧ a.slot = slot ∧ a.ch = c ∧ a.atTick = none ∧ h'.ctl.standbyReady = false ∧
        h'.ctl.flash = h.ctl.flash ∧ h'.ctl.runningSlot = h.ctl.runningSlot ∧ (h'.chan c).reply = (h.chan c).reply) ∧
    (h.Asks c 0x0E05 r → ∃ nonce : List Byte, nonce.length = 16 ∧
      exec (.lcNonceGet c) s = ends { h with fresh := h.fresh + 1, ctl := { h.ctl with nonce := some nonce } } (leWords s.fuses.deviceUid ++ leWords nonce))

/-- R66 to R70: LC_TRANSITION along a transition of Table 2.17, with a token of the nonce signed by a key of the state it leaves, uses the nonce up and
sets the transition for the next tick; the fuses are as they were until then. A transition the table lacks is refused. The model's own choices in it: log 11, 12. -/
def Obligations.LifeCycleTransition : Prop :=
  ∀ (s : State) (c : Nat) (r : Request), c < 16 → s.hw.Asks c 0x0E06 r →
    let p := r.payload
    let bytes := p.flatMap leBytes
    let hash := (bytes.drop 100).take 48
    (∀ target nonce, lcOfCode (wnat p 0) = some target → lcAllowed s.fuses.lc target = true → (s.fuses.lc = .provisioned ↔ hash ≠ List.replicate 48 0) → s.hw.ctl.nonce = some nonce →
      (let keys := if s.fuses.lc = .manufacture ∨ s.fuses.lc = .provisioned
        then (List.range 4).filterMap (fun i => if s.fuses.revoked.getD i true then none else s.fuses.keyHashes[i]?) else [s.fuses.ownerHash]
       keys.any (fun k => signedBy k (sha384 (s.fuses.deviceUid ++ leBytes (w32 target.code) ++ nonce)) (beNat ((bytes.drop 4).take 48)) (beNat ((bytes.drop 52).take 48)))) →
      exec (.lcTransition c) s = .next (s.withHw ((s.hw.modCtl (fun k => { k with
        nonce := none, lcTarget := some target, lcFrom := s.fuses.lc, lcTick := s.hw.time.tick + 1, lcHash := hash })).answered c r stOk 0 []))) ∧
    (∀ target, lcOfCode (wnat p 0) = some target → lcAllowed s.fuses.lc target = false →
      exec (.lcTransition c) s = .next (s.withHw (s.hw.answered c r stLifecycle s.fuses.lc.code [])))

/-- R69: ANTI_ROLLBACK_ADVANCE blows the field up to a value above it that neither the running image's SECURITY_VERSION nor a valid other slot's lies
below, at most 64, and answers it; a value not above the field changes nothing, and any other is refused with ROLLBACK and changes nothing. R62, R66,
R69: what is blown stays blown. Whatever command runs, in whatever state, only ANTI_ROLLBACK_ADVANCE and LC_TRANSITION_DONE change the fuses: the one
raises the anti-rollback field and nothing else; the other takes the life-cycle state to the one its transition was set for, and may program the
owner-key hash and create or destroy the device keys. -/
def Obligations.AntiRollbackFuses : Prop :=
  (∀ (s : State) (c : Nat) (r : Request), c < 16 → s.hw.Asks c 0x0E07 r →
     let new := wnat r.payload 0
     let other := 1 - s.hw.ctl.runningSlot
     let may := new ≤ s.hw.ctl.secVersion ∧ new ≤ 64 ∧ s.hw.imageCheck s.fuses other = 0 ∧ new ≤ (s.hw.imageFacts other).2.1
     (s.fuses.antiRoll < new → may → exec (.antiRollbackAdvance c) s = .next { s with
       fuses := { s.fuses with antiRoll := new }, hw := s.hw.answered c r stOk 0 [BitVec.ofNat 32 new] }) ∧
     (new ≤ s.fuses.antiRoll → exec (.antiRollbackAdvance c) s = .next (s.withHw (s.hw.answered c r stOk 0 [BitVec.ofNat 32 s.fuses.antiRoll]))) ∧
     (s.fuses.antiRoll < new → ¬ may → exec (.antiRollbackAdvance c) s = .next (s.withHw (s.hw.answered c r stRollback s.fuses.antiRoll [])))) ∧
  (∀ (i : Instr) (s t : State), exec i s = .next t → t.fuses ≠ s.fuses →
     (∃ c, i = .antiRollbackAdvance c ∧ s.fuses.antiRoll < t.fuses.antiRoll ∧ t.fuses.antiRoll ≤ 64 ∧ t.fuses = { s.fuses with antiRoll := t.fuses.antiRoll }) ∨
     (i = .lcTransitionDone ∧ s.hw.ctl.lcTarget = some t.fuses.lc ∧
       t.fuses = { s.fuses with lc := t.fuses.lc, deviceKeys := t.fuses.deviceKeys, ownerHash := t.fuses.ownerHash } ∧
       (t.fuses.ownerHash ≠ s.fuses.ownerHash → s.fuses.lc = .provisioned ∧ t.fuses.lc = .inService)))

/-- R63 to R65: the standby processor becomes ready, and an activation then takes the later of its target and the second tick after as its handover tick;
at that tick, in HANDOVER, the processors change roles, the slot's image is what runs, and the asking channel has its response; where the standby is
not ready within 64,000 base intervals the activation ends, and is answered INTERNAL. The model's own choices in it: log 19, 20, 116. -/
def Obligations.FirmwareHandover : Prop :=
  ∀ (s : State) (a : Activation), s.hw.ctl.activation = some a →
    let k := s.hw.ctl
    ((k.phase = .running ∨ k.phase = .handover) → s.hw.isFenced (unitNo 11 (1 - k.activeMp)) = false → s.hw.faults.mpLost = false → k.mirror.isSome = true → a.atTick = none →
      (∀ e ∈ k.chans, ∀ d, e.2.due = some d → d.tick ≠ max a.target (s.hw.time.tick + 2)) →
      exec .standbyReadySet s = .next (s.withHw (s.hw.modCtl (fun k => { k with
        standbyReady := true, activation := some { a with atTick := some (max a.target (s.hw.time.tick + 2)) } })))) ∧
    (∀ t, a.atTick = some t → k.phase = .handover → t ≤ s.hw.time.tick →
      ∃ h, exec .fwHandover s = .next (s.withHw h) ∧ h.ctl.activeMp = 1 - k.activeMp ∧ h.ctl.phase = .running ∧ h.ctl.activation = none ∧ h.ctl.standbyReady = false ∧
        h.ctl.runningSlot = a.slot ∧ h.ctl.fwVersion = (s.hw.imageFacts a.slot).1 ∧
        ∀ r, (s.hw.chan a.ch).cur = some r → r.latched = false → (h.chan a.ch).reply = some (response r stOk 0 (le64 t))) ∧
    (a.atTick = none → a.started + 64000 ≤ s.hw.time.base →
      ∃ h, exec .fwActivateTimeout s = .next (s.withHw h) ∧ h.ctl.activation = none ∧ h.ctl.standbyReady = false ∧ h.ctl.runningSlot = k.runningSlot ∧
        ∀ r, (s.hw.chan a.ch).cur = some r → (h.chan a.ch).reply = some (response r 0x00FF 0xE02 []))

/-- R62, R66, R69: an invariant that every step keeps, from every state that has it: the anti-rollback field names at most its 64 bits, and there are four
image-key hashes' revoke bits; and a step never lowers the field. -/
def Obligations.FusesStayLegal : Prop :=
  ∀ (s t : State), s.FusesLegal → step s = .next t → t.FusesLegal ∧ s.fuses.antiRoll ≤ t.fuses.antiRoll ∧ t.fuses.revoked = s.fuses.revoked

/-! ### The time base -/

/-- R75, R77, R78, R86, R88: what the events of the time base do. A TICK_IN edge is noted, and measured where TICK_IN is the active source; an active
source no longer usable is left for the first usable one or for holdover (0xF), with a C0 occurrence and TICK_SOURCE_CHANGED; 16 misaligned ticks
raise TICK_ALIGN_LOST and end the lock; 64 ticks without a marker make a port's markers count anew and skip its audit; a complex's frame overrun of 64
ticks is told once. R76, R88, R107: a tick marker that passes its CRC-32 and names this part's multiplier in sequence takes the place of the last one
of its port: its tick number, its arrival counted from the edge of the local tick of that number, one more marker in the run of valid ones, and, from
a neighbour that is in plan and awake, the partner's packet counts where the partner sends them; one that fails its check is counted and reported as
MARKER_ERROR, and nothing of it is taken. The model's own choices in it: log 69, 70, 120, 121. -/
def Obligations.TimeBaseEventsAndMarkers : Prop :=
  (∀ (s : State),
     let h := s.hw
     let t := h.time
     (∀ phase, h.powered = true → ∃ h', exec (.tickInEdge phase) s = .next (s.withHw h') ∧ h'.time.tickInGot = true ∧
       (t.isActive 2 0 = false → h' = h.modTime (fun t => { t with tickInGot := true })) ∧ (t.isActive 2 0 = true → h'.time.offsetPs = phase)) ∧
     (∀ src, t.sources[t.active]? = some src → h.sourceUsable src = false → ∃ h', exec .tickSourceLost s = .next (s.withHw h') ∧ h'.time.active = h.firstSource ∧
       h'.time.tick = t.tick ∧ h.Tells h' 0x0102 ∧
       (h.firstSource = 0xF → h'.time.lockState = 3) ∧ (h'.faults.src 0x102).c0Occ = (h.faults.src 0x102).c0Occ + 1) ∧
     (16 ≤ t.misaligned → ∃ h', exec .tickAlignLost s = .next (s.withHw h') ∧ h'.time.misaligned = 0 ∧ h'.time.lockState = (if t.lockState = 2 then 1 else t.lockState) ∧
       (h'.faults.src 0x103).c0Occ = (h.faults.src 0x103).c0Occ + 1) ∧
     (t.misaligned < 16 → exec .tickAlignLost s = .next s) ∧
     (∀ p, p < 264 → 64 ≤ (h.port p).link.markerMiss →
       exec (.markerTimeout p) s = .next (s.withHw (h.modLink p (fun k => { k with markerRun := 0, auditSkip := true })))) ∧
     (∀ x, x < 144 → 64 ≤ (h.cx x).overrunRun → (h.cx x).overrunTold = false →
       exec (.frameOverrunPersistent x) s = .next (s.withHw ((h.modCx x (fun y => { y with overrunTold := true })).raise 0x0104 [BitVec.ofNat 32 (x + (h.cx x).overrunGroup * 2 ^ 16)])))) ∧
  (∀ (s : State) (p rx : Nat) (u : List Word), p < 264 → s.hw.inLehr = false → (s.hw.port p).link.up = true →
     let k := (s.hw.port p).link
     let good := crc32 ((u.take 15).flatMap beBytes) = wnat u 15 ∧ fld u 0 21 16 ∈ [1, 2, 4, 8, 16, 32]
     (good → fld u 0 21 16 = s.hw.time.mult → (∀ m, k.markerTick = some m → 1 ≤ (wnat u 1 + 2 ^ 32 - m) % 2 ^ 32 ∧ (wnat u 1 + 2 ^ 32 - m) % 2 ^ 32 ≤ k.markerMiss + 1) →
       ∃ h, exec (.tickMarkerReceive p u rx) s = .next (s.withHw h) ∧
         let k' := (h.port p).link
         k'.markerTick = some (wnat u 1) ∧ k'.markerRx = ((((s.hw.time.tick : Int) - wnat u 1) * (8192 * s.hw.time.mult) + rx) % 2 ^ 32).toNat ∧ k'.markerGot = true ∧ k'.markerMiss = 0 ∧
         k'.markerRun = min 4 (k.markerRun + 1) ∧ k'.auditSkip = false ∧
         k'.partnerSent = (if (s.hw.port p).glean.state = 3 ∧ (s.hw.port p).lanes.rxAsleep = false ∧ fld u 5 1 1 = 1 then some (wnat u 1, (List.range 4).map (fun c => wnat u (6 + c))) else none)) ∧
     (¬ good → ∃ h, exec (.tickMarkerReceive p u rx) s = .next (s.withHw h) ∧ h.time.markerErrors = min (s.hw.time.markerErrors + 1) (2 ^ 32 - 1) ∧
       (h.port p).link.markerTick = k.markerTick ∧ (h.port p).link.markerRun = k.markerRun ∧ (h.faults.src 0x106).c0Occ = (s.hw.faults.src 0x106).c0Occ + 1))

/-! ### The datapath and the mesh -/

/-- R117 to R119, R132, R204: a packet stored whole at a port that is up is checked in the order of Table 5.1. LINKMGMT and GLEAN packets go to the link
layer and to discovery; any other takes a buffer of the port's home, or is dropped and counted where there is none; a failed link check, a blind port,
a job not admitted or a red meter drops it; what passes is marked with the injection epoch and goes on by its type. R120 to R122: a unicast packet
goes to the port its rank's entry names where the entry names this switch, and else by the forwarding table of the epoch, through a next-hop set where
the entry names one; an absent entry or an empty set drops it as UNROUTED, a winnowed port as WINNOWED. A hashed class takes the live member that
CRC-32 of job, source, destination and seed picks; a sprayed one takes a live member. The model's own choices in it: log 13, 109, 127. -/
def Obligations.PacketIngressAndRoute : Prop :=
  (∀ (s : State) (p : Nat) (k : Pkt), p < 264 → s.hw.inLehr = false → (s.hw.port p).link.up = true →
     let h := s.hw.arrive p k
     let c := h.home p
     let run := exec (.packetReceive p k) s
     (k.ptype = 6 → run = .next (s.withHw (h.recvParams p k))) ∧
     (k.ptype = 5 → run = .next (s.withHw (h.recvGlean s.fuses.deviceUid p k))) ∧
     (k.ptype ≠ 5 → k.ptype ≠ 6 → h.linkCheck p k = some 12 → run = .next (s.withHw ((h.count p 12).freeCells p k.cls k.cells))) ∧
     (k.ptype ≠ 5 → k.ptype ≠ 6 → h.linkCheck p k ≠ some 12 →
       (h.allocIngress p k = none → run = .next (s.withHw ((h.count p (if h.moveWindow p then 32 else 12)).freeCells p k.cls k.cells))) ∧
       (∀ h' b, h.allocIngress p k = some (h', b) →
         (∀ i, h.linkCheck p k = some i → run = .next (s.withHw (h'.dropAt p c b i))) ∧
         (h.linkCheck p k = none → (h'.port p).glean.state = 4 → run = .next (s.withHw (h'.dropAt p c b 16))) ∧
         (h.linkCheck p k = none → (h'.port p).glean.state ≠ 4 → h'.admits p k.job = false → run = .next (s.withHw (h'.dropAt p c b 17))) ∧
         (h.linkCheck p k = none → (h'.port p).glean.state ≠ 4 → h'.admits p k.job = true → ∀ h'', h'.meterCheck p k = (h'', none) → run = .next (s.withHw (h''.dropStored c b (ingressOwner p)))) ∧
         (h.linkCheck p k = none → (h'.port p).glean.state ≠ 4 → h'.admits p k.job = true → ∀ h'' k', h'.meterCheck p k = (h'', some k') →
           run = .next (s.withHw ((h''.modBuf c b (fun x => { x with pkt := k'.setEpoch h''.mesh.injEpoch })).ingressOn p c b (k'.setEpoch h''.mesh.injEpoch))))))) ∧
  (∀ (h : Hw) (e p : Nat) (k : Pkt),
     let at_ (q : Nat) : Nat ⊕ Nat := if h.winnowed q then .inl 20 else .inr q
     (h.rankEntry k.job k.dst = none → h.route e p k = (h, .inl 19)) ∧
     (∀ q, h.rankEntry k.job k.dst = some (h.disc.switchNo, q) → h.route e p k = (h, at_ q)) ∧
     (∀ sw q, h.rankEntry k.job k.dst = some (sw, q) → sw ≠ h.disc.switchNo →
       (tget? h.mesh.fwd (e * 4096 + sw) = none → h.route e p k = (h, .inl 19)) ∧
       (∀ out, tget? h.mesh.fwd (e * 4096 + sw) = some (1, out) → h.route e p k = (h, at_ out)) ∧
       (∀ n, tget? h.mesh.fwd (e * 4096 + sw) = some (2, n) → 2 ≤ k.cls →
         let set := tget ({} : NextHop) h.mesh.nexthop (e * 4096 + n)
         let live := set.members.filter (fun m => ! h.winnowed m)
         (live = [] → h.route e p k = (h, .inl 19)) ∧
         (live ≠ [] → h.route e p k = (h, .inr (live.getD (flowMember k.job k.src (if k.mcast then k.sheaf else k.dst) set.seed live.length) 0)))) ∧
       (∀ n, tget? h.mesh.fwd (e * 4096 + sw) = some (2, n) → k.cls < 2 →
         let live := (tget ({} : NextHop) h.mesh.nexthop (e * 4096 + n)).members.filter (fun m => ! h.winnowed m)
         (live = [] → h.route e p k = (h, .inl 19)) ∧ (live ≠ [] → ∃ h' m, m ∈ live ∧ h.route e p k = (h', .inr m)))))

/-- R127, R135, R143: EGRESS_STORE takes the first arrival at the head of its virtual channel that can be stored and stores it for its ports;
LOCAL_HANDOFF passes the first buffer that can be handed over, in its order, to the ports homed at its complex: its cells are freed, it leaves the
reserve, and an entry is delivered at each port. A TC3 packet in a reserve that finds no free shared buffer is dropped for every port and counted
EGRESS_NO_BUFFER. Where nothing can go, nothing changes. The model's own choices in it: log 13, 15, 101, 128, 129. -/
def Obligations.EgressStoreAndHandoff : Prop :=
  ∀ (s : State) (c : Nat), c < 144 →
    let h := s.hw.releaseMoved c
    let x := s.hw.cx c
    (∀ mp, (h.cx c).arrivals.find? (fun mp => aheadOf (h.cx c).arrivals mp && h.canStore c mp) = some mp →
      exec (.egressStore c) s = .next (s.withHw ((h.modCx c (fun x => { x with arrivals := x.arrivals.erase mp })).storeArrival c mp))) ∧
    ((h.cx c).arrivals = [] → exec (.egressStore c) s = .next (s.withHw h)) ∧
    (∀ ptr ports b, x.handoff = [(ptr, ports)] → s.hw.buf? c ptr = some b → s.hw.ptrOk c ptr = true → x.inject = [] →
      (∀ q ∈ portsOf ports, (s.hw.port q).move = .none ∧ s.hw.home q = c ∧ (s.hw.port q).movedWait = [] ∧ s.hw.reinjecting q = false ∧ s.hw.winnowed q = false ∧ s.hw.isV16 q = false) →
      portsOf ports ≠ [] →
      let h1 := s.hw.modCx c (fun x => { x with handoff := [] })
      let h2 := if b.ingress < 264 then h1.freeCells b.ingress b.pkt.cls b.pkt.cells else h1
      (b.pkt.cls ≠ 3 → (b.reserve = false ∨ 0 < x.free b.cls false) → (∀ q ∈ portsOf ports, s.hw.roomFor q b.pkt = true) →
        exec (.localHandoff c) s = .next (s.withHw ((h2.modBuf c ptr (fun b => { b with reserve := false, ingress := 511 })).deliverAll c ptr (portsOf ports) b.pkt))) ∧
      (b.pkt.cls ≠ 3 → (∃ q ∈ portsOf ports, s.hw.roomFor q b.pkt = false) → exec (.localHandoff c) s = .next s) ∧
      (b.pkt.cls = 3 → b.reserve = true → x.free b.cls false = 0 →
        exec (.localHandoff c) s = .next (s.withHw (((portsOf ports).foldl (fun h q => h.count q 24) h1).dropInjected c ptr b.holder)))) ∧
    (x.handoff = [] → exec (.localHandoff c) s = .next s)

/-- R137 to R140: the resequencer of a port delivers, at the gap's release, what a flow holds whose oldest packet has waited two slot starts, from the
smallest held number on, and counts the gap; it forgets a flow with nothing held and nothing arrived for 128 slot starts, and keeps every other. -/
def Obligations.ResequencerTimeouts : Prop :=
  ∀ (s : State) (p : Nat), p < 264 →
    let h := s.hw
    let now := h.time.tick * 128 + h.time.slot
    (exec (.reseqEntryExpire p) s = .next (s.withHw (h.modPort p (fun x => { x with flows := x.flows.filter (fun f => decide (f.held ≠ [] ∨ now < f.lastSlot + 128) ) })))) ∧
    ((∀ f ∈ (h.port p).flows, ∀ d rest, f.held = d :: rest → now < d.slot + 2) → exec (.reseqGapRelease p) s = .next s) ∧
    (∀ f d, (h.port p).flows = [f] → f.held = [d] → d.slot + 2 ≤ now → d.seq < 2 ^ 16 → f.expected < 2 ^ 16 →
      ∃ h', exec (.reseqGapRelease p) s = .next (s.withHw h') ∧ ∃ f', (h'.port p).flows = [f'] ∧ f'.held = [] ∧ f'.expected = (d.seq + 1) % 2 ^ 16)

/-- R145, R178: at E4 of the tick after it began, an orderly move makes the other home the port's home, with what is queued injected again toward it, and
advertises its limits; before that tick, and at no other slot, nothing moves. A fenced complex whose address is mapped to it is replaced by a free
tiller of its SCD in the other epoch, which is set to flip in at the first eligible tick; without a free tiller its address is unmapped at once, and
that is told as spare exhaustion. R164, R165, R173: at an E3 after the flip's tick whose E1 latched the old epoch's counter as zero, reason FLIP
clears and EPOCH_DRAINED is raised with the ticks it took; the mesh is in the bubble regime while and only while a reason is set; a drain that lasts
SLOW_TICKS is told once. At any other slot nothing happens. The model's own choices in it: log 35, 36, 45, 98, 125, 129, 132. -/
def Obligations.MovesSubstitutesAndDrains : Prop :=
  (∀ (s : State),
     let h := s.hw
     (∀ p start alt, p < 264 → (h.port p).move = .orderly start alt → h.time.slot = 0 → start + 1 ≤ h.time.tick →
       let h' := h.handoverOrderly p alt
       exec (.portMoveHandover p) s = .next (s.withHw h') ∧ (h'.port p).atAlt = alt ∧ (h'.port p).move = .none ∧ (h'.port p).withhold = false ∧ (h'.port p).window = true ∧
         h'.home p = if alt then alternateHome p else primaryHome p) ∧
     (∀ p start alt, p < 264 → (h.port p).move = .orderly start alt → h.time.tick < start + 1 ∨ h.time.slot ≠ 0 → exec (.portMoveHandover p) s = .next s) ∧
     (∀ c, c < 128 → (h.cx c).attach ≠ .serving → locCx (h.locate h.mesh.injEpoch c) = c → c ∉ h.mesh.unmapped →
       let t (i : Nat) := 128 + 2 * cxScd c + i
       let free (i : Nat) : Prop := (h.cx (t i)).attach = .serving ∧ (h.cx (t i)).tillerOf = none
       (∀ i, (i = 0 ∧ free 0) ∨ (i = 1 ∧ ¬ free 0 ∧ free 1) → h.mesh.flipping = false → h.mesh.flipNext = none →
         ∃ h', exec (.tillerSubstitute c) s = .next (s.withHw h') ∧ (h'.cx (t i)).tillerOf = some c ∧
         h'.mesh.flipNext = some (1 - h.mesh.injEpoch) ∧ h'.mesh.flipAt = h.firstEligible h.slotNow ∧
         h'.locate (1 - h.mesh.injEpoch) c = (tileCx (cxScd c) (if i = 0 then 5 else 10), 1 + i) ∧ h'.mesh.injEpoch = h.mesh.injEpoch ∧ h'.mesh.unmapped = h.mesh.unmapped) ∧
       (free 0 ∨ free 1 → h.mesh.flipping = true ∨ h.mesh.flipNext ≠ none → exec (.tillerSubstitute c) s = .next s) ∧
       (¬ free 0 → ¬ free 1 →
         exec (.tillerSubstitute c) s = .next (s.withHw ((h.modMesh (fun m => { m with unmapped := m.unmapped ++ [c] })).tellExhausted 3 (cxScd c)))))) ∧
  (∀ (s : State),
     let h := s.hw
     let m := h.mesh
     let ev : Hw := (h.modMesh (fun m => { m with reasons := m.reasons &&& ~~~2, drainDone := h.time.tick })).raise 0x0302
       [BitVec.ofNat 32 (1 - m.injEpoch + (h.time.tick - m.flipTick) * 2 ^ 8)]
     (h.time.slot = 0 → m.flipping = true → m.flipTick < h.time.tick → m.drainCount = 0 →
       exec .epochDrained s = .next (s.withHw ev.settleRegime) ∧ h.Tells ev 0x0302 ∧ ev.settleRegime.mesh.reasons = m.reasons &&& ~~~2 ∧ ev.settleRegime.mesh.drainDone = h.time.tick ∧
       ev.settleRegime.mesh.regimeBubble = decide (m.reasons &&& ~~~2 ≠ 0) ∧ ev.settleRegime.mesh.injEpoch = m.injEpoch) ∧
     (h.time.slot = 0 → m.flipping = false ∨ h.time.tick ≤ m.flipTick ∨ m.drainCount ≠ 0 →
       ∃ h', exec .epochDrained s = .next (s.withHw h') ∧ h'.mesh.reasons = m.reasons ∧ h'.mesh.regimeBubble = decide (m.reasons ≠ 0) ∧ h'.mesh.drainDone = m.drainDone) ∧
     (h.time.slot = 0 → m.flipping = true → m.flipTick + m.slowTicks ≤ h.time.tick → m.drainCount ≠ 0 → m.slowTold = false →
       exec .epochDrainSlow s = .next (s.withHw ((h.modMesh (fun m => { m with slowTold := true })).raise 0x0303 [BitVec.ofNat 32 (1 - m.injEpoch + m.drainCount * 2 ^ 8)]))) ∧
     (h.time.slot ≠ 0 → exec .epochDrained s = .next s ∧ exec .epochDrainSlow s = .next s) ∧
     (m.slowTold = true → exec .epochDrainSlow s = .next s))

/-- R154 to R156: the next flit on a link arrives. While a resend is awaited every other flit is discarded. A flit that fails a check is named for a
resend, up to three times, and every flit sent from it on comes again; at the fourth failure the receiving router is fenced. One that is good goes
into the buffer of its virtual channel, which the first of a mesh packet takes, and the next number is expected. R157, R159, R161: a mesh packet in a
virtual channel makes the hop it needs when that is ready and no other buffer precedes, and its buffer is free when no hop is left and the tail of
every copy has left; a unicast goes by x and then by y, the shorter way round each ring, and ends at its attachment; one with a bad header is
discarded once its tail is there, counted MESH_HEADER_BAD, and reported. The model's own choices in it: log 15, 130. -/
def Obligations.MeshFlitsAndHops : Prop :=
  (∀ (s : State) (r d : Nat), r < 128 → d < 4 →
     let h := s.hw.sendFlits 8 r d
     let i := h.linkIn r d
     (i.wire = [] → ∀ ok, exec (.meshFlitReceive r d ok) s = .next (s.withHw h)) ∧
     (∀ f rest, i.wire = f :: rest →
       let taken := h.modIn r d (fun i => { i with wire := rest })
       let awaited := i.nak.all (fun n => decide (n = f.fseq))
       (awaited = false → ∀ ok, exec (.meshFlitReceive r d ok) s = .next (s.withHw taken)) ∧
       (awaited = true → i.resent < 3 → ∃ h', exec (.meshFlitReceive r d false) s = .next (s.withHw h') ∧
         h'.linkIn r d = { i with nak := some f.fseq, resent := i.resent + 1, wire := rest ++ i.kept.dropWhile (fun k => k.fseq ≠ f.fseq) } ∧
         (h'.faults.src 0x301).c0Occ = (h.faults.src 0x301).c0Occ + 1 ∧ (h'.router r).vcs = (h.router r).vcs) ∧
       (awaited = true → 3 ≤ i.resent → exec (.meshFlitReceive r d false) s = .next (s.withHw ((taken.report 0x302 1 (unitNo 5 r) 2).fence (unitNo 5 r) 0x302))) ∧
       (awaited = true → ∃ h', exec (.meshFlitReceive r d true) s = .next (s.withHw h') ∧
         (h'.linkIn r d).expect = (f.fseq + 1) % 32 ∧ (h'.linkIn r d).nak = none ∧ (h'.linkIn r d).resent = 0 ∧
         (f.idx = 0 → tget? (h'.router r).vcs (8 * d + f.vc) = some { mp := f.mp }) ∧
         (f.idx ≠ 0 → ∀ b, tget? (h.router r).vcs (8 * d + f.vc) = some b → tget? (h'.router r).vcs (8 * d + f.vc) = some { b with got := b.got + 1 })))) ∧
  ((∀ (s : State) (r i v : Nat) (b : VcBuf), r < 128 → v < 8 → tget? (s.hw.router r).vcs (8 * i + v) = some b → b.done = false →
     let h := s.hw
     let key := 8 * i + v
     (b.mp.headerOk = true → ∀ q, h.hopsOf r b.mp = [q] → h.hopReady r i v b q = true → h.beaten r key b.mp q.output = false →
       let h' := h.makeHop r i v q
       exec (.meshPacketRoute r i v) s = .next (s.withHw
         (if (tget? (h'.router r).vcs key).any (fun b => decide (b.busy = 0)) then h'.freeVc r key else h'.modVc r key (fun b => { b with done := true })))) ∧
     (b.mp.headerOk = true → (∀ q ∈ h.hopsOf r b.mp, h.hopReady r i v b q = false) → h.hopsOf r b.mp ≠ [] →
       exec (.meshPacketRoute r i v) s = .next (s.withHw (h.modVc r key (fun b => { b with
         mp := if b.mp.kind = 2 ∨ b.mp.kind = 4 then (remainder b.mp (h.hopsOf r b.mp)).seal else b.mp })))) ∧
     (b.mp.headerOk = false → b.mp.flits ≤ b.got → exec (.meshPacketRoute r i v) s = .next (s.withHw (((h.freeVc r key).countRouter r 11).report 0x303 0 (unitNo 5 r)))) ∧
     (b.mp.headerOk = false → b.got < b.mp.flits → exec (.meshPacketRoute r i v) s = .next s)) ∧
   (∀ (h : Hw) (r : Nat) (mp : MeshPkt), h.mesh.fenced = [] → h.mesh.discarding = [] → h.mesh.separation = [] → mp.kind = 1 → mp.detourPath = [] → mp.detour = 0 → r < 128 → mp.dest < 128 →
     h.hopsOf r mp = [if r = mp.dest then .eject mp.attach mp
       else if r % 16 ≠ mp.dest % 16 then .out (if (mp.dest % 16 + 16 - r % 16) % 16 ≤ 8 then 0 else 1) mp
       else .out (if (mp.dest / 16 + 8 - r / 16) % 8 ≤ 4 then 3 else 2) mp]))

/-- R143, R158, R167, R168, R175, R378: an injection entry whose one mesh packet is ready enters the router's input by a free virtual channel of its
class, and the entry is gone; one whose path passes a router being fenced is discarded and counted; a memory node puts its first packet that can go
into its router; a LINE_LEG that is all there takes a relay buffer and is swept on; a relay credit that came back can be spent again. The model's own choices in it: log 97, 131. -/
def Obligations.InjectionAndRelays : Prop :=
  ∀ (s : State) (c : Nat),
    let h := s.hw
    let x := h.cx c
    let input := if c < 128 then 4 else 5
    (∀ mp v rest, c < 144 → x.attach ≠ .detached → h.faults.state ≠ .safe → x.inject = { ptr := none, parts := [mp] } :: rest → h.injectDiscard mp = false →
      h.localVc (cxRouter c) input mp.cls = some v →
      ∃ h', exec (.meshInject c) s = .next (s.withHw h') ∧ tget? (h'.router (cxRouter c)).vcs (8 * input + v) = some { mp := mp, got := mp.flits } ∧ (h'.cx c).inject = rest) ∧
    (∀ mp rest, c < 144 → x.attach ≠ .detached → h.faults.state ≠ .safe → x.inject = { ptr := none, parts := [mp] } :: rest → h.injectDiscard mp = true →
      exec (.meshInject c) s = .next (s.withHw ((h.meshDrop (cxRouter c)).modCx c (fun x => { x with inject := x.inject.eraseIdx 0 })))) ∧
    (c < 144 → x.attach = .detached ∨ h.faults.state = .safe → exec (.meshInject c) s = .next s) ∧
    (∀ mp v rest, 144 ≤ c → c < 152 → h.faults.state ≠ .safe → tget [] h.mesh.nodeOut (cxRouter c) = mp :: rest → h.mesh.discarding = [] → h.localVc (cxRouter c) 5 mp.cls = some v →
      ∃ h', exec (.meshInject c) s = .next (s.withHw h') ∧ tget? (h'.router (cxRouter c)).vcs (40 + v) = some { mp := mp, got := mp.flits } ∧ tget [] h'.mesh.nodeOut (cxRouter c) = rest) ∧
    (∀ mp p, c < 128 → x.attach ≠ .detached → x.relayIn = [mp] → mp.part = 0 → mp.lastPart = true → x.freePtr c 4 = some p → (∀ q ∈ portsOf mp.ports, h.sendHome q ≠ c) →
      maskOf ((routersOf mp.mask).filter (· ≠ c)) ≠ 0 →
      ∃ h', exec (.relaySweep c) s = .next (s.withHw h') ∧ (h'.cx c).relayIn = [] ∧ (∃ b, h'.buf? c p = some b ∧ b.pkt = mp.pkt ∧ b.relay = some (mp.src, mp.cls) ∧ b.refs = 1) ∧
        ∃ e, (h'.cx c).inject = x.inject ++ [e] ∧ e.ptr = some p ∧ ∀ q ∈ e.parts, q.kind = 4 ∧ q.mask = maskOf ((routersOf mp.mask).filter (· ≠ c))) ∧
    (∀ mp rest, c < 144 → x.creditsIn = mp :: rest → exec (.relayCreditReceive c) s = .next (s.withHw (h.modCx c (fun x => { x with
      creditsIn := rest, relayCredits := x.relayCredits.erase (mp.src / 16, mp.creditCls) }))))

/-- R113, R192, R196, R467: PACKET_SELECT of a port whose link runs, with no packet in progress, takes the head of the queue the scheduler selects: it
waits to be framed, and the queue's bucket and the partner's credits are charged with it; in the safe state, with the link down, with a packet in
progress, or with nothing that may go, no packet starts. As a block is framed the scheduler selects again only while what was selected leaves room in
it. The model's own choices in it: log 31, 33. -/
def Obligations.PacketSelected : Prop :=
  (∀ (s : State) (p : Nat), p < 264 → s.hw.inLehr = false →
    let h := s.hw.discardWinnowed p
    let may := (h.port p).link.up = true ∧ h.faults.state ≠ .safe ∧ (s.hw.port p).link.txPkts = []
    (may → ∀ x q, h.selectQueue p = some (x, q) → exec (.packetSelect p) s = .next (s.withHw ((h.setPort p x).takeHead p q))) ∧
    (may → h.selectQueue p = none → exec (.packetSelect p) s = .next (s.withHw h)) ∧
    (¬ may → exec (.packetSelect p) s = .next (s.withHw h))) ∧
  (∀ (h : Hw) p q e rest b, ((h.port p).queue q).entries = e :: rest → h.buf? (h.home p) e.ptr = some b → h.ptrOk (h.home p) e.ptr = true → ownerMatches b.owner (egressOwner p) = true →
    let y := h.port p
    let bytes := y.counted b.pkt
    let h' := h.takeHead p q
    ((h'.port p).queue q).entries = rest ∧ ((h'.port p).queue q).tokens = (y.queue q).tokens - (if (y.queue q).shaper.enable then (bytes : Int) * 65536 else 0) ∧
      (h'.port p).link.held = lmod 0 y.link.held b.pkt.cls (· - (b.pkt.cells : Int)) ∧
      (h'.port p).link.txPkts = y.link.txPkts ++ [{ pkt := b.pkt, rest := b.pkt.unitBytes }]) ∧
  (∀ (h : Hw) p n room, room ≤ ((h.port p).link.txPkts.map (fun t => cdiv t.rest.length 64)).sum → h.selectFor n p room = h)

/-! ### The link layer -/

/-- R102, R105, R106, R108, R109, R110, R113, R118: a block that fails its CRC sets NAK and nothing else; a good one gives its acknowledgement and its
credits, and when it is the SEQUENCED block expected its units are taken and the next one is expected; a sequence number ahead sets NAK and takes no
unit; a repeated one takes none. A NAK asks for a replay where it names another block than the last one acted on, or the timeout has passed since. The
units of one packet, from a good header to its last byte, give that packet. LINK_PARAMS re-bases the credits; a notice tells that the partner sleeps
or makes this end retrain. That the port was UP and its partner returns no more than is outstanding is a premise of the clauses on good blocks. The model's own choices in it: log 27, 29. -/
def Obligations.LinkReception : Prop :=
  (∀ (s : State) (p : Nat) (b : LinkBlock), p < 264 → s.hw.inLehr = false →
    let h := s.hw
    let k := (h.port p).link
    let l := (h.port p).lanes
    l.rxData = true → l.rxAsleep = false → l.state = 2 →
    let run := exec (.linkBlockReceive p b) s
    let cls := if b.pair then 2 else 0
    let dA := (b.freedA + 2 ^ 16 - nth k.lastFreed cls % 2 ^ 16) % 2 ^ 16
    let dB := (b.freedB + 2 ^ 16 - nth k.lastFreed (cls + 1) % 2 ^ 16) % 2 ^ 16
    (b.good = false → run = .next (s.withHw (h.modLink p (fun k => { k with nak := true })))) ∧
    (b.good = true → k.lastFreed.length = 4 → k.outstanding.length = 4 → k.held.length = 4 → dA ≤ nth k.outstanding cls → dB ≤ nth k.outstanding (cls + 1) →
      ∃ h', run = .next (s.withHw h') ∧
        let k' := (h'.port p).link
        (k'.kept = if b.nak || b.ackValid then unacked k.kept b.ackSeq else k.kept) ∧
        k'.held.getD cls 0 = k.held.getD cls 0 + (dA : Int) ∧ k'.held.getD (cls + 1) 0 = k.held.getD (cls + 1) 0 + (dB : Int) ∧
        nth k'.outstanding cls = nth k.outstanding cls - dA ∧ nth k'.outstanding (cls + 1) = nth k.outstanding (cls + 1) - dB ∧
        (b.nak = true → (∀ a t, k.lastNak = some (a, t) → a ≠ b.ackSeq ∨ k.replayTimeout h.time.tick ≤ 64 * (h.quietNow - t)) →
          k'.replayFrom = some ((b.ackSeq + 1) % 2 ^ 16) ∧ k'.lastNak = some (b.ackSeq, h.quietNow)) ∧
        (∀ t, b.nak = true → k.lastNak = some (b.ackSeq, t) → 64 * (h.quietNow - t) < k.replayTimeout h.time.tick → k'.replayFrom = k.replayFrom) ∧
        (b.nak = false → k'.replayFrom = k.replayFrom ∧ k'.lastNak = k.lastNak) ∧
        (b.kind = 1 → b.lseq = k.expect → k'.expect = (k.expect + 1) % 2 ^ 16 ∧ k'.ackValid = true ∧ k'.nak = false) ∧
        (b.kind = 1 → b.lseq ≠ k.expect → k'.expect = k.expect ∧ k'.rxPart = k.rxPart ∧ k'.rxWhole = k.rxWhole ∧
          k'.nak = (k.nak || decide (512 < (k.expect + 2 ^ 16 - b.lseq) % 2 ^ 16 ∨ (k.expect + 2 ^ 16 - b.lseq) % 2 ^ 16 = 0))) ∧
        (b.kind = 2 → k'.expect = k.expect ∧ k'.rxPart = k.rxPart ∧ k'.rxWhole = k.rxWhole ∧ k'.nak = k.nak))) ∧
  (∀ (h : Hw) (p : Nat) (u : List Byte) (us : List (List Byte)), (∀ v ∈ u :: us, v.length = 64) → badHeader u = none →
    let n := fld (beWords (u.take 4)) 0 15 0
    (u :: us).flatten.length = 64 * cdiv (68 + n) 64 → (h.port p).link.rxPart = [] →
    let h' := (u :: us).foldl (fun h v => h.rxUnit p v) h
    (h'.port p).link.rxWhole = (h.port p).link.rxWhole ++ [pktOfBytes (u :: us).flatten] ∧ (h'.port p).link.rxPart = []) ∧
  (∀ (s : State) (p : Nat) (k : Pkt), p < 264 → s.hw.inLehr = false → (s.hw.port p).link.up = true → k.ptype = 6 →
    let h := s.hw.arrive p k
    let w := beWords k.payload
    let limits := (List.range 4).map (fun c => fld w (2 + c) 15 0)
    h.linkCheck p k = none → k.payload.length = 40 → fld w 0 31 24 = 1 → fld w 1 31 16 ≠ 0 → (∀ v ∈ limits, v ≤ 16383) →
    ∃ h', exec (.linkParamsReceive p k) s = .next (s.withHw h') ∧
      let k' := (h'.port p).link
      k'.partnerParams = fld w 1 31 16 ∧ k'.partnerLimit = (limits.set 3 (if nth limits 3 = 0 then 8 else nth limits 3)) ∧
      (∀ c, c < 4 → nth k'.outstanding c = (nth (h.port p).link.sentCells c + 2 ^ 32 - wnat w (6 + c)) % 2 ^ 32 ∧
        k'.held.getD c 0 = (nth k'.partnerLimit c : Int) - (nth k'.outstanding c : Int)) ∧
      k'.freed = addMod (h.port p).link.freed k.cls k.cells) ∧
  (∀ (s : State) (p : Nat) (unit : List Word), p < 264 → s.hw.inLehr = false → (s.hw.port p).link.up = true →
    let h := s.hw.modLink p (fun k => { k with rxNotice := none })
    exec (.linkNoticeReceive p unit) s = .next (s.withHw (match fld unit 0 31 24 with
      | 1 => h.modLanes p (fun l => { l with sleepHeard := true })
      | 2 => h.fastRetrain p false
      | _ => h)))

/-- R104, R107, R110, R111, R467: a port that is up sends a SEQUENCED block with the next sequence number while packets wait and fewer than 512 blocks are
kept, and keeps it; with nothing to send, or in the safe state, it sends a NULL block and keeps nothing. The block says what was accepted last and is
good; its packets are those that the scheduler selects as it is framed. A replay sends the kept blocks from the first asked for, in order, with REPLAY
one and the acknowledgement and credits of now, CREDIT_PAIR alternating; a fourth resend of a block retrains the port. A timeout asks for a replay
from the oldest kept block. The model's own choices in it: log 28, 30, 31, 124. -/
def Obligations.LinkTransmission : Prop :=
  ∀ (s : State) (p : Nat), p < 264 → s.hw.inLehr = false → (s.hw.port p).link.up = true →
    let h := s.hw
    let k := (h.port p).link
    let again (n : Nat) (q : Kept) : Bool := (q.lseq + 2 ^ 16 - n) % 2 ^ 16 < 512
    let g := if k.kept.length < 512 then h.selectFor 64 p (h.roomInBlock p) else h
    let j := (g.port p).link
    ((h.port p).lanes.txAsleep = false → k.replayFrom = none → exec (.linkBlockTransmit p) s = .next (s.withHw (g.sendBlock p)) ∧
      (j.txMgmt = [] → j.lseq < 2 ^ 16 → j.expect < 2 ^ 16 → ∃ b,
        let k' := ((g.sendBlock p).port p).link
        k'.sentBlocks = [b] ∧ b.good = true ∧ b.lseq = j.lseq ∧ b.ackSeq = (j.expect + 2 ^ 16 - 1) % 2 ^ 16 ∧ b.nak = j.nak ∧ b.pair = j.pairBit ∧ b.replay = false ∧ k'.pairBit = ! j.pairBit ∧
        (j.txPkts ≠ [] → j.kept.length < 512 → g.faults.state ≠ .safe → b.kind = 1 ∧ k'.lseq = (j.lseq + 1) % 2 ^ 16 ∧ ∃ q, k'.kept = j.kept ++ [q] ∧ q.blk = b ∧ q.lseq = j.lseq) ∧
        (j.txPkts = [] ∨ 512 ≤ j.kept.length ∨ g.faults.state = .safe → b.kind = 2 ∧ k'.lseq = j.lseq ∧ k'.kept = j.kept ∧ k'.txPkts = j.txPkts))) ∧
    (∀ n, k.replayFrom = some n → (∃ q ∈ k.kept, again n q = true) → (∀ q ∈ k.kept, again n q = true → q.resent < 3) →
      ∃ h', exec (.linkReplay p) s = .next (s.withHw h') ∧
        let k' := (h'.port p).link
        let l := k.kept.filter (again n)
        let acks (i : Nat) : Word × Word := { k with shown := if h.withholds p then k.shown else k.freed, pairBit := k.pairBit ^^ decide (i % 2 = 1) }.ackWords
        k'.sentBlocks.length = l.length ∧ k'.pairBit = (k.pairBit ^^ decide (l.length % 2 = 1)) ∧
        (∀ i (q : Kept), l[i]? = some q → k'.sentBlocks[i]? = some ({ q.blk with h0 := q.blk.h0 ||| w32 (2 ^ 29), h1 := (acks i).1, h2 := (acks i).2 } : LinkBlock).seal) ∧
        k'.kept = k.kept.map (fun q => if again n q then { q with resent := q.resent + 1 } else q) ∧ k'.replayFrom = none ∧
        (h'.faults.src 0x901).c0Occ = (h.faults.src 0x901).c0Occ + 1) ∧
    (∀ n q, k.replayFrom = some n → q ∈ k.kept → again n q = true → 3 ≤ q.resent →
      exec (.linkReplay p) s = .next (s.withHw (((h.modLink p (fun k => { k with replayFrom := none })).report 0x902 1 (unitNo 14 p) 3).fastRetrain p true))) ∧
    (∀ q rest, (h.port p).lanes.rxAsleep = false → k.kept = q :: rest →
      ∃ h', exec (.replayTimeout p) s = .next (s.withHw h') ∧ (h'.port p).link = { k with lastNak := none, replayFrom := some q.lseq })

/-! ### Lanes, lasers and discovery -/

/-- R408 to R410, R412 to R414, R416 to R418: a good training frame is counted on its channel and gives the partner's readiness and map, one with this
end's own nonce is a loop, one of another mode is counted; a channel is ready while it is measured at its target; a port whose two ends are ready
starts data and is UP with the first block; with no channel ready at the time limit it waits to retry, and then brings itself up afresh. A FAST
retrain keeps what the link layer kept; one that does not end in time, or the loss of every channel, makes the port absent. The model's own choices in it: log 66, 68. -/
def Obligations.PortTraining : Prop :=
  (∀ (s : State) (p ch : Nat) (f : List Word), p < 264 → s.hw.inLehr = false →
    let h := s.hw
    let l := (h.port p).lanes
    let run := exec (.trainingFrameReceive p ch f) s
    ch < chanCount l → ch ∉ l.fenced → frameGood f = true → l.state = 1 →
    (fld f 0 20 20 ≠ b2n (h.isV16 p) → run = .next (s.withHw (h.countLane p 7))) ∧
    (fld f 0 20 20 = b2n (h.isV16 p) → wnat f 2 = l.nonce → l.loopMode = 0 → ∃ h', run = .next (s.withHw h') ∧ (h'.port p).lanes.looped = true ∧ (h'.port p).lanes.allReady = false) ∧
    (fld f 0 20 20 = b2n (h.isV16 p) → wnat f 2 ≠ l.nonce → ∃ h', run = .next (s.withHw h') ∧
      let l' := (h'.port p).lanes
      (l'.chan ch).frames = min 3 ((l.chan ch).frames + 1) ∧ (l'.chan ch).partnerReady = decide (fld f 0 19 19 = 1) ∧ l'.partnerAll = decide (fld f 0 18 18 = 1) ∧
      l'.txMap = (if mapWidth (mapOfWord (wnat f 1)) ≠ 0 then mapOfWord (wnat f 1) else l.txMap) ∧ l'.rxMap = l.rxMap ∧ l'.state = 1)) ∧
  (∀ (s : State) (p ch fom : Nat), p < 264 → s.hw.inLehr = false →
    let h := s.hw
    let l := (h.port p).lanes
    ch < chanCount l → ch ∉ l.fenced →
    (l.state = 1 → 3 ≤ (l.chan ch).frames → fomTarget l ≤ fom → ∃ h', exec (.adaptStep p ch fom) s = .next (s.withHw h') ∧ ((h'.port p).lanes.chan ch).ready = true ∧
      ((h'.port p).lanes.chan ch).fom = min fom 255 ∧ (h'.port p).lanes.allReady = (h'.port p).lanes.readyNow) ∧
    (l.state = 1 → 3 ≤ (l.chan ch).frames → fom < fomTarget l → ∃ h', exec (.adaptStep p ch fom) s = .next (s.withHw h') ∧ ((h'.port p).lanes.chan ch).ready = false) ∧
    (l.state = 1 → (l.chan ch).frames < 3 → exec (.adaptStep p ch fom) s = .next s)) ∧
  (∀ (s : State) (p : Nat), p < 264 → s.hw.inLehr = false →
    let h := s.hw
    let l := (h.port p).lanes
    (l.state = 1 ∨ l.state = 3 → l.allReady = true → l.partnerAll = true → ∃ h', exec (.readyCountdownEnd p) s = .next (s.withHw h') ∧ (h'.port p).lanes.txData = true ∧
      if l.rxData && l.heardBlock then (h'.port p).lanes.state = 2 ∧ (h'.port p).link.up = true ∧ (h'.port p).absent = false else (h'.port p).lanes.state = l.state) ∧
    (l.allReady = false ∨ l.partnerAll = false → exec (.readyCountdownEnd p) s = .next s) ∧
    (l.state = 1 → (∀ i, i < chanCount l → (l.chan i).ready = false) → ∃ h', exec (.trainTimeout p) s = .next (s.withHw h') ∧ (h'.port p).lanes.state = 5 ∧ h.Tells h' 0x0903) ∧
    (∀ f sp, l.state = 1 → (List.range (chanCount l)).find? (fun i => decide (l.rxMap.getD i 7 < 4) && ! (l.chan i).ready) = some f →
      (List.range (chanCount l)).find? (fun i => decide (l.rxMap.getD i 7 = 6) && (l.chan i).ready && ! l.fenced.contains i) = some sp →
      ∃ h', exec (.trainTimeout p) s = .next (s.withHw h') ∧ (h'.port p).lanes.rxMap = (l.rxMap.set f 7).set sp (l.rxMap.getD f 7)) ∧
    (l.state = 5 → ∃ h', exec (.retryExpiry p) s = .next (s.withHw h') ∧ (h'.port p).lanes.state = (if (l.next.getD l.cfg).enable then 1 else 0) ∧ (h'.port p).lanes.rxMap = startMap l ∧
      (h'.port p).link = {}) ∧
    (l.state = 3 → exec (.retrainLimitExpiry p) s = .next (s.withHw (h.linkLost p 2))) ∧
    (l.state = 2 → l.sleepHeard = false → exec (.allChannelsLost p) s = .next (s.withHw (h.linkLost p 3))) ∧
    (l.state = 2 → ∀ must, let x := (h.fastRetrain p must).port p
      x.lanes.state = 3 ∧ x.link.up = false ∧ x.link.sendNotice = 2 ∧ x.link.kept = (h.port p).link.kept ∧ x.link.lseq = (h.port p).link.lseq ∧ x.link.expect = (h.port p).link.expect) ∧
    ∀ cause, let x := (h.linkLost p cause).port p
      x.absent = true ∧ x.link = {} ∧ x.glean.state = 0 ∧ x.lanes.state = if (l.next.getD l.cfg).enable then 1 else 0)

/-- R107, R415, R416, R421, R425 to R427: the loss of a mapped channel starts a FAST retrain, or is the partner's sleep when its TX_SLEEP notice has been
heard; a channel 64 ticks low is told once; an idle port that may sleep sends its notice in a NULL block, and wakes with work; a receiver wakes with
its settings and retrains where one falls short. The input of an enabled module that LASER_CONTROL is not releasing becomes LIVE, and is told when it
does not in time; a lost input fences the module and takes its PE's ports when the other is lost too. The model's own choices in it: log 5, 65. -/
def Obligations.LaneAndLaserEvents : Prop :=
  (∀ (s : State) (p ch : Nat), p < 264 → s.hw.inLehr = false →
    let h := s.hw
    let l := (h.port p).lanes
    ch < chanCount l →
    (l.state = 2 → l.rxMap.getD ch 7 < 4 → l.sleepHeard = false → ∃ h', exec (.lossOfSignal p ch) s = .next (s.withHw h') ∧ (h'.port p).lanes.state = 3 ∧ (h'.port p).link.sendNotice = 2) ∧
    (l.state = 2 → l.rxMap.getD ch 7 < 4 → l.sleepHeard = true → ∃ h', exec (.lossOfSignal p ch) s = .next (s.withHw h') ∧ (h'.port p).lanes.rxAsleep = true ∧ (h'.port p).lanes.state = 2) ∧
    (l.state = 2 → 4 ≤ l.rxMap.getD ch 7 → ∃ h', exec (.lossOfSignal p ch) s = .next (s.withHw h') ∧ ((h'.port p).lanes.chan ch).los = true ∧ (h'.port p).lanes.state = 2 ∧ (h'.port p).link = (h.port p).link) ∧
    (l.state = 2 → 64 ≤ (l.chan ch).lowTicks → (l.chan ch).lowTold = false →
      exec (.laneFomLow p ch) s = .next (s.withHw ((h.modLanes p (fun l => l.modChan ch (fun c => { c with lowTold := true }))).report 0x908 0 (unitNo 14 p) 0 [w32 p, w32 ch]))) ∧
    ((l.chan ch).lowTicks < 64 ∨ (l.chan ch).lowTold = true → exec (.laneFomLow p ch) s = .next s)) ∧
  (∀ (s : State) (p : Nat), p < 264 → s.hw.inLehr = false →
    let h := s.hw
    let x := h.port p
    let l := x.lanes
    (l.cfg.sleep = true → l.state = 2 → l.txAsleep = false → l.cfg.idleSlots ≤ l.idleCount → x.hasWork = false → x.link.kept = [] → x.link.nak = false → x.link.lseq < 2 ^ 16 →
      ∃ h' b, exec (.txSleep p) s = .next (s.withHw h') ∧ (h'.port p).lanes.txAsleep = true ∧ (h'.port p).link.sentBlocks = [b] ∧ b.good = true ∧ b.kind = 2 ∧ b.unit0Kind = 2 ∧
        fld (beWords (b.unitAt 0)) 0 31 24 = 1) ∧
    (x.hasWork = true ∨ l.idleCount < l.cfg.idleSlots ∨ l.cfg.sleep = false → exec (.txSleep p) s = .next s) ∧
    (l.txAsleep = true → x.hasWork = true ∨ x.link.nak = true ∨ l.idleCount = 0 → exec (.txWake p) s = .next (s.withHw ((h.modLanes p (fun l => { l with txAsleep := false, idleCount := 0 })).countLane p 9))) ∧
    (l.rxAsleep = true → l.state = 2 → ∃ h', exec (.rxWake p) s = .next (s.withHw h') ∧
      if ∃ i, i < chanCount l ∧ l.rxMap.getD i 7 < 4 ∧ (l.chan i).fom < fomTarget l then (h'.port p).lanes.state = 3
      else (h'.port p).lanes.state = 2 ∧ (h'.port p).lanes.rxAsleep = false ∧ (h'.port p).lanes.rxMap = l.rxMap)) ∧
  (∀ (s : State) (m : Nat), m < 16 → m ∈ s.hw.lasers.enabled →
    let h := s.hw
    (m ∉ h.lasers.live → m ∉ h.lasers.releasing → exec (.laserInputLive m) s = .next (s.withHw (({ h with lasers := { h.lasers with live := h.lasers.live ++ [m] } }).raise 0x0905 [w32 m])) ∧
      exec (.laserNotReady m) s = .next (s.withHw (h.raise 0x0906 [w32 m]))) ∧
    (m ∈ h.lasers.live ∨ m ∈ h.lasers.releasing → exec (.laserInputLive m) s = .next s ∧ exec (.laserNotReady m) s = .next s) ∧
    (m ∈ h.lasers.live → unitNo 8 m ∉ h.faults.fenced → ∃ h', exec (.laserInputLost m) s = .next (s.withHw h') ∧ unitNo 8 m ∈ h'.faults.fenced ∧ m ∉ h'.lasers.enabled ∧ m ∉ h'.lasers.live ∧
      ∀ p, 32 * (m / 2) ≤ p → p < 32 * (m / 2) + 32 → 2 * (m / 2) ∉ h'.lasers.live → 2 * (m / 2) + 1 ∉ h'.lasers.live →
        (h.port p).lanes.state ≠ 0 → (h.port p).lanes.state ≠ 4 → (h'.port p).absent = true))

/-- R437 to R439, R441, R442: a valid glean message that repeats this end's identity is compared with the port's plan entry, and the port takes the state
and cause of Table 15.3; one that does not makes a SEEKING port HEARD. Messages reach firmware through a CD attachment in service. A partner that does
not echo, a planned partner not there, and silence end as Table 15.2 says, at E4 where they wait for it. A port through its hold has its winnow bit
cleared at E4, and no other. The model's own choices in it: log 5, 125, 131, 139. -/
def Obligations.GleanMessages : Prop :=
  (∀ (s : State) (p : Nat) (k : Pkt), p < 264 → s.hw.inLehr = false → (s.hw.port p).link.up = true → k.ptype = 5 →
    let h := s.hw.arrive p k
    let m := beWords k.payload
    h.linkCheck p k = none → (s.hw.cdRouter (cxHalf (s.hw.home p))).isSome = true → k.payload.length = 64 → fld m 0 31 24 = 1 → 1 ≤ fld m 0 23 16 → fld m 0 23 16 ≤ 3 →
    ∃ h', exec (.gleanReceive p k) s = .next (s.withHw h') ∧
      let g := (h'.port p).glean
      g.last = some m ∧ g.twoWay = s.hw.twoWay p m ∧
      (s.hw.twoWay p m = true → (s.hw.port p).glean.state = 1 ∨ (s.hw.port p).glean.state = 2 → (g.state, g.cause, g.other) = s.hw.disc.outcome p m) ∧
      (s.hw.twoWay p m = false → g.state = if (s.hw.port p).glean.state = 1 then 2 else (s.hw.port p).glean.state)) ∧
  (∀ (s : State) (p : Nat), p < 264 →
    let h := s.hw
    let g := (h.port p).glean
    (h.time.slot = 0 → g.state = 2 → g.heardTick + h.disc.missingTicks ≤ h.time.tick →
      ∃ h', exec (.gleanNoEcho p) s = .next (s.withHw h') ∧ (h'.port p).glean.state = 4 ∧ (h'.port p).glean.cause = 6 ∧ h.Tells h' 0x0A02) ∧
    (h.time.slot ≠ 0 → exec (.gleanNoEcho p) s = .next s ∧ exec (.neighbourMissing p) s = .next s ∧ exec (.rejoinHoldEnd p) s = .next s) ∧
    (g.state ≠ 2 ∨ h.time.tick < g.heardTick + h.disc.missingTicks → exec (.gleanNoEcho p) s = .next s) ∧
    (h.time.slot = 0 → expectOf (h.disc.entry p) ≠ 0 → g.state ≠ 3 → max h.disc.planTick g.since + h.disc.missingTicks ≤ h.time.tick → g.missing = false →
      ∃ h', exec (.neighbourMissing p) s = .next (s.withHw h') ∧ (h'.port p).glean.missing = true ∧ h.Tells h' 0x0A03) ∧
    (expectOf (h.disc.entry p) = 0 ∨ g.state = 3 ∨ g.missing = true → exec (.neighbourMissing p) s = .next s) ∧
    (g.state = 3 → max 4096 (cdiv 40960 h.time.mult) ≤ g.silent → ∃ h', exec (.gleanSilence p) s = .next (s.withHw h') ∧ (h'.port p).glean.state = 1 ∧ (h'.port p).glean.missing = true) ∧
    (g.silent < max 4096 (cdiv 40960 h.time.mult) → exec (.gleanSilence p) s = .next s) ∧
    (h.time.slot = 0 → h.mayOpen p = true → ∃ h', exec (.rejoinHoldEnd p) s = .next (s.withHw h') ∧ h'.mesh.winnow.getLsbD p = false ∧ ∀ q, q ≠ p → h'.mesh.winnow.getLsbD q = h.mesh.winnow.getLsbD q) ∧
    (h.mayOpen p = false → exec (.rejoinHoldEnd p) s = .next s))

/-! ### Groups and programs -/

/-- R263 to R265, R279, Table 9.2: a contribution at its home fails the home's checks in their order: no context, a context that is closed, an entry that
is not on its generation's list, a generation or a chunk that is finished, a contributor that is LOST there, one counted already. One that fails is
dropped and counted; one whose slot lies elsewhere is sent there; any other is added into its chunk's slot, counts as received, and sets its
contributor's bit. That the chunk does not finish with it is a premise of the last clause. The model's own choices in it: log 74, 75, 76, 82. -/
def Obligations.ContributionAtHome : Prop :=
  (∀ (h : Hw) (c : Nat) (mp : MeshPkt),
    let k := mp.pkt
    (h.grp? k.grp = none → h.verdict c mp = .gone) ∧
    (∀ x, h.grp? k.grp = some x → x.state = .closed → h.verdict c mp = .drop 1) ∧
    (∀ x, h.grp? k.grp = some x → x.state ≠ .closed → (h.job x.cfg.job).running = none → x.genLow k.gen = none → h.verdict c mp = .drop 6) ∧
    (∀ x n, h.grp? k.grp = some x → x.state ≠ .closed → (h.job x.cfg.job).running = none → x.genLow k.gen = some n →
      (x.entryOf k = none → h.verdict c mp = .drop 5) ∧
      (∀ i, x.entryOf k = some i → (memberOf x.cfg i).part = false →
        (i ∉ n.list → h.verdict c mp = .drop 5) ∧
        (i ∈ n.list → x.gen? n.no = none ∨ k.chunk ∈ n.done → h.verdict c mp = .drop 6) ∧
        (∀ o, i ∈ n.list → x.gen? n.no ≠ none → k.chunk ∉ n.done → tget? n.open_ k.chunk = some o → o.ending = false →
          (i ∈ o.lost → h.verdict c mp = .drop 6) ∧ (i ∉ o.lost → i ∈ o.counted → h.verdict c mp = .drop 8) ∧
          (i ∉ o.lost → i ∉ o.counted → o.slotLost = false → o.frozen = false → (o.cx ≠ c → h.verdict c mp = .away o.cx) ∧
            (o.cx = c → (h.cx c).attach ≠ .serving → h.verdict c mp = .hold) ∧
            (o.cx = c → (h.cx c).attach = .serving → x.cfg.ordered = false → h.verdict c mp = .add)))))) ∧
  (∀ (s : State) (c : Nat) (mp : MeshPkt), c < 144 → (s.hw.cx c).attach ≠ .detached → (s.hw.cx c).held = [] → (s.hw.cx c).work = [mp] → mp.pkt.ptype = 2 →
    wholeIn [mp] mp = true → s.hw.canTake c mp = true →
    let h := (s.hw.partialIn c mp.pkt (s.hw.verdict c mp)).modCx c (fun x => { x with work := [] })
    let run := exec (.contribAtHome c) s
    (s.hw.verdict c mp = .gone → run = .next (s.withHw h)) ∧
    (∀ n, s.hw.verdict c mp = .drop n → run = .next (s.withHw (h.countG mp.pkt.grp n))) ∧
    (s.hw.verdict c mp = .mismatch → run = .next (s.withHw (h.modGrp mp.pkt.grp (fun x => { x with mismatch := sat32 (x.mismatch + 1) })))) ∧
    (∀ d, s.hw.verdict c mp = .away d →
      run = .next (s.withHw (h.ownSend c { base := meshBase mp.pkt mp.epoch (cxRouter c) mp.pkt.job 511, addr := some (cxRouter d, attachOf d) }))) ∧
    (s.hw.verdict c mp = .hold → mp.pkt.partialBit = false → ∃ h' q, run = .next (s.withHw h') ∧ (h'.cx c).held = [q] ∧ q.mp = mp ∧ q.half = none ∧
      ∃ p b, q.ptr = some p ∧ h'.buf? c p = some b ∧ b.pkt = mp.pkt) ∧
    (∀ x n i o, s.hw.verdict c mp = .add → s.hw.grp? mp.pkt.grp = some x → x.gens = [n] → n.no % 2 ^ 16 = mp.pkt.gen → x.entryOf mp.pkt = some i → (memberOf x.cfg i).part = false →
      tget? n.open_ mp.pkt.chunk = some o → x.cfg.gather = false → x.cfg.ordered = false → s.hw.contribAtt x n = none →
      let sum := addInto x.cfg x.cfg.arith.mode i mp.pkt o.accs o.ctr
      let o' : Chunk := { o with accs := sum.1, ctr := sum.2, counted := o.counted ++ [i] }
      let n' : Gen := { n with open_ := tput n.open_ mp.pkt.chunk o', received := n.received + 1 }
      ({ x with gens := [n'] } : Group).mayFinish n' mp.pkt.chunk = false →
      ∃ h', run = .next (s.withHw h') ∧ h'.grp? mp.pkt.grp = some { x with gens := [n'] } ∧ (h'.cx c).work = [] ∧ ∀ g, g ≠ mp.pkt.grp → h'.grp? g = s.hw.grp? g))

/-- R254, R259, R268, R269, R274, R283, R284: at the steps of the tick edge, a chunk whose patience has ended finishes, and the entries still pending are
to leave the mask; the only chunk of a generation with nothing heard for PATIENCE latches opens and finishes, and with its last chunk the generation
is done and the current one is the oldest not finished; a generation that waits 64 ticks is told once; a context torn down closes when no generation
is open, and its storage can be used again after the wipe. R279, R304, R305: an open slot whose home is served elsewhere is there after the move, and
counts its patience again; when a ring axis is silent for PATIENCE + RING_SLACK with a partial awaited, every generation of the context ends without a
result and the group needs a rollback. The model's own choices in it: log 48, 73, 77, 125. -/
def Obligations.GroupClocksMovesAndRingLoss : Prop :=
  (∀ (s : State) (g : Nat) (x : Group), s.hw.grp? g = some x →
     let h := s.hw
     (h.time.slot ≠ 0 → (∀ n k, exec (.patienceExpiry g n k) s = .next s) ∧ exec (.idleGenerationOpen g) s = .next s ∧ exec (.admissionWaiting g) s = .next s ∧ exec (.groupClose g) s = .next s) ∧
     (∀ n k o, h.time.slot = 0 → x.gen? n.no = some n → tget? n.open_ k = some o →
       (0 < o.patience ∨ h.still o = true ∨ o.ending = true ∨ h.counting x = false → exec (.patienceExpiry g n.no k) s = .next (s.withHw (if x.state = .draining then h.drainOpen g else h))) ∧
       (o.patience = 0 → h.still o = false → o.ending = false → h.counting x = true → k ∉ n.done → x.plan = none → h.chunkAtt x n = none → o.opened = true → o.restarted = false →
         ∃ h' x', exec (.patienceExpiry g n.no k) s = .next (s.withHw h') ∧ h'.grp? g = some x' ∧ (∀ i ∈ x.pending n k, (memberOf x.cfg i).part = false → i ∈ x'.clearNow) ∧
           ∀ n', x'.gen? n.no = some n' → k ∈ n'.done)) ∧
     (h.counting x = false → exec (.idleGenerationOpen g) s = .next s) ∧
     (h.counting x = true → (∀ n ∈ x.gens, n.idle < x.cfg.patience ∧ n.openWith ≠ some 0) → exec (.idleGenerationOpen g) s = .next s) ∧
     (∀ n, h.time.slot = 0 → h.counting x = true → x.gens = [n] → x.cfg.patience ≤ n.idle → x.cfg.chunks = 1 → h.opensLater g x n 0 = false → (∀ i ∈ x.pending n 0, (memberOf x.cfg i).part = false) →
       h.chunkAtt x n = none → ∃ h' x', exec (.idleGenerationOpen g) s = .next (s.withHw h') ∧ h'.grp? g = some x' ∧ x'.gens = [] ∧ x'.current = x.admitted ∧
         x'.records.map (·.1) = (n.no :: x.records.map (·.1)).take 4) ∧
     (h.time.slot = 0 → 64 ≤ x.wait → x.told = false → exec (.admissionWaiting g) s = .next (s.withHw ((h.modGrp g (fun x => { x with told := true })).raise 0x0506 [w32 g, w32 x.admitted, w32 (x.admitted / 2 ^ 32)]))) ∧
     (x.wait < 64 ∨ x.told = true → exec (.admissionWaiting g) s = .next s) ∧
     (h.time.slot = 0 → x.tear ≠ none → x.state ≠ .closed → x.gens = [] → ∃ h' x', exec (.groupClose g) s = .next (s.withHw h') ∧ h'.grp? g = some x' ∧ x'.state = .closed ∧ x'.plan = none ∧ x'.early = [] ∧
       (∀ e ∈ h'.progs.atts, e.2.grp ≠ g) ∧ h.Tells h' 0x0505) ∧
     (x.tear = none ∨ x.state = .closed ∨ x.gens ≠ [] → exec (.groupClose g) s = .next s) ∧
     (∃ h' x', exec (.storageWipeDone g) s = .next (s.withHw h') ∧ h'.grp? g = some x' ∧ x'.wipes = [] ∧ x'.wiped = (if x.state = .closed ∧ x.wiped = none then some h.time.tick else x.wiped) ∧
       (x.echoWipe = true → tget? h'.mem.echo g = none))) ∧
  ((∀ (s : State) (c d g k : Nat) (x : Group) (n : Gen) (o : Chunk), c < 144 → (s.hw.cx c).attach ≠ .detached → s.hw.groups = [(g, x)] → x.gens = [n] → n.open_ = [(k, o)] → o.cx = c → o.kept = [] →
     locCx (s.hw.locate s.hw.mesh.injEpoch o.addr) = d → d ≠ c → (s.hw.cx d).attach = .serving →
     ∃ h' x' n', exec (.slotMoveDone c) s = .next (s.withHw h') ∧ h'.grp? g = some x' ∧ x'.gens = [n'] ∧ n'.open_ = [(k, { o with cx := d, frozen := false })]) ∧
   (∀ (s : State) (g axis : Nat) (x : Group) (r : RingPlan) (n : Gen), s.hw.grp? g = some x → x.plan = some r → x.gen? x.current = some n →
     let h := s.hw
     (h.counting x = true → h.time.slot = 0 → axis ∈ r.rings → x.cfg.patience + r.slack ≤ (tget {} x.axes axis).heard →
       (∃ k, k < x.cfg.chunks ∧ k ∉ n.done ∧ ∃ i ∈ x.pending n k, (memberOf x.cfg i).part = true ∧ (memberOf x.cfg i).rank = axis) →
       ∃ h' x', exec (.ringPartialLost g axis) s = .next (s.withHw h') ∧ h'.grp? g = some x' ∧ x'.gens = [] ∧ x'.ringLost = true ∧ x'.rollback = true ∧ x'.early = [] ∧
         h.Tells h' 0x0601 ∧ 2 ≤ (h'.faults.src 0x601).worst) ∧
     (h.time.slot ≠ 0 ∨ h.counting x = false ∨ (tget {} x.axes axis).heard < x.cfg.patience + r.slack → exec (.ringPartialLost g axis) s = .next s)))

/-- R335, Table 11.11: a whole image over BAR2 is checked in order, its header and length, its digest and signature, its handle, and its room; the first
failure is the answer, and an image that passes is loaded at the lowest base with room. Over MCTP a piece that is not the last completes with STAGED.
An image that is loaded and not attached can be unloaded. The model's own choices in it: log 11, 13, 100. -/
def Obligations.ProgramLoading : Prop :=
  ∀ (s : State) (c : Nat) (r : Request), c < 16 →
    let h := s.hw
    let p := r.payload
    let handle := fld p 0 5 0
    let len := wnat p 2
    (h.Asks c 0x0701 r → c < 12 → handle ≠ 0 → 260 ≤ len → len ≤ 200960 → tget? h.progs.pieces handle = none →
      let b := memReadList 0 h.ctl.bulk (wnat p 1) len
      let run := exec (.programLoad c) s
      (imageOk b = false → run = .next (s.withHw (h.answered c r stInvalid 4 []))) ∧
      (imageOk b = true → imageAuth s.fuses b = false → run = .next (s.withHw (h.answered c r stAuth 0 []))) ∧
      (imageOk b = true → imageAuth s.fuses b = true → (tget? h.progs.images handle).isSome = true → run = .next (s.withHw (h.answered c r stInvalid 0 []))) ∧
      (imageOk b = true → imageAuth s.fuses b = true → tget? h.progs.images handle = none → h.progs.room (imgWord b 0x0C) = none → run = .next (s.withHw (h.answered c r stNoResource 7 []))) ∧
      (∀ base, imageOk b = true → imageAuth s.fuses b = true → tget? h.progs.images handle = none → h.progs.room (imgWord b 0x0C) = some base →
        run = .next (s.withHw ((h.modProgs (fun q => { q with images := tput q.images handle (imageOf b base), pieces := tdel q.pieces handle })).answered c r stOk 0 [w32 base, w32 (imgWord b 8)])))) ∧
    (h.Asks c 0x0701 r → 12 ≤ c → handle ≠ 0 → 260 ≤ len → len ≤ 200960 → wnat p 1 = 0 → wnat p 3 = 0 → (p.drop 4).length * 4 < len → tget? h.progs.images handle = none →
      exec (.programLoad c) s = .next (s.withHw ((h.modProgs (fun q => { q with pieces := tput q.pieces handle ((p.drop 4).flatMap leBytes) })).answered c r stStaged 0 []))) ∧
    (h.Asks c 0x0704 r → (tget? h.progs.images handle).isSome = true → (∀ e ∈ h.progs.atts, e.2.handle ≠ handle) → (∀ e ∈ h.ctl.chans, ∀ t ∈ e.2.staging, t.opcode ≠ 0x0702) →
      exec (.programUnload c) s = .next (s.withHw ((h.modProgs (fun q => { q with images := tdel q.images handle })).answered c r stOk 0 []))) ∧
    (∀ e ∈ h.progs.atts, e.2.handle = handle → h.Asks c 0x0704 r → exec (.programUnload c) s = .next (s.withHw (h.answered c r stInvalid 0 []))) ∧
    ((∀ r, ¬ h.Asks c 0x0701 r) → exec (.programLoad c) s = .next s) ∧ ((∀ r, ¬ h.Asks c 0x0704 r) → exec (.programUnload c) s = .next s)

/-- R323, R324, R331, R333, R341, R373: an event starts on the threads its gang needs, each at the hook's entry; a waiting thread runs when its message or
its tick has come; a message joins its attachment's queue, and one for an attachment that is gone is counted; an invocation that runs past PATIENCE +
1 ticks traps at E7; at E4 of the tick after a trap, the group's generations end with status 6 and it needs a rollback. The model's own choices in it: log 13, 42, 86, 87. -/
def Obligations.InvocationsRun : Prop :=
  (∀ (s : State) (c aid : Nat) (a : Att) (x : Group) (e : HookEvent), c < 144 → (s.hw.cx c).attach = .serving → s.hw.faults.state ≠ .safe →
    let h := s.hw
    h.progs.atts = [(aid, a)] → tget [] a.events c = [e] → (∀ v ∈ h.progs.invs, v.2.att ≠ aid) → h.grp? a.grp = some x → h.staleEvent c x (x.gen? e.gen) e = none → (∀ p, e.ptr = some p → h.ptrOk c p = true) → a.keepFrom = none →
    (e.hook = 1 → ((h.cx c).pick c ({ hdr := [w32 (resultBytes x.cfg)], payload := [], trailer := 0 } : Pkt).len false).isSome = true) →
    (h.gangThreads c a.image = none → exec (.invocationStart c) s = .next s) ∧
    (∀ ts, h.gangThreads c a.image = some ts → ts.length ≤ a.image.maxThreads → ∃ h', exec (.invocationStart c) s = .next (s.withHw h') ∧
      (∃ v, tget? h'.progs.invs h.progs.serial = some v ∧ v.att = aid ∧ v.cx = c ∧ v.ev = e ∧ v.threads = ts ∧ v.running = ts ∧ v.start = h.time.tick) ∧
      (∃ a', h'.att? aid = some a' ∧ tget [] a'.events c = []) ∧
      ∀ i, i < ts.length → ∃ th, tget? h'.progs.threads (nth ts i) = some th ∧ th.inv = h.progs.serial ∧ th.gang = i ∧ th.state = .running ∧ th.pc = a.image.entries.getD e.hook 0)) ∧
  (∀ (s : State) (c : Nat), c < 144 → s.hw.progs.atts = [] → exec (.invocationStart c) s = .next (s.withHw s.hw)) ∧
  (∀ (s : State) (t : Nat) (th : Thread), tget? s.hw.progs.threads t = some th →
    let h := s.hw
    let wake : Hw := h.modProgs (fun p => { p with threads := tput p.threads t { th with state := .running } })
    (th.state = .waitTick true → exec (.threadWake t) s = .next (s.withHw wake)) ∧ (th.state = .waitTick false → exec (.threadWake t) s = .next s) ∧
    (∀ v a, th.state = .waitMsg → tget? h.progs.invs th.inv = some v → h.att? v.att = some a →
      (tget [] a.msgs v.cx ≠ [] → exec (.threadWake t) s = .next (s.withHw wake)) ∧ (tget [] a.msgs v.cx = [] → exec (.threadWake t) s = .next s))) ∧
  (∀ (s : State) (c : Nat) (mp : MeshPkt), c < 144 → (s.hw.cx c).work = [mp] → mp.pkt.ptype = 15 →
    let h := s.hw
    let q := mp.pkt
    (h.att? (q.word 1) = none → exec (.programMessageReceive c) s = .next (s.withHw ((h.modCx c (fun x => { x with work := [] })).modProgs (fun p => { p with discarded := sat32 (p.discarded + 1) })))) ∧
    (∀ a, h.att? (q.word 1) = some a → (tget [] a.msgs c).length < 64 → ((h.cx c).pick c q.len false).isSome = true →
      ∃ h' p a', exec (.programMessageReceive c) s = .next (s.withHw h') ∧ (h'.cx c).work = [] ∧ h'.att? (q.word 1) = some a' ∧ tget [] a'.msgs c = tget [] a.msgs c ++ [(p, q.word 2, q.payload)] ∧
        ∃ b, h'.buf? c p = some b ∧ b.pkt = q) ∧
    (∀ a, h.att? (q.word 1) = some a → 64 ≤ (tget [] a.msgs c).length → exec (.programMessageReceive c) s = .next s)) ∧
  (∀ (s : State) (c id t : Nat) (v : Inv) (th : Thread) (a : Att) (x : Group), c < 144 → s.hw.progs.invs = [(id, v)] → v.cx = c → v.running = [t] → tget? s.hw.progs.threads t = some th →
    th.state ≠ .stopped → s.hw.att? v.att = some a → s.hw.grp? a.grp = some x →
    (s.hw.time.slot = 0 → v.start + x.cfg.patience + 1 ≤ s.hw.time.tick → exec (.stalledTrap c) s = .next (s.withHw (s.hw.trap t 8 0 0))) ∧
    (s.hw.time.slot ≠ 0 ∨ s.hw.time.tick < v.start + x.cfg.patience + 1 → exec (.stalledTrap c) s = .next s)) ∧
  (∀ (s : State) (g t cause : Nat) (x : Group), s.hw.grp? g = some x → x.stop = some (t, cause) →
    (s.hw.time.slot ≠ 0 ∨ s.hw.time.tick ≤ t → exec (.programGroupStop g) s = .next s) ∧
    (s.hw.time.slot = 0 → t < s.hw.time.tick → ∃ h' x', exec (.programGroupStop g) s = .next (s.withHw h') ∧ h'.grp? g = some x' ∧ x'.gens = [] ∧ x'.early = [] ∧ x'.rollback = true ∧ x'.stop = none ∧
      (∀ i a, h'.att? i = some a → a.grp = g → ∀ c, tget [] a.events c = []) ∧
      ∀ n, x.gens = [n] → n.status ≤ 6 → x.cfg.job < 4096 → g < 8192 → ∃ r, x'.records.head? = some (n.no, r) ∧ fld r 0 18 12 = 6))

/-! ### Fabric memory -/

/-- R390 to R396, R399: a write to an OPEN part is stored at its place, or in the record of a BUDDY part; one to a part that is not OPEN and that the seal
does not include, or outside its shard, is dropped and counted; one for no part here is relayed. A read of a SEALED part whose chunks check is served
from what is stored, and one that is not served here is relayed. A seal waits for the writes that belong to it; of a PRIMARY part it writes the record
and ends SEALED; of a BUDDY part it ends SEALED, DAMAGED or INCOMPLETE; a BUDDY part waits for its bytes until its deadline. A verify ends SEALED with
no chunk failed, else DAMAGED. The channel that waits gets its answer. The model's own choices in it: log 93, 94, 103. -/
def Obligations.SnapshotStore : Prop :=
  (∀ (s : State) (node handle : Nat) (mp : MeshPkt) (x : Part), node < 8 → tget [] s.hw.mesh.nodes (nodeRouter node) = [mp] → wholeIn [mp] mp = true →
    let h := s.hw.modMesh (fun m => { m with nodes := tput m.nodes (nodeRouter node) [] })
    let k := mp.pkt
    let o := snapOffsetOf k
    let low := o % 2 ^ 47
    let i := (x.entryOf k.src).getD 0
    (k.ptype = 7 → k.len ≠ 0 →
      let run := exec (.snapWriteReceive node) s
      (s.hw.partOf k = none → run = .next (s.withHw (h.relaySnap node k))) ∧
      (s.hw.partOf k = some (handle, x) → s.hw.part? handle = some x →
        (x.state ≠ .opened → x.before mp = false → run = .next (s.withHw (h.countM 11))) ∧
        (x.state = .opened ∨ x.before mp = true → o.testBit 47 = false → x.shardBytes i < low + k.len → run = .next (s.withHw (h.countM 12))) ∧
        (x.state = .opened ∨ x.before mp = true → o.testBit 47 = true → x.buddy = false → run = .next (s.withHw (h.countM 12))) ∧
        (x.state = .opened ∨ x.before mp = true → o.testBit 47 = false → low + k.len ≤ x.shardBytes i → ∃ h' x', run = .next (s.withHw h') ∧ h'.part? handle = some x' ∧
          x'.shards = memWriteList 0 x.shards (2 ^ 38 * i + low) k.payload ∧ x'.record = x.record ∧ x'.received = (if x.buddy then x.received + k.len else x.received) ∧ x'.state = x.state ∧
          ∀ n, n ≠ handle → h'.part? n = s.hw.part? n) ∧
        (x.state = .opened ∨ x.before mp = true → o.testBit 47 = true → x.buddy = true → low + k.len ≤ recordArea x.ranks → ∃ h' x', run = .next (s.withHw h') ∧ h'.part? handle = some x' ∧
          x'.record = memWriteList 0 x.record low k.payload ∧ x'.shards = x.shards))) ∧
    (k.ptype = 8 →
      let run := exec (.snapReadReceive node) s
      let n := k.word 8
      let touched := (List.range ((low + n - 1) / chunkBytes + 1 - low / chunkBytes)).map (fun c => (i, low / chunkBytes + c))
      (s.hw.partOf k = none → run = .next (s.withHw (h.relaySnap node k))) ∧
      (s.hw.partOf k = some (handle, x) → s.hw.part? handle = some x →
        (x.state ≠ .sealed → x.state ≠ .damaged → run = .next (s.withHw (h.relaySnap node k))) ∧
        (x.state = .sealed → o.testBit 47 = false → n ≠ 0 → n ≤ 8192 → low + n ≤ x.shardBytes i → touched.any x.isFailed = false → touched.any (x.checkChunks touched).isFailed = false →
          run = .next (s.withHw (((h.modPart handle (fun _ => x.checkChunks touched)).countM 13).nodeUnicast node
            (mkPkt (snapHdr 8 true n k.job k.src 0 (snapshotIdOf k) o) (memReadList 0 x.shards (2 ^ 38 * i + low) n))).1)) ∧
        (x.state = .sealed → o.testBit 47 = false → n ≠ 0 → n ≤ 8192 → low + n ≤ x.shardBytes i → touched.any x.isFailed = true → run = .next (s.withHw (h.relaySnap node k)))))) ∧
  (∀ (s : State) (handle : Nat) (x : Part) (c : Closing), s.hw.part? handle = some x → x.closing = some c →
    let answered (h' : Hw) (x' : Part) : Prop := ∀ ch r, c.ch = some ch → (s.hw.chan ch).cur = some r → (h'.chan ch).reply = some (response r stOk 0 x'.closeOut)
    (x.state = .damaged → exec (.snapshotSealDone handle) s = .next (s.withHw (s.hw.endClose handle c)) ∧ exec (.snapshotVerifyDone handle) s = .next (s.withHw (s.hw.endClose handle c))) ∧
    (s.hw.writesUnderWay x = true → x.state ≠ .damaged → exec (.snapshotSealDone handle) s = .next s) ∧
    (x.state = .sealing → c.verify = false → s.hw.writesUnderWay x = false → x.buddy = false → ∃ h' x', exec (.snapshotSealDone handle) s = .next (s.withHw h') ∧ h'.part? handle = some x' ∧
      x'.state = .sealed ∧ x'.closing = none ∧ x'.record = memWriteList 0 x.record 0 (x.makeRecord c.tick x.groups) ∧ x'.recBytes = (x.makeRecord c.tick x.groups).length ∧ x'.shards = x.shards ∧ answered h' x' ∧
      s.hw.Tells h' 0x0801) ∧
    (x.state = .sealing → c.verify = false → s.hw.writesUnderWay x = false → x.buddy = true → ∃ h' x', exec (.snapshotSealDone handle) s = .next (s.withHw h') ∧ h'.part? handle = some x' ∧ x'.closing = none ∧ answered h' x' ∧
      x'.state = (match x.recordOk with | none => .incomplete | some n => if ({ x with recBytes := n } : Part).differing = [] then .sealed else .damaged)) ∧
    (x.state = .sealing → c.verify = true → exec (.snapshotSealDone handle) s = .next s) ∧
    (x.state = .opened → x.received = c.expected → ∃ h' x', exec (.snapshotBuddyDeadline handle) s = .next (s.withHw h') ∧ h'.part? handle = some x' ∧ x' = { x with state := .sealing }) ∧
    (x.state = .opened → x.received < c.expected → c.deadline ≤ s.hw.time.tick → ∃ h' x', exec (.snapshotBuddyDeadline handle) s = .next (s.withHw h') ∧ h'.part? handle = some x' ∧ x'.state = .incomplete ∧
      x'.closing = none ∧ answered h' x') ∧
    (x.state = .opened → x.received ≠ c.expected → s.hw.time.tick < c.deadline → exec (.snapshotBuddyDeadline handle) s = .next s) ∧
    (x.state = .sealing → c.verify = true → ∃ h' x', exec (.snapshotVerifyDone handle) s = .next (s.withHw h') ∧ h'.part? handle = some x' ∧ x'.closing = none ∧ answered h' x' ∧
      x'.allFailed = (x.allFailed || ! x.rootOk) ∧ (x'.state = .sealed ↔ x.allFailed = false ∧ x.rootOk = true ∧ x.failed = [] ∧ x.differing = []) ∧ (x'.state = .sealed ∨ x'.state = .damaged) ∧
      (∀ e ∈ x.failed, e ∈ x'.failed) ∧ ∀ e ∈ x.differing, e ∈ x'.failed) ∧
    (x.state = .sealing → c.verify = false → exec (.snapshotVerifyDone handle) s = .next s))

/-- R380, R387, R400, R492: each chunk of an echo request is served in order: one served within PATIENCE is a duplicate, one with no entry is answered
with an empty RESULT, one with an entry is sent to the group's sheaf. A wipe of a stack ends, or else its first part being deleted is gone; the copy
into the spare ends. A rollback ends at the tick edge when its flush is over, its wipes have ended and its flip has drained: the groups it restored
are no longer waiting for it. The model's own choices in it: log 83, 95, 96, 125. -/
def Obligations.EchoWipesAndRollback : Prop :=
  (∀ (s : State) (node : Nat) (mp : MeshPkt) (x : Group) (r : EchoRegion), node < 8 → tget [] s.hw.mesh.nodes (nodeRouter node) = [mp] → wholeIn [mp] mp = true → mp.pkt.ptype = 9 →
    let h := s.hw.modMesh (fun m => { m with nodes := tput m.nodes (nodeRouter node) [] })
    let k := mp.pkt
    let run := exec (.echoReqServe node) s
    (s.hw.grp? k.grp = none → run = .next (s.withHw h)) ∧
    (s.hw.grp? k.grp = some x → tget? s.hw.mem.echo k.grp = some r →
      let busy := r.served.any (fun e => decide (e.1 = k.chunk ∧ s.hw.time.tick ≤ e.2 + x.cfg.patience))
      let entry := r.entries.find? (fun e => decide (e.chunk = k.chunk ∧ e.gen % 2 ^ 16 = k.gen))
      (k.word 6 = 0 → run = .next (s.withHw h)) ∧
      (k.word 6 = 1 → busy = true → run = .next (s.withHw (h.countM 4))) ∧
      (k.word 6 = 1 → busy = false → entry = none → run = .next (s.withHw ((h.countM 3).nodeUnicast node
        (mkPkt (groupHdr 3 false 0 k.job k.src 0 k.grp k.gen k.chunk 0 0 (trailerWords false true 0 1 0 {} x.cfg.arith.input 0)) [])).1)) ∧
      (∀ e, k.word 6 = 1 → busy = false → entry = some e → ∃ h' r', run = .next (s.withHw h') ∧ tget? h'.mem.echo k.grp = some r' ∧ r'.entries = r.entries ∧ (k.chunk, s.hw.time.tick) ∈ r'.served ∧
        tget 0 h'.mem.counters 2 = sat32 (tget 0 s.hw.mem.counters 2 + 1)))) ∧
  (∀ (s : State) (k : Nat), k < 2 →
    let h := s.hw
    (∀ w rest, (h.stack k).wiping = w :: rest → exec (.hbmWipeDone k) s = .next (s.withHw (h.modStack k (fun x => { x with wiping := rest })))) ∧
    (∀ n x, (h.stack k).wiping = [] → h.mem.parts = [(n, x)] → x.stack = k → x.state = .deleting → ∃ h', exec (.hbmWipeDone k) s = .next (s.withHw h') ∧ h'.mem.parts = []) ∧
    (∃ h', exec (.hbmSpareCopyDone k) s = .next (s.withHw h') ∧ h'.stack k = { h.stack k with copying := none } ∧ ∀ n, n ≠ k → h'.stack n = h.stack n)) ∧
  (∀ (s : State) (job t flush : Nat) (gs : List Nat), (s.hw.job job).running = some (t, flush, gs) →
    let h := s.hw
    let j := h.job job
    let ended := h.rollbackEnds job
    (h.time.slot ≠ 0 → exec (.rollbackEnd job) s = .next s) ∧
    (h.time.slot = 0 → h.time.tick < t + flush ∨ (∃ e ∈ h.groups, e.2.cfg.job = job ∧ e.2.wipes ≠ []) → exec (.rollbackEnd job) s = .next (s.withHw h.settleRegime)) ∧
    (h.time.slot = 0 → t + flush ≤ h.time.tick → (∀ e ∈ h.groups, e.2.cfg.job = job → e.2.wipes = []) → j.flipping = false ∨ (h.mesh.flipping = false ∧ h.mesh.flipNext = none) →
      let h' := ended.settleRegime
      exec (.rollbackEnd job) s = .next (s.withHw h') ∧ h.Tells ended 0x0C02 ∧ (h'.job job).running = none ∧ (h'.job job).doneTick = h.time.tick ∧ (h'.job job).needed = decide (j.again ≠ []) ∧
        (∀ g x, g ∈ gs → g ∉ j.again → h.grp? g = some x → h'.grp? g = some { x with rollback := false }) ∧ ∀ g, g ∉ gs → h'.grp? g = h.grp? g))

/-! ### Faults and the management processors -/

/-- R458, R463, R464, R466, R468 to R472, R476, R477: FAULT_FORCE answers in the order of its checks and sets the source's force bit; UNIT_READMIT starts
the test of a fenced unit, whose end answers. After a quiet period the collector is NORMAL, counts the recovery and tells it; the safe state ends when
its three conditions hold. ERR_N follows its held level after the pulse. A rewrite gives each count its shadow; three that fail lose the collector. A
lost processor is fenced, and the standby takes over: commits whose tick has passed answer TICK_PASSED. The model's own choices in it: log 19, 20, 56, 64, 117, 119, 125. -/
def Obligations.CollectorAndProcessors : Prop :=
  (∀ (s : State) (c : Nat) (r : Request), c < 16 → s.hw.Asks c 0x0B02 r →
    let h := s.hw
    let src := fld r.payload 0 11 0
    let notify := decide (fld r.payload 0 12 12 = 1)
    let n := fld r.payload 0 18 16
    let u := fld r.payload 1 15 0
    let run := exec (.faultForce c) s
    (sourceTop src = none → run = .next (s.withHw (h.answered c r stInvalid 0 []))) ∧
    (notify = false → src ∈ derivedSources → run = .next (s.withHw (h.answered c r stInvalid 0 []))) ∧
    ((sourceTop src).isSome = true → notify = true ∨ src ∉ derivedSources →
      (forceUnitOk src u = false → run = .next (s.withHw (h.answered c r stInvalid 4 []))) ∧
      (forceUnitOk src u = true → n = 0 → run = .next (s.withHw (h.answered c r stOk 0 []))) ∧
      (forceUnitOk src u = true → 1 ≤ n → n ≤ 4 → run = .next (s.withHw ((h.modFaults (fun f => f.modSrc src (fun x => { x with force := some (u, n, notify) }))).answered c r stOk 0 []))))) ∧
  (∀ (s : State) (c : Nat) (r : Request), c < 16 → s.hw.Asks c 0x0B04 r →
    let h := s.hw
    let u := fld r.payload 0 15 0
    let run := exec (.unitReadmit c) s
    (u / 4096 = 0 → run = .next (s.withHw (h.answered c r stInvalid 0 []))) ∧
    (u / 4096 ≠ 0 → unitExists u = false → run = .next (s.withHw (h.answered c r stAbsent u []))) ∧
    let out : Prop := h.isFenced u = true ∨ (u / 4096 = 5 ∧ u % 4096 ∈ h.mesh.fenced)
    (u / 4096 ≠ 0 → unitExists u = true → ¬ out → run = .next (s.withHw (h.answered c r stInvalid 0 []))) ∧
    (u / 4096 ≠ 0 → unitExists u = true → out → ∃ h', run = .next (s.withHw h') ∧ h'.faults = { h.faults with tests := h.faults.tests ++ [{ unit := u, ch := c }] } ∧
      (h'.chan c).cur = some { r with waiting := false })) ∧
  (∀ (s : State) (t : BuiltinTest) (r : Request) (step : Nat), s.hw.faults.tests = [t] → t.passed = false → (s.hw.chan t.ch).cur = some r →
    let noNode : Prop := t.unit / 4096 = 10 ∧ ∀ n, n < 4 → s.hw.routerOut (nodeRouter (4 * (t.unit % 4096) + n)) = true
    (¬ noNode → exec (.builtinTestDone t.unit 0) s = .next (s.withHw (s.hw.modFaults (fun f => { f with tests := [{ t with passed := true }] })))) ∧
    (noNode → ∃ h' q, exec (.builtinTestDone t.unit 0) s = .next (s.withHw h') ∧ 1 ≤ q ∧ q ≤ 255 ∧ h'.faults.tests = [] ∧ (h'.chan t.ch).reply = some (response r stOk 0 [w32 (1 + q * 2 ^ 8)])) ∧
    (step ≠ 0 → exec (.builtinTestDone t.unit step) s = .next (s.withHw ((s.hw.modFaults (fun f => { f with tests := [] })).answered t.ch r stOk 0 [w32 (1 + step % 256 * 2 ^ 8)])))) ∧
  (∀ (s : State), let h := s.hw
    let f := h.faults
    (h.time.slot = 0 → f.state = .fault → h.quiet = true → ∃ h', exec .quietPeriodExpiry s = .next (s.withHw h') ∧ h'.faults.state = .normal ∧ h'.faults.recoveries = sat32 (f.recoveries + 1) ∧ h'.faults.fenced = f.fenced ∧
      h.Tells h' 0x0B02) ∧
    (h.time.slot ≠ 0 ∨ f.state ≠ .fault ∨ h.quiet = false → exec .quietPeriodExpiry s = .next s) ∧
    (∃ h', exec .errNPulseEnd s = .next (s.withHw h') ∧ h'.faults.pulsing = false ∧
      h'.faults.errnLow = (match f.errnHold with | 1 => decide (f.state ≠ .normal) | 2 => decide (f.state = .safe) | _ => false)) ∧
    (f.state = .safe → f.rewriteDone = false →
      (let g := h.modFaults (fun f => { f with rewriteDone := true, rewriteFails := 0, quietStart := h.quietNow, quietDone := false, sources := f.sources.map (fun e => (e.1, { e.2 with count := e.2.shadow })) })
       exec (.collectorRewrite true) s = .next (s.withHw g.checkWorkingSet) ∧ (g.workingSetMissing = [] → g.checkWorkingSet.faults.missing = [] ∧ g.checkWorkingSet.faults.rewriteDone = true ∧
         g.checkWorkingSet.faults.quietStart = h.quietNow ∧ g.checkWorkingSet.faults.sources = f.sources.map (fun e => (e.1, { e.2 with count := e.2.shadow })))) ∧
      (∃ h', exec (.collectorRewrite false) s = .next (s.withHw h') ∧ h'.faults.rewriteFails = f.rewriteFails + 1 ∧ h'.faults.rewriteDone = false ∧ (2 ≤ f.rewriteFails → 18 ∈ h'.faults.missing))) ∧
    (h.time.slot = 0 → h.inLehr = false → f.state = .safe → f.missing = [] → f.railsOut = [] → f.rewriteDone = true → h.quiet = true → ∃ h', exec .safeStateExit s = .next (s.withHw h') ∧ h'.faults.state = .normal ∧
      h'.faults.recoveries = sat32 (f.recoveries + 1) ∧ h.Tells h' 0x0B04) ∧
    (h.time.slot ≠ 0 ∨ h.inLehr = true ∨ f.state ≠ .safe ∨ f.missing ≠ [] ∨ f.railsOut ≠ [] ∨ f.rewriteDone = false ∨ h.quiet = false → exec .safeStateExit s = .next s) ∧
    (∀ u, tget 0 f.strikeBase u + 160 * 128 * f.quietMs ≤ h.quietNow → ∃ h', exec (.strikeCountReset u) s = .next (s.withHw h') ∧ tget 0 h'.faults.strikes u = 0 ∧
      ∀ v, v ≠ u → tget 0 h'.faults.strikes v = tget 0 f.strikes v) ∧
    (∀ u, h.strikesOf u ≠ 0 → exec (.strikeCountReset u) s = .next s) ∧
    (h.powered = true → h.isFenced (unitNo 11 h.ctl.activeMp) = false → h.ctl.phase ≠ .rom → h.ctl.phase ≠ .booting → ∃ h', exec .mpLost s = .next (s.withHw h') ∧ h'.faults.mpLost = true ∧ h'.faults.mpLostTick = h.time.tick ∧
      unitNo 11 h.ctl.activeMp ∈ h'.faults.fenced) ∧
    (h.powered = true → h.isFenced (unitNo 11 h.ctl.activeMp) = false → h.ctl.phase = .rom ∨ h.ctl.phase = .booting → ∃ h', exec .mpLost s = .next (s.withHw h') ∧ h'.faults.mpLost = f.mpLost ∧
      h'.ctl.activeMp = 1 - h.ctl.activeMp ∧ unitNo 11 h.ctl.activeMp ∈ h'.faults.fenced) ∧
    (h.powered = false ∨ h.isFenced (unitNo 11 h.ctl.activeMp) = true → exec .mpLost s = .next s) ∧
    (f.mpLost = true → h.ctl.activeMp ≤ 1 → h.isFenced (unitNo 11 (1 - h.ctl.activeMp)) = false → h.ctl.standbyReady = false ∨ (h.time.slot = 0 ∧ f.mpLostTick < h.time.tick) →
      ∃ h', exec .mpTakeover s = .next (s.withHw h') ∧ h'.faults.mpLost = false ∧ h'.ctl.activeMp = 1 - h.ctl.activeMp ∧ h'.ctl.standbyReady = false ∧
        ∀ c r d, c < 16 → (h.chan c).cur = some r → (h.chan c).reply = none → r.opcode ≠ 0x0E03 → (h.chan c).due = some d → r.latched = false → d.tick ≤ h.time.tick → h.ctl.activation = none →
          (h'.chan c).due = none ∧ (h'.chan c).reply = some (response r stTickPassed 0 []) ∧ (h'.chan c).staging = (h.chan c).staging) ∧
    (f.mpLost = false ∨ (h.ctl.standbyReady = true ∧ (h.time.slot ≠ 0 ∨ h.time.tick ≤ f.mpLostTick)) → exec .mpTakeover s = .next s))

/-! ### Power and lehr -/

/-- R508, R509, R512 to R520: the limiter withholds one more sixteenth from the heavier half while the package is over its limit, up to 12, and gives one
back while it is under; the automatic clock moves a half one level. A hot die is told once; a hot stack halves its rate until it is cool. The part in
lehr wakes at its tick or on a signal, and resumes with full buckets and its transmitters awake. A complex that serves nothing is reset; the end of a
partial reset is told, and trains the ports it left dark. The model's own choices in it: log 59, 62, 99, 125. -/
def Obligations.PowerAndLehr : Prop :=
  (∀ (s : State) (half : Nat), half < 2 →
    let h := s.hw
    let p := h.power
    let v := nth p.levels half
    (p.overLimit = true → half = p.heavier → half < p.throttle.length → ∃ h', exec (.powerLimiterStep half) s = .next (s.withHw h') ∧ nth h'.power.throttle half = min 12 (nth p.throttle half + 1) ∧
      nth h'.power.throttle (1 - half) = nth p.throttle (1 - half) ∧ h'.power.acted = true) ∧
    (p.overLimit = true → half ≠ p.heavier → exec (.powerLimiterStep half) s = .next s) ∧
    (p.overLimit = false → p.underLimit = true → half < p.throttle.length → ∃ h', exec (.powerLimiterStep half) s = .next (s.withHw h') ∧ nth h'.power.throttle half = nth p.throttle half - 1) ∧
    (p.overLimit = false → p.underLimit = false → exec (.powerLimiterStep half) s = .next s) ∧
    let may : Prop := h.time.slot = 0 ∧ h.faults.mpLost = false ∧ h.eventsOn = true ∧ h.inLehr = false ∧ h.faults.state ≠ .safe
    let due (low : Bool) : Prop := ∃ t, t ≤ h.time.tick ∧ (t, half, low) ∈ p.clockNext
    let g (low : Bool) : Hw := h.modPower (fun p => { p with clockNext := p.clockNext.filter (fun e => ¬ (e.1 ≤ h.time.tick ∧ e.2.1 = half ∧ e.2.2 = low)) })
    (may → due true → v < 3 →
      (((g true).setLevel half (v + 1) true).fitFails = none → exec (.autoClockLower half) s = .next (s.withHw ((g true).setLevel half (v + 1) true))) ∧
      (((g true).setLevel half (v + 1) true).fitFails ≠ none → p.persistTold = false →
        exec (.autoClockLower half) s = .next (s.withHw (((g true).modPower (fun p => { p with persistTold := true })).raise 0x0D04 [w32 half]))) ∧
      (((g true).setLevel half (v + 1) true).fitFails ≠ none → p.persistTold = true → exec (.autoClockLower half) s = .next (s.withHw (g true)))) ∧
    (may → due true → 3 ≤ v → exec (.autoClockLower half) s = .next (s.withHw (g true))) ∧
    (¬ may ∨ ¬ due true → exec (.autoClockLower half) s = .next s) ∧
    (may → due false → exec (.autoClockRaise half) s = .next (s.withHw (if v ≤ nth p.setLevels half then g false else (g false).setLevel half (v - 1) true))) ∧
    (¬ may ∨ ¬ due false → exec (.autoClockRaise half) s = .next s) ∧
    (∀ level auto, half < p.levels.length → nth (h.setLevel half level auto).power.levels half = level ∧ h.Tells (h.setLevel half level auto) 0x0D03) ∧
    (p.autoClock = true → 0 < p.throttledRun → p.throttledRun % 64 = 0 → p.decide_ h.time.tick = { p with clockNext := p.clockNext ++ [(h.time.tick + 1, p.heavier, true)] }) ∧
    (p.autoClock = true → p.throttledRun = 0 → 0 < p.clearRun → p.clearRun % 1024 = 0 → nth p.setLevels half < v → (h.time.tick + 1, half, false) ∈ (p.decide_ h.time.tick).clockNext) ∧
    (p.autoClock = false → p.decide_ h.time.tick = p) ∧
    (95 ≤ p.temps.getD (16 + half) 0 → ∃ h', exec (.hbmThermalLimit half) s = .next (s.withHw h') ∧ (h'.stack half).hot = true) ∧
    (p.temps.getD (16 + half) 0 < 95 → exec (.hbmThermalLimit half) s = .next s) ∧
    (p.temps.getD (16 + half) 0 < 90 → ∃ h', exec (.hbmThermalRelease half) s = .next (s.withHw h') ∧ (h'.stack half).hot = false) ∧
    (90 ≤ p.temps.getD (16 + half) 0 → exec (.hbmThermalRelease half) s = .next s)) ∧
  (∀ (s : State) (die : Nat), die < 20 →
    (die ∉ s.hw.power.hotDies → (s.hw.power.throttleC : Int) ≤ s.hw.power.temps.getD die 0 →
      exec (.thermalThrottle die) s = .next (s.withHw ((s.hw.modPower (fun p => { p with hotDies := p.hotDies ++ [die] })).report 0xD02 0 (unitNo 15 die)))) ∧
    (die ∈ s.hw.power.hotDies ∨ s.hw.power.temps.getD die 0 < s.hw.power.throttleC → exec (.thermalThrottle die) s = .next s)) ∧
  (∀ (s : State) (t : Nat),
    let h := s.hw
    let l := h.power.lehr
    (l.phase = .asleep t →
      (l.told = false → exec .lehrEntered s = .next (s.withHw ((h.modLehr (fun l => { l with told := true })).raise 0x0D01 [w32 t]))) ∧
      (h.time.slot = 0 → l.onTick = true → l.wakeTick ≤ h.time.tick → exec .lehrWakeTick s = .next (s.withHw (h.modLehr (fun l => { l with phase := .waking h.time.tick, cause := 2, told := true })))) ∧
      (h.time.slot ≠ 0 ∨ l.onTick = false ∨ h.time.tick < l.wakeTick → exec .lehrWakeTick s = .next s) ∧
      (∀ p, p < 264 → p ∈ l.ports → p ∉ l.signals → exec (.lehrWakeSignal p) s = .next (s.withHw (h.modLehr (fun l => { l with signals := l.signals ++ [p], signalled := if l.onSignal ∧ l.signalled.isNone then some p else l.signalled })))) ∧
      exec .lehrForwardingResume s = .next s) ∧
    (l.phase = .waking t → ∃ h', exec .lehrForwardingResume s = .next (s.withHw h') ∧ h'.inLehr = false ∧
      (∀ p ∈ l.ports, h.isV16 p = false → p ∉ l.signals → (h'.port p).lanes.txAsleep = false) ∧
      (∀ p ∈ l.ports, h.isV16 p = false → p ∈ l.signals → (h.port p).lanes.state = 2 → (h'.port p).lanes.state = 3) ∧
      (∀ c, (h'.cx c).cullet = []) ∧
      (∀ c r, c < 16 → (h.chan c).cur = some r → r.opcode = 0x0D02 → r.waiting = false → (h.chan c).reply = none → (h.chan c).due = none → (h'.chan c).reply = some (response r stOk 0 r.out)) ∧
      h.Tells h' 0x0D02) ∧
    (l.phase = .awake → exec .lehrEntered s = .next s ∧ exec .lehrForwardingResume s = .next s)) ∧
  (∀ (s : State) (r : PartReset), s.hw.power.resets = [r] → r.begun = true →
    let h := s.hw
    (∀ c, c < 128 → h.time.slot = 0 → r.kind = 1 → r.index = c → r.applied = false → (∀ p, p < 264 → h.home p ≠ c) → (locCx (h.locate h.mesh.injEpoch c) ≠ c ∨ c ∈ h.mesh.unmapped) → h.mesh.reasons.getLsbD 1 = false →
      h.mesh.flipNext = none → h.holdsSlot c = false → ∃ h', exec (.complexResetApply c) s = .next (s.withHw h') ∧ h'.cx c = (h.cx c).cleared ∧ h'.power.resets = [{ r with applied := true }]) ∧
    (∀ c, c < 128 → h.time.slot ≠ 0 ∨ r.kind ≠ 1 ∨ r.index ≠ c ∨ (∃ p, p < 264 ∧ h.home p = c) ∨ h.holdsSlot c = true → exec (.complexResetApply c) s = .next s) ∧
    (2 ≤ r.outcome → r.kind ≤ 2 → exec (.resetPartialDone r.unit) s =
      .next (s.withHw ((h.modPower (fun q => { q with resets := [] })).raise 0x0D05 [w32 (r.kind + r.index * 2 ^ 8 + b2n (r.outcome = 2) * 2 ^ 16)]))) ∧
    (r.kind = 3 → r.index < 8 → r.applied = true → ∃ h', exec (.resetPartialDone r.unit) s = .next (s.withHw h') ∧ h'.power.resets = [] ∧ h.Tells h' 0x0D05 ∧
      ∀ p, 32 * r.index ≤ p → p < 32 * r.index + 32 → (h.port p).lanes.state = 0 → (h'.port p).lanes.state = if ((h.port p).lanes.next.getD (h.port p).lanes.cfg).enable then 1 else 0))

/-! ### Resets, registers, pins and edges -/

/-- R43 to R45, R47, R62, R63, R67, R70, R467, R503, R504, R515, R537: SYS_RST_N falling resets the part cold and keeps the flash, the fault history and
the recorded fences; its release samples the straps and starts the boot ROM. A rail out of range is a C3 fault, and for 10 µs a cold reset; a trip
holds the part. A boot with an image runs it and enables every channel, and with none leaves channels 0 and 12. RESET_ARM asks for the warm reset of
the next tick or for the standby. A life-cycle transition ends in the fuses. A register write acts on its register alone. The model's own choices in it: log 7, 8, 10, 16, 64, 133. -/
def Obligations.ResetBootAndRegisters : Prop :=
  ∀ (s : State), let h := s.hw
    (h.pins.resetLow = false → ∃ h', exec .sysRstNFall s = .next (s.withHw h') ∧ h'.pins.resetLow = true ∧ h'.ctl.flash = h.ctl.flash ∧ h'.faults.history = h.faults.history ∧
      h'.faults.recorded = h.faults.recorded ∧ h'.faults.fenced = [] ∧ h'.time = {} ∧ h'.groups = [] ∧ h'.ports = [] ∧ h'.mesh = {} ∧ h'.lasers = {} ∧ h'.power = {} ∧ h'.pins.tripLow = false) ∧
    (h.pins.resetLow = true → exec .sysRstNFall s = .next s) ∧
    (∀ straps, h.pins.resetLow = true → ∃ h', exec (.sysRstNRelease straps) s = .next (s.withHw h') ∧ h'.pins.resetLow = false ∧ h'.pins.straps = straps % 128 ∧ h'.ctl.phase = .rom ∧ h'.ctl.wipeActive = true ∧
      h'.ctl.linkUp = ! h.ctl.perstLow) ∧
    (∀ straps, h.pins.resetLow = false → exec (.sysRstNRelease straps) s = .next s) ∧
    (∀ rail, rail < 11 → rail ∉ h.faults.railsOut → h.pins.resetLow = false → ∃ h', exec (.supplyOutOfRange rail) s = .next (s.withHw h') ∧ h'.faults.state = .safe ∧
      h'.faults.railsOut = h.faults.railsOut ++ [rail] ∧ (h'.faults.src 0xD03).worst = max (h.faults.src 0xD03).worst 3) ∧
    (∀ rail, 11 ≤ rail ∨ rail ∈ h.faults.railsOut → exec (.supplyOutOfRange rail) s = .next s) ∧
    (h.pins.resetLow = false → h.faults.railsOut ≠ [] → exec .supplyOutTimeout s = .next (s.withHw h.coldReset)) ∧ (h.faults.railsOut = [] → exec .supplyOutTimeout s = .next s) ∧
    (∀ rail, let left := h.faults.railsOut.filter (· ≠ rail)
      exec (.supplyInRange rail) s = .next (s.withHw (h.modFaults (fun f => if h.faults.railsOut ≠ [] ∧ left = [] then { f with railsOut := left, quietStart := h.quietNow, quietDone := false }
        else { f with railsOut := left })))) ∧
    (h.pins.resetLow = false → ∃ h', exec .refclkLoss s = .next (s.withHw h') ∧ h'.pins.resetLow = true ∧ h'.groups = [] ∧ h'.ctl.flash = h.ctl.flash) ∧
    (∀ die, die < 20 → h.powered = true → 125 ≤ h.power.temps.getD die 0 → ∃ h', exec (.thermalTrip die) s = .next (s.withHw h') ∧ h'.pins.tripLow = true ∧ h'.pins.held = true ∧ h'.ctl.linkUp = false ∧ h'.lasers = {}) ∧
    (∀ die, die < 20 → h.powered = false ∨ h.power.temps.getD die 0 < 125 → exec (.thermalTrip die) s = .next s) ∧
    (h.powered = true → h.ctl.phase = .rom ∨ h.ctl.phase = .booting → h.bootPick s.fuses = none → ∃ h', exec .bootComplete s = .next (s.withHw h') ∧ h'.ctl.phase = .recovery ∧ (h'.chan 0).enabled = true ∧ (h'.chan 12).enabled = true ∧
      ∀ c, c ≠ 0 → c ≠ 12 → h'.chan c = h.chan c) ∧
    (∀ slot, h.powered = true → h.ctl.phase = .rom ∨ h.ctl.phase = .booting → h.bootPick s.fuses = some slot → h.faults.recorded = [] → h.faults.mpFenced.all id = false →
      ∃ h', exec .bootComplete s = .next (s.withHw h') ∧ h'.ctl.phase = .running ∧ h'.ctl.runningSlot = slot ∧ (∀ c, c < 16 → (h'.chan c).enabled = true) ∧
        h'.ctl.activeMp = if h.faults.mpFenced.getD 0 false then 1 else 0) ∧
    (h.accessible = true → h.ctl.resetKind = 1 → ∃ h', exec .resetArmWarm s = .next (s.withHw h') ∧ h'.power.warmNext = some (h.time.tick + 1) ∧ h'.ctl.resetKind = 0) ∧
    (h.ctl.resetKind ≠ 1 → exec .resetArmWarm s = .next s) ∧
    (h.accessible = true → h.ctl.resetKind = 2 → ∃ h', exec .resetArmMpSwitch s = .next (s.withHw h') ∧ h'.ctl.resetKind = 0 ∧
      if h.ctl.standbyReady then h'.ctl.mpSwitch = true else h'.ctl.armIgnored = true) ∧
    (h.ctl.resetKind ≠ 2 → exec .resetArmMpSwitch s = .next s) ∧
    (∀ target, h.ctl.lcTarget = some target → h.power.lcReset = true → h.ctl.phase = .running → ∃ t, exec .lcTransitionDone s = .next t ∧ t.fuses.lc = target ∧ t.hw.ctl.lcTarget = none ∧ t.hw.power.lcReset = false ∧
      t.fuses.deviceKeys = (if target = .provisioned then true else if target = .retired then false else s.fuses.deviceKeys) ∧ h.Tells t.hw 0x0E03) ∧
    (h.ctl.lcTarget = none → exec .lcTransitionDone s = .next s) ∧
    (∀ v, h.accessible = true → exec (.registerWrite 0x14 4 v) s = .next (s.withHw (h.modCtl (fun c => { c with scratch := v })))) ∧
    (∀ c i v, h.accessible = true → c < 12 → i < 1024 → (h.chan c).busy = false →
      exec (.registerWrite (0x10000 + 0x2000 * c + 4 * i) 4 v) s = .next (s.withHw (h.modChan c (fun x => { x with req := tput x.req i v })))) ∧
    (∀ c i v, h.accessible = true → c < 12 → i < 1024 → (h.chan c).busy = true →
      exec (.registerWrite (0x10000 + 0x2000 * c + 4 * i) 4 v) s = .next (s.withHw (h.modChan c (fun x => { x with wrIgnored := true })))) ∧
    (∀ v, h.accessible = true → exec (.registerWrite 0x31004 4 v) s = .next (s.withHw (h.modCtl (fun c => { c with resetKind := v.toNat % 4 })))) ∧
    (∀ off size v, h.accessible = false ∨ size ≠ 4 ∨ off % 4 ≠ 0 → exec (.registerWrite off size v) s = .next s)

/-- R81, R119, R165, R173, R191, R193, R268, R373, Tables 3.4 and 3.5: a tick edge makes the refill of slot 0, E1 to E7 in order, and the work of a slot
start; a slot start begins the next slot, up to 127. E1 counts the tick; E3 flips the epoch that a flip names; E4 sets the winnow bits of ports that
may not serve and clears those of ports whose hold has ended; E5 counts patience down; E7 wakes the threads that wait for it. A refill adds a queue's
increment up to its burst, with the settings committed from slot 1 on. The model's own choices in it: log 51, 52, 123, 125. -/
def Obligations.EdgeSteps : Prop :=
  (∀ (s : State) (m : SlotMeas), s.hw.powered = true →
    let h := s.hw
    let e2 := ((if h.inLehr then h else h.refillAll 0).edgeLatch s.fuses).edgeCommit s.fuses
    let e7 := (((e2.edgeRegime.edgeFence s.fuses).edgePatience).edgeAdmit).edgeHooks
    let end_ := if e7.inLehr ∨ e7.faults.mpLost = true ∨ e7.eventsOn = false then e7 else e7.gleanTick s.fuses.deviceUid
    exec (.tickEdge m) s = .next (s.withHw (end_.slotWork s.fuses m)) ∧
    (h.time.slot < 127 → let h1 := h.modTime (fun t => { t with slot := t.slot + 1, standby := (t.standby.1, t.standby.2.1, t.standby.2.2 + 1) })
      exec (.slotStart m) s = .next (s.withHw (((if h1.inLehr then h1 else h1.refillAll (h.time.slot + 1)).slotWork s.fuses m).slotFixed s.fuses))) ∧
    (127 ≤ h.time.slot → exec (.slotStart m) s = .next s)) ∧
  (∀ (s : State) (m : SlotMeas), s.hw.powered = false → exec (.tickEdge m) s = .next s ∧ exec (.slotStart m) s = .next s) ∧
  (∀ (h : Hw),
    (h.time.stepTo = none → h.advanceTime.time.tick = h.time.tick + 1 ∧ h.advanceTime.time.base = h.time.base + h.time.mult ∧ h.advanceTime.time.slot = 0) ∧
    (∀ n, h.time.stepTo = some (some n) → h.advanceTime.time.tick = n ∧ h.advanceTime.time.base = n * h.time.mult ∧ h.advanceTime.time.slot = 0) ∧
    (∀ e, h.mesh.flipNext = some e → h.mesh.flipAt ≤ h.time.tick → let m := h.flipDue.mesh
      m.injEpoch = e ∧ m.flipNext = none ∧ m.flipTick = h.time.tick ∧ m.drainDone = 0 ∧ m.reasons.getLsbD 1 = true) ∧
    (h.mesh.flipNext = none ∨ h.time.tick < h.mesh.flipAt → h.flipDue = h) ∧
    (h.edgeRegime.mesh.regimeBubble = true ↔ h.edgeRegime.mesh.reasons ≠ 0) ∧
    (∀ p, p < 264 → h.winnowStep.mesh.winnow.getLsbD p = ((h.mesh.winnow.getLsbD p || h.winnowBad p) && ! h.mayOpen p)) ∧
    (∀ g x n k c, h.grp? g = some x → h.counting x = true → x.plan = none → x.gen? n.no = some n → tget? n.open_ k = some c → h.still c = false → c.ending = false →
      ∃ x' n', h.patienceStep.grp? g = some x' ∧ x'.gen? n.no = some n' ∧ tget? n'.open_ k = some { c with patience := c.patience - 1 }) ∧
    (∀ g x, h.grp? g = some x → h.counting x = false → h.patienceStep.grp? g = some x) ∧
    (∀ t th come, let g := (h.groups.map (·.1)).foldl Hw.tickHooks h
      (∀ v ∈ g.progs.invs, g.stalled v.2 = false) → tget? h.progs.threads t = some th → th.state = .waitTick come → tget? h.edgeHooks.progs.threads t = some { th with state := .waitTick true })) ∧
  (∀ (h : Hw) (slot p : Nat) (n : Nat) (q : Queue), tget? (h.port p).queues n = some q →
    ∃ q', tget? ((h.refillPort slot p).port p).queues n = some q' ∧
      (slot ≠ 1 ∨ q.nextShaper = none → q'.shaper = q.shaper ∧ q'.tokens = min ((q.shaper.burst : Int) * 65536) (q.tokens + (increment q.shaper.rate h.time.mult : Int))) ∧
      (∀ c, slot = 1 → q.nextShaper = some c → q'.shaper = c ∧ q'.nextShaper = none ∧
        q'.tokens = min ((c.burst : Int) * 65536) ((if c.enable ∧ ¬ q.shaper.enable then (c.burst : Int) * 65536 else min q.tokens ((c.burst : Int) * 65536)) + (increment c.rate h.time.mult : Int))) ∧
      q'.entries = q.entries)

/-- R532: BYPASS and IDCODE put zero or the identification code in the chain; SAMPLE/PRELOAD takes the levels at the balls; EXTEST, CLAMP and HIGHZ drive,
hold or release the balls while SYS_RST_N is low or in MANUFACTURE, and are BYPASS elsewhere. No instruction of the port changes anything else. -/
def Obligations.TestAccessPort : Prop :=
  ∀ (s : State) (l : List Bool),
    let put (p : Pins) : Host.Outcome State Fault Refusal := .next (s.withHw { s.hw with pins := p })
    let own (p : Pins) : Pins := { p with driven := none, floating := false }
    let bypass := put { own s.hw.pins with instr := .bypass, tdo := 0 }
    let acts : Prop := s.hw.pins.resetLow = true ∨ s.fuses.lc = .manufacture
    exec .bypass s = bypass ∧ exec .idcode s = put { own s.hw.pins with instr := .idcode, tdo := 0x17020A3F } ∧
    exec (.samplePreload l) s = put { own s.hw.pins with instr := .samplePreload, boundary := l } ∧
    (acts → exec (.extest l) s = put { s.hw.pins with instr := .extest, boundary := l, driven := some l, floating := false } ∧
      exec .clamp s = put { s.hw.pins with instr := .clamp, tdo := 0, driven := some s.hw.pins.boundary, floating := false } ∧
      exec .highz s = put { s.hw.pins with instr := .highz, tdo := 0, driven := none, floating := true }) ∧
    (¬ acts → exec (.extest l) s = bypass ∧ exec .clamp s = bypass ∧ exec .highz s = bypass)

/-! ### The step and the state after reset -/

/-- A step takes the command at the front of the queue and is `exec` of it on the state with the queue's rest; with none waiting the block idles (the
model's choice, log 1), and no word of the table's bits spells a command. A command's own effect leaves the queue alone. The model's own choices in it: log 1, 104. -/
def Obligations.StepRunsFrontCommand : Prop :=
  (∀ (s : State) (c : Instr) (rest : List Instr), s.pending = c :: rest → step s = exec c { s with pending := rest }) ∧
  (∀ (s : State), s.pending = [] → step s = .next s) ∧
  (∀ (s : State) (nbits w : Nat), decodeTableWord nbits w = none ∧ s.withFetchWord nbits w = s) ∧
  (∀ (s t : State) (c : Instr), exec c s = .next t → t.pending = s.pending)

/-- Every command that names units the W20 has completes, whatever the state; none is ever refused, and the only fault is that of a unit the W20 does not
have. The fault for such a unit is the model's choice (log 2). The model's own choices in it: log 2, 4. -/
def Obligations.EveryCommandCompletes : Prop :=
  (∀ (s : State) (c : Instr), c.wf = true → ∃ t, exec c s = .next t) ∧
  (∀ (s : State) (c : Instr) (r : Refusal), exec c s ≠ .refused r) ∧
  (∀ (s : State) (c : Instr) (f : Fault), exec c s = .fault f → c.wf = false ∧ ∃ n, f = .noSuchUnit n) ∧
  (∀ (s : State) (p : Nat) (k : Pkt), 264 ≤ p → exec (.packetReceive p k) s = .fault (.noSuchUnit p))

/-- R160, R194, R198, R382, R448, R464 to R466, Tables 5.12, 5.13, 7.4, 18.9: after a cold reset the TC3 queues are shaped at 8,000 Mb/s with a burst of
16,384 bytes and no other queue is; a queue holds 2,048 cells and marks none; ports hold the limits of their kind and admit no job; the address map is
the identity in both epochs; no region of a stack is sized; ERR_N is held while SAFE and not by C1, the quiet period is 100 ms; the limits are 1,150 W
and 105 °C with the automatic clock; the tick multiplier is 8. What the command queue holds, nothing, and the fuses are the model's own. The model's own choices in it: log 7, 8. -/
def Obligations.ResetValues : Prop :=
  let h := State.reset.hw
  State.reset.pending = [] ∧ State.reset.FusesLegal ∧
  (∀ p, p < 264 →
    let x := h.port p
    (∀ q, q < 64 → (x.queue q).maxDepth = 2048 ∧ (x.queue q).ecnEnable = false ∧ (x.queue q).entries = [] ∧
      (if 48 ≤ q then (x.queue q).shaper.enable = true ∧ (x.queue q).shaper.rate = 8000 ∧ (x.queue q).shaper.burst = 16384
       else (x.queue q).shaper.enable = false ∧ (x.queue q).shaper.rate = 0 ∧ (x.queue q).shaper.burst = 0)) ∧
    x.limits.credit = (if p < 256 then [656, 656, 64, 16] else [256, 256, 32, 8]) ∧ x.limits.moved = (if p < 256 then [328, 328, 32, 8] else [128, 128, 16, 8]) ∧
    (∀ j, h.admits p j = false) ∧ (∀ j, tget 0 x.jobQueue j = 0) ∧ (∀ j, tget 0 x.meterMap j = 0) ∧ x.classQuantum = (16384, 16384) ∧ (∀ i, tget 0 x.counters i = 0)) ∧
  (∀ c, c < 144 → (h.cx c).share = (if c < 128 ∧ c % 16 = 15 then 13 else 11) ∧ (h.cx c).preset = 1 ∧ (h.cx c).attach = .serving) ∧
  (∀ e a, h.locate e a = identityLoc a) ∧ h.mesh.injEpoch = 0 ∧
  (∀ k, (h.stack k).spill = 0 ∧ (h.stack k).echo = 0 ∧ (h.stack k).snap = 0) ∧ h.groups = [] ∧ h.progs.images = [] ∧ h.mem.parts = [] ∧ h.disc.ranks = [] ∧ h.disc.serial = 0 ∧
  h.faults.quietMs = 100 ∧ h.faults.errnHold = 2 ∧ h.faults.errnOnC1 = false ∧ h.faults.errnLow = false ∧ h.faults.state = .normal ∧ h.faults.fenced = [] ∧
  h.power.limit = 1150 ∧ h.power.throttleC = 105 ∧ h.power.autoClock = true ∧ h.power.levels = [0, 0] ∧ h.time.mult = 8 ∧ h.time.tick = 0
end

