-- ==== Sys2Proof/Laws/Tables.lean ====
section
/-!
SUPPORT. Tables and memories: what a read after a write gives, and that every memory operation keeps the canonical form.
-/

namespace Sys2Proof

@[simp] theorem tget?_tput {α : Type} (t : Tbl α) (a : Nat) (x : α) : tget? (tput t a x) a = some x := by
  induction t with
  | nil => simp [tput, tget?]
  | cons e t ih =>
    obtain ⟨k, v⟩ := e
    unfold tput
    split
    · simp [tget?]
    · split
      · simp [tget?]
      · rename_i h1 h2
        simp [tget?, ih, Ne.symm h2]

theorem tget?_tput_ne {α : Type} (t : Tbl α) {a b : Nat} (x : α) (hb : b ≠ a) : tget? (tput t a x) b = tget? t b := by
  induction t with
  | nil => simp [tput, tget?, Ne.symm hb]
  | cons e t ih =>
    obtain ⟨k, v⟩ := e
    unfold tput
    split
    · simp [tget?, Ne.symm hb]
    · split
      · rename_i h1 h2
        subst h2
        simp [tget?, Ne.symm hb]
      · simp [tget?, ih]

@[simp] theorem tget_tput {α : Type} (d : α) (t : Tbl α) (a : Nat) (x : α) : tget d (tput t a x) a = x := by simp [tget]

theorem tget_tput_ne {α : Type} {d : α} (t : Tbl α) {a b : Nat} (x : α) (hb : b ≠ a) : tget d (tput t a x) b = tget d t b := by
  simp [tget, tget?_tput_ne t x hb]

/-- Putting twice at one key keeps the last. -/
@[simp] theorem tput_tput {α : Type} (t : Tbl α) (a : Nat) (x y : α) : tput (tput t a x) a y = tput t a y := by
  induction t with
  | nil => simp [tput]
  | cons e t ih =>
    obtain ⟨k, v⟩ := e
    by_cases h1 : a < k
    · simp [tput, h1]
    · by_cases h2 : a = k
      · simp [tput, h2]
      · simp [tput, h1, h2, ih]

end Sys2Proof

namespace Sys2Proof.Machine
open Sys2Proof

/-! ### The canonical form of a memory -/

theorem memWfFrom_mono {d : Byte} {b c : Nat} {m : List Host.Cell} (h : memWfFrom d c m = true) (hb : b ≤ c) : memWfFrom d b m = true := by
  cases m with
  | nil => rfl
  | cons e t =>
    obtain ⟨k, v⟩ := e
    simp only [memWfFrom, Bool.and_eq_true, decide_eq_true_eq] at h ⊢
    exact ⟨⟨by omega, h.1.2⟩, h.2⟩

theorem memWrite_wfFrom (d : Byte) (m : List Host.Cell) (a : Nat) (x : Byte) (b : Nat) (h : memWfFrom d b m = true) (ha : b ≤ a) :
    memWfFrom d b (memWrite d m a x) = true := by
  induction m generalizing b with
  | nil =>
    unfold memWrite
    split
    · rfl
    · rename_i hx
      simp [memWfFrom, ha, hx]
  | cons e t ih =>
    obtain ⟨k, v⟩ := e
    simp only [memWfFrom, Bool.and_eq_true, decide_eq_true_eq] at h
    obtain ⟨⟨hk, hv⟩, ht⟩ := h
    unfold memWrite
    split
    · split
      · simp [memWfFrom, hk, hv, ht]
      · rename_i hlt hx
        simp only [memWfFrom, Bool.and_eq_true, decide_eq_true_eq]
        exact ⟨⟨ha, hx⟩, ⟨by omega, hv⟩, ht⟩
    · split
      · split
        · exact memWfFrom_mono ht (by omega)
        · rename_i hx
          simp only [memWfFrom, Bool.and_eq_true, decide_eq_true_eq]
          exact ⟨⟨ha, hx⟩, memWfFrom_mono ht (by omega)⟩
      · simp only [memWfFrom, Bool.and_eq_true, decide_eq_true_eq]
        exact ⟨⟨hk, hv⟩, ih (k + 1) ht (by omega)⟩

/-- A byte written keeps the canonical form. -/
theorem memWrite_wf {d : Byte} {m : List Host.Cell} (h : memWf d m = true) (a : Nat) (x : Byte) : memWf d (memWrite d m a x) = true :=
  memWrite_wfFrom d m a x 0 h (Nat.zero_le a)

/-- Bytes written keep the canonical form. -/
theorem memWriteList_wf {d : Byte} {m : List Host.Cell} (h : memWf d m = true) (a : Nat) (l : List Byte) : memWf d (memWriteList d m a l) = true := by
  unfold memWriteList
  induction l generalizing m a with
  | nil => exact h
  | cons x l ih => exact ih (memWrite_wf h a x) (a + 1)

theorem filter_wfFrom {d : Byte} (p : Host.Cell → Bool) {m : List Host.Cell} {b : Nat} (h : memWfFrom d b m = true) : memWfFrom d b (m.filter p) = true := by
  induction m generalizing b with
  | nil => rfl
  | cons e t ih =>
    obtain ⟨k, v⟩ := e
    simp only [memWfFrom, Bool.and_eq_true, decide_eq_true_eq] at h
    rw [List.filter_cons]
    split
    · simp only [memWfFrom, Bool.and_eq_true, decide_eq_true_eq]
      exact ⟨h.1, ih h.2⟩
    · exact memWfFrom_mono (ih h.2) (by omega)

/-- A wipe keeps the canonical form. -/
theorem memWipe_wf {d : Byte} {m : List Host.Cell} (h : memWf d m = true) (a n : Nat) : memWf d (memWipe m a n) = true := filter_wfFrom _ h

/-- Every memory of the state after reset is in canonical form. -/
theorem reset_memories_wf : memWf 0 State.reset.hw.ctl.bulk = true ∧ memWf 0xFF State.reset.hw.ctl.flash = true := by decide

theorem memRead_below {d : Byte} {m : List Host.Cell} {b a : Nat} (h : memWfFrom d b m = true) (ha : a < b) : memRead d m a = d := by
  induction m generalizing b with
  | nil => rfl
  | cons e t ih =>
    obtain ⟨k, v⟩ := e
    simp only [memWfFrom, Bool.and_eq_true, decide_eq_true_eq] at h
    have hk : k ≠ a := by omega
    have := ih h.2 (by omega)
    simpa [memRead, tget, tget?, hk] using this

theorem memRead_memWrite_from {d : Byte} {m : List Host.Cell} {b : Nat} (h : memWfFrom d b m = true) (a : Nat) (x : Byte) (c : Nat) :
    memRead d (memWrite d m a x) c = if c = a then x else memRead d m c := by
  induction m generalizing b with
  | nil =>
    unfold memWrite
    by_cases hx : x = d
    · simp [hx, memRead, tget, tget?]
    · by_cases hc : c = a
      · simp [hx, hc, memRead, tget, tget?]
      · simp [hx, hc, memRead, tget, tget?, Ne.symm hc]
  | cons e t ih =>
    obtain ⟨k, v⟩ := e
    have hfull := h
    simp only [memWfFrom, Bool.and_eq_true, decide_eq_true_eq] at h
    have ht := memWfFrom_mono h.2 (Nat.le_refl _)
    unfold memWrite
    split
    · rename_i hlt
      split
      · rename_i hx
        split
        · rename_i hc
          subst hc hx
          have hk : k ≠ c := by omega
          have := memRead_below h.2 (show c < k + 1 by omega)
          simpa [memRead, tget, tget?, hk] using this
        · rfl
      · split
        · rename_i hc; subst hc; simp [memRead, tget, tget?]
        · rename_i hc; simp [memRead, tget, tget?, Ne.symm hc]
    · split
      · rename_i he
        subst he
        split
        · rename_i hx
          split
          · rename_i hc; subst hc hx; exact memRead_below h.2 (by omega)
          · rename_i hc; simp [memRead, tget, tget?, Ne.symm hc]
        · split
          · rename_i hc; subst hc; simp [memRead, tget, tget?]
          · rename_i hc; simp [memRead, tget, tget?, Ne.symm hc]
      · rename_i h1 h2
        have := ih h.2
        simp only [memRead, tget, tget?] at this ⊢
        by_cases hk : k = c
        · subst hk
          have : k ≠ a := fun e => h2 e.symm
          simp [this]
        · simpa [hk] using this

/-- A read after a write gives the byte written there, and every other byte as before. -/
theorem memRead_memWrite {d : Byte} {m : List Host.Cell} (h : memWf d m = true) (a : Nat) (x : Byte) (c : Nat) :
    memRead d (memWrite d m a x) c = if c = a then x else memRead d m c := memRead_memWrite_from h a x c

/-- A read after a write of many bytes. -/
theorem memRead_memWriteList {d : Byte} {m : List Host.Cell} (h : memWf d m = true) (a : Nat) (l : List Byte) (c : Nat) :
    memRead d (memWriteList d m a l) c = if a ≤ c ∧ c < a + l.length then l.getD (c - a) 0 else memRead d m c := by
  unfold memWriteList
  induction l generalizing m a with
  | nil => simp
  | cons x l ih =>
    have := ih (memWrite_wf h a x) (a + 1)
    rw [List.foldl_cons]
    rw [this, memRead_memWrite h]
    by_cases hc : c = a
    · subst hc; simp
    · by_cases h1 : a + 1 ≤ c ∧ c < a + 1 + l.length
      · have : c - a = (c - (a + 1)) + 1 := by omega
        rw [if_pos h1, if_pos (by simp; omega), this, List.getD_cons_succ]
      · rw [if_neg h1, if_neg hc, if_neg (by simp; omega)]

end Sys2Proof.Machine
end

