-- ==== Sys2Proof/Laws/Dci.lean ====
section
/-!
SUPPORT. What a request's command can do, said once: answer it, stage it, or leave it alone.
-/

namespace Sys2Proof.Machine
open Sys2Proof

@[simp] theorem chan_modChan (h : Hw) (c : Nat) (f : Chan → Chan) : (h.modChan c f).chan c = f (h.chan c) := by
  simp [Hw.chan, Hw.modChan, tmod]

theorem chan_modChan_ne (h : Hw) {c d : Nat} (f : Chan → Chan) (hd : d ≠ c) : (h.modChan c f).chan d = h.chan d := by
  simp [Hw.chan, Hw.modChan, tmod, tget_tput_ne _ _ hd]

theorem modChan_modChan (h : Hw) (c : Nat) (f g : Chan → Chan) : (h.modChan c f).modChan c g = h.modChan c (g ∘ f) := by
  simp [Hw.modChan, tmod]

/-- The reply of a channel whose request is r. -/
theorem reply_eq {h : Hw} {c : Nat} {r : Request} (hr : (h.chan c).cur = some r) (st d : Nat) (out : List Word) :
    h.reply c st d out = h.answered c r st d out := by
  have e : ∀ f g : Chan → Chan, f (h.chan c) = g (h.chan c) → h.modChan c f = h.modChan c g := by
    intro f g hfg
    have hfg : f (tget {} h.ctl.chans c) = g (tget {} h.ctl.chans c) := hfg
    simp only [Hw.modChan, tmod, hfg]
  unfold Hw.reply Hw.answered
  apply e
  simp only [hr]

/-- A command that is asked runs. -/
theorem withRequest_asks {h : Hw} {c op : Nat} {r : Request} (ha : h.Asks c op r) (f : Request → Hw) : h.withRequest c op f = f r := by
  obtain ⟨h1, h2, h3, h4, h5⟩ := ha
  simp [Hw.withRequest, h1, h2, h3, h4, h5]

/-- A command that nobody asks for changes nothing. -/
theorem withRequest_none {h : Hw} {c op : Nat} (hn : ∀ r, ¬ h.Asks c op r) (f : Request → Hw) : h.withRequest c op f = h := by
  unfold Hw.withRequest
  by_cases hp : h.faults.mpLost = true
  · simp [hp]
  · rw [if_neg hp]
    cases hr : (h.chan c).cur with
    | none => rfl
    | some r =>
      by_cases hc : r.waiting ∧ ¬ r.latched ∧ r.opcode = op
      · exact absurd ⟨by simpa using hp, hr, hc.1, by simpa using hc.2.1, hc.2.2⟩ (hn r)
      · simp only [hc, if_false]

/-- A command that answers makes its response. -/
theorem answer_asks {h h' : Hw} {c op st d : Nat} {r : Request} {out : List Word} {f : List Word → Hw × Nat × Nat × List Word}
    (ha : h.Asks c op r) (hf : f r.payload = (h', st, d, out)) (hc : (h'.chan c).cur = some r) :
    h.answer c op f = h'.answered c r st d out := by
  unfold Hw.answer
  rw [withRequest_asks ha, hf]
  exact reply_eq hc st d out

end Sys2Proof.Machine
end

