-- ==== Sys2Proof/Laws/Exec.lean ====
section
/-!
SUPPORT. Which meaning runs a command: one equation for each constructor, so that no proof unfolds the dispatch.
-/

namespace Sys2Proof.Machine
open Sys2Proof

@[simp] theorem exec_doorbellRing (ch : Nat) (v : Word) (s : State) : exec (.doorbellRing ch v) s = execDoorbellRing ch v s := rfl
@[simp] theorem exec_requestBufferWrite (ch off : Nat) (v : Word) (s : State) : exec (.requestBufferWrite ch off v) s = execRequestBufferWrite ch off v s := rfl
@[simp] theorem exec_registerWrite (off size : Nat) (v : Word) (s : State) : exec (.registerWrite off size v) s = execRegisterWrite off size v s := rfl
@[simp] theorem exec_tickCountRead (s : State) : exec .tickCountRead s = execTickCountRead s := rfl
@[simp] theorem exec_eventRingArm (v : Word) (s : State) : exec (.eventRingArm v) s = execEventRingArm v s := rfl
@[simp] theorem exec_eventRingDisarm (v : Word) (s : State) : exec (.eventRingDisarm v) s = execEventRingDisarm v s := rfl
@[simp] theorem exec_eventRingConsumerWrite (v : Word) (s : State) : exec (.eventRingConsumerWrite v) s = execEventRingConsumerWrite v s := rfl
@[simp] theorem exec_eventEntryWrite (s : State) : exec .eventEntryWrite s = execEventEntryWrite s := rfl
@[simp] theorem exec_resetArmWarm (s : State) : exec .resetArmWarm s = execResetArmWarm s := rfl
@[simp] theorem exec_resetArmMpSwitch (s : State) : exec .resetArmMpSwitch s = execResetArmMpSwitch s := rfl
@[simp] theorem exec_bulkWindowWrite (off : Nat) (data : List Byte) (s : State) : exec (.bulkWindowWrite off data) s = execBulkWindowWrite off data s := rfl
@[simp] theorem exec_perstNAssert (s : State) : exec .perstNAssert s = execPerstNAssert s := rfl
@[simp] theorem exec_perstNRelease (s : State) : exec .perstNRelease s = execPerstNRelease s := rfl
@[simp] theorem exec_mctpMessageReceive (binding eid : Nat) (body : List Byte) (s : State) : exec (.mctpMessageReceive binding eid body) s = execMctpMessageReceive binding eid body s := rfl
@[simp] theorem exec_setEndpointId (binding eid operation newEid : Nat) (s : State) : exec (.setEndpointId binding eid operation newEid) s = execSetEndpointId binding eid operation newEid s := rfl
@[simp] theorem exec_getEndpointId (binding eid : Nat) (s : State) : exec (.getEndpointId binding eid) s = execGetEndpointId binding eid s := rfl
@[simp] theorem exec_getMctpVersionSupport (binding eid messageType : Nat) (s : State) : exec (.getMctpVersionSupport binding eid messageType) s = execGetMctpVersionSupport binding eid messageType s := rfl
@[simp] theorem exec_getMessageTypeSupport (binding eid : Nat) (s : State) : exec (.getMessageTypeSupport binding eid) s = execGetMessageTypeSupport binding eid s := rfl
@[simp] theorem exec_getVendorDefinedMessageSupport (binding eid selector : Nat) (s : State) : exec (.getVendorDefinedMessageSupport binding eid selector) s = execGetVendorDefinedMessageSupport binding eid selector s := rfl
@[simp] theorem exec_i3cEntdaa (addr : Nat) (s : State) : exec (.i3cEntdaa addr) s = execI3cEntdaa addr s := rfl
@[simp] theorem exec_getVersion (ch : Nat) (s : State) : exec (.getVersion ch) s = execGetVersion ch s := rfl
@[simp] theorem exec_commit (ch : Nat) (s : State) : exec (.commit ch) s = execCommit ch s := rfl
@[simp] theorem exec_discardStaged (ch : Nat) (s : State) : exec (.discardStaged ch) s = execDiscardStaged ch s := rfl
@[simp] theorem exec_eventSubscribe (ch : Nat) (s : State) : exec (.eventSubscribe ch) s = execEventSubscribe ch s := rfl
@[simp] theorem exec_fwFlashWrite (ch : Nat) (s : State) : exec (.fwFlashWrite ch) s = execFwFlashWrite ch s := rfl
@[simp] theorem exec_fwBootSlotSet (ch : Nat) (s : State) : exec (.fwBootSlotSet ch) s = execFwBootSlotSet ch s := rfl
@[simp] theorem exec_fwHitlessActivate (ch : Nat) (s : State) : exec (.fwHitlessActivate ch) s = execFwHitlessActivate ch s := rfl
@[simp] theorem exec_fwStatusGet (ch : Nat) (s : State) : exec (.fwStatusGet ch) s = execFwStatusGet ch s := rfl
@[simp] theorem exec_lcNonceGet (ch : Nat) (s : State) : exec (.lcNonceGet ch) s = execLcNonceGet ch s := rfl
@[simp] theorem exec_lcTransition (ch : Nat) (s : State) : exec (.lcTransition ch) s = execLcTransition ch s := rfl
@[simp] theorem exec_antiRollbackAdvance (ch : Nat) (s : State) : exec (.antiRollbackAdvance ch) s = execAntiRollbackAdvance ch s := rfl
@[simp] theorem exec_tickConfigSet (ch : Nat) (s : State) : exec (.tickConfigSet ch) s = execTickConfigSet ch s := rfl
@[simp] theorem exec_tickStatusGet (ch : Nat) (s : State) : exec (.tickStatusGet ch) s = execTickStatusGet ch s := rfl
@[simp] theorem exec_tickSourceSelect (ch : Nat) (s : State) : exec (.tickSourceSelect ch) s = execTickSourceSelect ch s := rfl
@[simp] theorem exec_ledgerRead (ch : Nat) (s : State) : exec (.ledgerRead ch) s = execLedgerRead ch s := rfl
@[simp] theorem exec_portConfigSet (ch : Nat) (s : State) : exec (.portConfigSet ch) s = execPortConfigSet ch s := rfl
@[simp] theorem exec_fwdTableLoad (ch : Nat) (s : State) : exec (.fwdTableLoad ch) s = execFwdTableLoad ch s := rfl
@[simp] theorem exec_nexthopSetLoad (ch : Nat) (s : State) : exec (.nexthopSetLoad ch) s = execNexthopSetLoad ch s := rfl
@[simp] theorem exec_queueConfigSet (ch : Nat) (s : State) : exec (.queueConfigSet ch) s = execQueueConfigSet ch s := rfl
@[simp] theorem exec_bufferLimitsSet (ch : Nat) (s : State) : exec (.bufferLimitsSet ch) s = execBufferLimitsSet ch s := rfl
@[simp] theorem exec_slicePartitionSet (ch : Nat) (s : State) : exec (.slicePartitionSet ch) s = execSlicePartitionSet ch s := rfl
@[simp] theorem exec_sheafLoad (ch : Nat) (s : State) : exec (.sheafLoad ch) s = execSheafLoad ch s := rfl
@[simp] theorem exec_portCountersRead (ch : Nat) (s : State) : exec (.portCountersRead ch) s = execPortCountersRead ch s := rfl
@[simp] theorem exec_culletListRead (ch : Nat) (s : State) : exec (.culletListRead ch) s = execCulletListRead ch s := rfl
@[simp] theorem exec_meshRouteLoad (ch : Nat) (s : State) : exec (.meshRouteLoad ch) s = execMeshRouteLoad ch s := rfl
@[simp] theorem exec_epochFlip (ch : Nat) (s : State) : exec (.epochFlip ch) s = execEpochFlip ch s := rfl
@[simp] theorem exec_epochStatusGet (ch : Nat) (s : State) : exec (.epochStatusGet ch) s = execEpochStatusGet ch s := rfl
@[simp] theorem exec_routerFence (ch : Nat) (s : State) : exec (.routerFence ch) s = execRouterFence ch s := rfl
@[simp] theorem exec_meshCountersRead (ch : Nat) (s : State) : exec (.meshCountersRead ch) s = execMeshCountersRead ch s := rfl
@[simp] theorem exec_schedulerSet (ch : Nat) (s : State) : exec (.schedulerSet ch) s = execSchedulerSet ch s := rfl
@[simp] theorem exec_shaperSet (ch : Nat) (s : State) : exec (.shaperSet ch) s = execShaperSet ch s := rfl
@[simp] theorem exec_meterSet (ch : Nat) (s : State) : exec (.meterSet ch) s = execMeterSet ch s := rfl
@[simp] theorem exec_jobShareSet (ch : Nat) (s : State) : exec (.jobShareSet ch) s = execJobShareSet ch s := rfl
@[simp] theorem exec_shapingCountersRead (ch : Nat) (s : State) : exec (.shapingCountersRead ch) s = execShapingCountersRead ch s := rfl
@[simp] theorem exec_groupCreate (ch : Nat) (s : State) : exec (.groupCreate ch) s = execGroupCreate ch s := rfl
@[simp] theorem exec_groupMembershipSet (ch : Nat) (s : State) : exec (.groupMembershipSet ch) s = execGroupMembershipSet ch s := rfl
@[simp] theorem exec_groupArm (ch : Nat) (s : State) : exec (.groupArm ch) s = execGroupArm ch s := rfl
@[simp] theorem exec_groupSuspend (ch : Nat) (s : State) : exec (.groupSuspend ch) s = execGroupSuspend ch s := rfl
@[simp] theorem exec_groupResume (ch : Nat) (s : State) : exec (.groupResume ch) s = execGroupResume ch s := rfl
@[simp] theorem exec_groupTeardown (ch : Nat) (s : State) : exec (.groupTeardown ch) s = execGroupTeardown ch s := rfl
@[simp] theorem exec_groupStatusGet (ch : Nat) (s : State) : exec (.groupStatusGet ch) s = execGroupStatusGet ch s := rfl
@[simp] theorem exec_generationRecordRead (ch : Nat) (s : State) : exec (.generationRecordRead ch) s = execGenerationRecordRead ch s := rfl
@[simp] theorem exec_ringPlanSet (ch : Nat) (s : State) : exec (.ringPlanSet ch) s = execRingPlanSet ch s := rfl
@[simp] theorem exec_ringStatusGet (ch : Nat) (s : State) : exec (.ringStatusGet ch) s = execRingStatusGet ch s := rfl
@[simp] theorem exec_programLoad (ch : Nat) (s : State) : exec (.programLoad ch) s = execProgramLoad ch s := rfl
@[simp] theorem exec_programAttach (ch : Nat) (s : State) : exec (.programAttach ch) s = execProgramAttach ch s := rfl
@[simp] theorem exec_programDetach (ch : Nat) (s : State) : exec (.programDetach ch) s = execProgramDetach ch s := rfl
@[simp] theorem exec_programUnload (ch : Nat) (s : State) : exec (.programUnload ch) s = execProgramUnload ch s := rfl
@[simp] theorem exec_threadTrapRead (ch : Nat) (s : State) : exec (.threadTrapRead ch) s = execThreadTrapRead ch s := rfl
@[simp] theorem exec_memoryPartitionSet (ch : Nat) (s : State) : exec (.memoryPartitionSet ch) s = execMemoryPartitionSet ch s := rfl
@[simp] theorem exec_echoRegionSet (ch : Nat) (s : State) : exec (.echoRegionSet ch) s = execEchoRegionSet ch s := rfl
@[simp] theorem exec_snapshotOpen (ch : Nat) (s : State) : exec (.snapshotOpen ch) s = execSnapshotOpen ch s := rfl
@[simp] theorem exec_snapshotClose (ch : Nat) (s : State) : exec (.snapshotClose ch) s = execSnapshotClose ch s := rfl
@[simp] theorem exec_snapshotRecordRead (ch : Nat) (s : State) : exec (.snapshotRecordRead ch) s = execSnapshotRecordRead ch s := rfl
@[simp] theorem exec_snapshotBuddySet (ch : Nat) (s : State) : exec (.snapshotBuddySet ch) s = execSnapshotBuddySet ch s := rfl
@[simp] theorem exec_laneConfigSet (ch : Nat) (s : State) : exec (.laneConfigSet ch) s = execLaneConfigSet ch s := rfl
@[simp] theorem exec_linkTrain (ch : Nat) (s : State) : exec (.linkTrain ch) s = execLinkTrain ch s := rfl
@[simp] theorem exec_loopbackSet (ch : Nat) (s : State) : exec (.loopbackSet ch) s = execLoopbackSet ch s := rfl
@[simp] theorem exec_laserControl (ch : Nat) (s : State) : exec (.laserControl ch) s = execLaserControl ch s := rfl
@[simp] theorem exec_laneStatusGet (ch : Nat) (s : State) : exec (.laneStatusGet ch) s = execLaneStatusGet ch s := rfl
@[simp] theorem exec_coordinatesSet (ch : Nat) (s : State) : exec (.coordinatesSet ch) s = execCoordinatesSet ch s := rfl
@[simp] theorem exec_neighbourPlanLoad (ch : Nat) (s : State) : exec (.neighbourPlanLoad ch) s = execNeighbourPlanLoad ch s := rfl
@[simp] theorem exec_gleanStatusGet (ch : Nat) (s : State) : exec (.gleanStatusGet ch) s = execGleanStatusGet ch s := rfl
@[simp] theorem exec_rankTableLoad (ch : Nat) (s : State) : exec (.rankTableLoad ch) s = execRankTableLoad ch s := rfl
@[simp] theorem exec_jobAdmit (ch : Nat) (s : State) : exec (.jobAdmit ch) s = execJobAdmit ch s := rfl
@[simp] theorem exec_faultConfigSet (ch : Nat) (s : State) : exec (.faultConfigSet ch) s = execFaultConfigSet ch s := rfl
@[simp] theorem exec_faultForce (ch : Nat) (s : State) : exec (.faultForce ch) s = execFaultForce ch s := rfl
@[simp] theorem exec_faultLogRead (ch : Nat) (s : State) : exec (.faultLogRead ch) s = execFaultLogRead ch s := rfl
@[simp] theorem exec_unitReadmit (ch : Nat) (s : State) : exec (.unitReadmit ch) s = execUnitReadmit ch s := rfl
@[simp] theorem exec_spareBudgetGet (ch : Nat) (s : State) : exec (.spareBudgetGet ch) s = execSpareBudgetGet ch s := rfl
@[simp] theorem exec_recoveryPolicySet (ch : Nat) (s : State) : exec (.recoveryPolicySet ch) s = execRecoveryPolicySet ch s := rfl
@[simp] theorem exec_rollbackStart (ch : Nat) (s : State) : exec (.rollbackStart ch) s = execRollbackStart ch s := rfl
@[simp] theorem exec_recoveryStatusGet (ch : Nat) (s : State) : exec (.recoveryStatusGet ch) s = execRecoveryStatusGet ch s := rfl
@[simp] theorem exec_lehrEnter (ch : Nat) (s : State) : exec (.lehrEnter ch) s = execLehrEnter ch s := rfl
@[simp] theorem exec_lehrExit (ch : Nat) (s : State) : exec (.lehrExit ch) s = execLehrExit ch s := rfl
@[simp] theorem exec_resetWarm (ch : Nat) (s : State) : exec (.resetWarm ch) s = execResetWarm ch s := rfl
@[simp] theorem exec_resetPartial (ch : Nat) (s : State) : exec (.resetPartial ch) s = execResetPartial ch s := rfl
@[simp] theorem exec_powerLimitSet (ch : Nat) (s : State) : exec (.powerLimitSet ch) s = execPowerLimitSet ch s := rfl
@[simp] theorem exec_powerTelemetryRead (ch : Nat) (s : State) : exec (.powerTelemetryRead ch) s = execPowerTelemetryRead ch s := rfl
@[simp] theorem exec_clockLevelSet (ch : Nat) (s : State) : exec (.clockLevelSet ch) s = execClockLevelSet ch s := rfl
@[simp] theorem exec_sysRstNRelease (straps : Nat) (s : State) : exec (.sysRstNRelease straps) s = execSysRstNRelease straps s := rfl
@[simp] theorem exec_sysRstNFall (s : State) : exec .sysRstNFall s = execSysRstNFall s := rfl
@[simp] theorem exec_bootComplete (s : State) : exec .bootComplete s = execBootComplete s := rfl
@[simp] theorem exec_standbyReadySet (s : State) : exec .standbyReadySet s = execStandbyReadySet s := rfl
@[simp] theorem exec_fwHandover (s : State) : exec .fwHandover s = execFwHandover s := rfl
@[simp] theorem exec_fwActivateTimeout (s : State) : exec .fwActivateTimeout s = execFwActivateTimeout s := rfl
@[simp] theorem exec_lcTransitionDone (s : State) : exec .lcTransitionDone s = execLcTransitionDone s := rfl
@[simp] theorem exec_supplyOutOfRange (rail : Nat) (s : State) : exec (.supplyOutOfRange rail) s = execSupplyOutOfRange rail s := rfl
@[simp] theorem exec_supplyOutTimeout (s : State) : exec .supplyOutTimeout s = execSupplyOutTimeout s := rfl
@[simp] theorem exec_refclkLoss (s : State) : exec .refclkLoss s = execRefclkLoss s := rfl
@[simp] theorem exec_thermalTrip (die : Nat) (s : State) : exec (.thermalTrip die) s = execThermalTrip die s := rfl
@[simp] theorem exec_thermalThrottle (die : Nat) (s : State) : exec (.thermalThrottle die) s = execThermalThrottle die s := rfl
@[simp] theorem exec_hbmThermalLimit (stack : Nat) (s : State) : exec (.hbmThermalLimit stack) s = execHbmThermalLimit stack s := rfl
@[simp] theorem exec_tickEdge (m : SlotMeas) (s : State) : exec (.tickEdge m) s = execTickEdge m s := rfl
@[simp] theorem exec_slotStart (m : SlotMeas) (s : State) : exec (.slotStart m) s = execSlotStart m s := rfl
@[simp] theorem exec_tickInEdge (phase : Int) (s : State) : exec (.tickInEdge phase) s = execTickInEdge phase s := rfl
@[simp] theorem exec_tickMarkerReceive (port : Nat) (unit : List Word) (rxCycles : Nat) (s : State) : exec (.tickMarkerReceive port unit rxCycles) s = execTickMarkerReceive port unit rxCycles s := rfl
@[simp] theorem exec_tickSourceLost (s : State) : exec .tickSourceLost s = execTickSourceLost s := rfl
@[simp] theorem exec_tickAlignLost (s : State) : exec .tickAlignLost s = execTickAlignLost s := rfl
@[simp] theorem exec_markerTimeout (port : Nat) (s : State) : exec (.markerTimeout port) s = execMarkerTimeout port s := rfl
@[simp] theorem exec_frameOverrunPersistent (cx : Nat) (s : State) : exec (.frameOverrunPersistent cx) s = execFrameOverrunPersistent cx s := rfl
@[simp] theorem exec_linkBlockReceive (port : Nat) (blk : LinkBlock) (s : State) : exec (.linkBlockReceive port blk) s = execLinkBlockReceive port blk s := rfl
@[simp] theorem exec_linkBlockTransmit (port : Nat) (s : State) : exec (.linkBlockTransmit port) s = execLinkBlockTransmit port s := rfl
@[simp] theorem exec_linkReplay (port : Nat) (s : State) : exec (.linkReplay port) s = execLinkReplay port s := rfl
@[simp] theorem exec_replayTimeout (port : Nat) (s : State) : exec (.replayTimeout port) s = execReplayTimeout port s := rfl
@[simp] theorem exec_linkParamsReceive (port : Nat) (pkt : Pkt) (s : State) : exec (.linkParamsReceive port pkt) s = execLinkParamsReceive port pkt s := rfl
@[simp] theorem exec_linkNoticeReceive (port : Nat) (unit : List Word) (s : State) : exec (.linkNoticeReceive port unit) s = execLinkNoticeReceive port unit s := rfl
@[simp] theorem exec_packetReceive (port : Nat) (pkt : Pkt) (s : State) : exec (.packetReceive port pkt) s = execPacketReceive port pkt s := rfl
@[simp] theorem exec_meshInject (cx : Nat) (s : State) : exec (.meshInject cx) s = execMeshInject cx s := rfl
@[simp] theorem exec_meshFlitReceive (router dir : Nat) (parityOk : Bool) (s : State) : exec (.meshFlitReceive router dir parityOk) s = execMeshFlitReceive router dir parityOk s := rfl
@[simp] theorem exec_meshPacketRoute (router input vc : Nat) (s : State) : exec (.meshPacketRoute router input vc) s = execMeshPacketRoute router input vc s := rfl
@[simp] theorem exec_relaySweep (cx : Nat) (s : State) : exec (.relaySweep cx) s = execRelaySweep cx s := rfl
@[simp] theorem exec_relayCreditReceive (cx : Nat) (s : State) : exec (.relayCreditReceive cx) s = execRelayCreditReceive cx s := rfl
@[simp] theorem exec_localHandoff (cx : Nat) (s : State) : exec (.localHandoff cx) s = execLocalHandoff cx s := rfl
@[simp] theorem exec_egressStore (cx : Nat) (s : State) : exec (.egressStore cx) s = execEgressStore cx s := rfl
@[simp] theorem exec_reseqGapRelease (port : Nat) (s : State) : exec (.reseqGapRelease port) s = execReseqGapRelease port s := rfl
@[simp] theorem exec_reseqEntryExpire (port : Nat) (s : State) : exec (.reseqEntryExpire port) s = execReseqEntryExpire port s := rfl
@[simp] theorem exec_packetSelect (port : Nat) (s : State) : exec (.packetSelect port) s = execPacketSelect port s := rfl
@[simp] theorem exec_portMoveHandover (port : Nat) (s : State) : exec (.portMoveHandover port) s = execPortMoveHandover port s := rfl
@[simp] theorem exec_tillerSubstitute (cx : Nat) (s : State) : exec (.tillerSubstitute cx) s = execTillerSubstitute cx s := rfl
@[simp] theorem exec_slotMoveDone (cx : Nat) (s : State) : exec (.slotMoveDone cx) s = execSlotMoveDone cx s := rfl
@[simp] theorem exec_epochDrained (s : State) : exec .epochDrained s = execEpochDrained s := rfl
@[simp] theorem exec_epochDrainSlow (s : State) : exec .epochDrainSlow s = execEpochDrainSlow s := rfl
@[simp] theorem exec_contribAtHome (cx : Nat) (s : State) : exec (.contribAtHome cx) s = execContribAtHome cx s := rfl
@[simp] theorem exec_patienceExpiry (grp gen chunk : Nat) (s : State) : exec (.patienceExpiry grp gen chunk) s = execPatienceExpiry grp gen chunk s := rfl
@[simp] theorem exec_idleGenerationOpen (grp : Nat) (s : State) : exec (.idleGenerationOpen grp) s = execIdleGenerationOpen grp s := rfl
@[simp] theorem exec_admissionWaiting (grp : Nat) (s : State) : exec (.admissionWaiting grp) s = execAdmissionWaiting grp s := rfl
@[simp] theorem exec_groupClose (grp : Nat) (s : State) : exec (.groupClose grp) s = execGroupClose grp s := rfl
@[simp] theorem exec_storageWipeDone (grp : Nat) (s : State) : exec (.storageWipeDone grp) s = execStorageWipeDone grp s := rfl
@[simp] theorem exec_ringPartialLost (grp axis : Nat) (s : State) : exec (.ringPartialLost grp axis) s = execRingPartialLost grp axis s := rfl
@[simp] theorem exec_invocationStart (cx : Nat) (s : State) : exec (.invocationStart cx) s = execInvocationStart cx s := rfl
@[simp] theorem exec_threadWake (t : Nat) (s : State) : exec (.threadWake t) s = execThreadWake t s := rfl
@[simp] theorem exec_programMessageReceive (cx : Nat) (s : State) : exec (.programMessageReceive cx) s = execProgramMessageReceive cx s := rfl
@[simp] theorem exec_stalledTrap (cx : Nat) (s : State) : exec (.stalledTrap cx) s = execStalledTrap cx s := rfl
@[simp] theorem exec_programGroupStop (grp : Nat) (s : State) : exec (.programGroupStop grp) s = execProgramGroupStop grp s := rfl
@[simp] theorem exec_add (t : Nat) (s : State) : exec (.add t) s = execAdd t s := rfl
@[simp] theorem exec_sub (t : Nat) (s : State) : exec (.sub t) s = execSub t s := rfl
@[simp] theorem exec_and (t : Nat) (s : State) : exec (.and t) s = execAnd t s := rfl
@[simp] theorem exec_or (t : Nat) (s : State) : exec (.or t) s = execOr t s := rfl
@[simp] theorem exec_xor (t : Nat) (s : State) : exec (.xor t) s = execXor t s := rfl
@[simp] theorem exec_sll (t : Nat) (s : State) : exec (.sll t) s = execSll t s := rfl
@[simp] theorem exec_srl (t : Nat) (s : State) : exec (.srl t) s = execSrl t s := rfl
@[simp] theorem exec_sra (t : Nat) (s : State) : exec (.sra t) s = execSra t s := rfl
@[simp] theorem exec_slt (t : Nat) (s : State) : exec (.slt t) s = execSlt t s := rfl
@[simp] theorem exec_sltu (t : Nat) (s : State) : exec (.sltu t) s = execSltu t s := rfl
@[simp] theorem exec_min (t : Nat) (s : State) : exec (.min t) s = execMin t s := rfl
@[simp] theorem exec_max (t : Nat) (s : State) : exec (.max t) s = execMax t s := rfl
@[simp] theorem exec_minu (t : Nat) (s : State) : exec (.minu t) s = execMinu t s := rfl
@[simp] theorem exec_maxu (t : Nat) (s : State) : exec (.maxu t) s = execMaxu t s := rfl
@[simp] theorem exec_mul (t : Nat) (s : State) : exec (.mul t) s = execMul t s := rfl
@[simp] theorem exec_mulhu (t : Nat) (s : State) : exec (.mulhu t) s = execMulhu t s := rfl
@[simp] theorem exec_mulh (t : Nat) (s : State) : exec (.mulh t) s = execMulh t s := rfl
@[simp] theorem exec_div (t : Nat) (s : State) : exec (.div t) s = execDiv t s := rfl
@[simp] theorem exec_divu (t : Nat) (s : State) : exec (.divu t) s = execDivu t s := rfl
@[simp] theorem exec_rem (t : Nat) (s : State) : exec (.rem t) s = execRem t s := rfl
@[simp] theorem exec_remu (t : Nat) (s : State) : exec (.remu t) s = execRemu t s := rfl
@[simp] theorem exec_clz (t : Nat) (s : State) : exec (.clz t) s = execClz t s := rfl
@[simp] theorem exec_popc (t : Nat) (s : State) : exec (.popc t) s = execPopc t s := rfl
@[simp] theorem exec_addi (t : Nat) (s : State) : exec (.addi t) s = execAddi t s := rfl
@[simp] theorem exec_andi (t : Nat) (s : State) : exec (.andi t) s = execAndi t s := rfl
@[simp] theorem exec_ori (t : Nat) (s : State) : exec (.ori t) s = execOri t s := rfl
@[simp] theorem exec_xori (t : Nat) (s : State) : exec (.xori t) s = execXori t s := rfl
@[simp] theorem exec_slti (t : Nat) (s : State) : exec (.slti t) s = execSlti t s := rfl
@[simp] theorem exec_sltiu (t : Nat) (s : State) : exec (.sltiu t) s = execSltiu t s := rfl
@[simp] theorem exec_shifti (t : Nat) (s : State) : exec (.shifti t) s = execShifti t s := rfl
@[simp] theorem exec_lui (t : Nat) (s : State) : exec (.lui t) s = execLui t s := rfl
@[simp] theorem exec_fadd (t : Nat) (s : State) : exec (.fadd t) s = execFadd t s := rfl
@[simp] theorem exec_fsub (t : Nat) (s : State) : exec (.fsub t) s = execFsub t s := rfl
@[simp] theorem exec_fmul (t : Nat) (s : State) : exec (.fmul t) s = execFmul t s := rfl
@[simp] theorem exec_fdiv (t : Nat) (s : State) : exec (.fdiv t) s = execFdiv t s := rfl
@[simp] theorem exec_fsqrt (t : Nat) (s : State) : exec (.fsqrt t) s = execFsqrt t s := rfl
@[simp] theorem exec_fmin (t : Nat) (s : State) : exec (.fmin t) s = execFmin t s := rfl
@[simp] theorem exec_fmax (t : Nat) (s : State) : exec (.fmax t) s = execFmax t s := rfl
@[simp] theorem exec_feq (t : Nat) (s : State) : exec (.feq t) s = execFeq t s := rfl
@[simp] theorem exec_flt (t : Nat) (s : State) : exec (.flt t) s = execFlt t s := rfl
@[simp] theorem exec_fle (t : Nat) (s : State) : exec (.fle t) s = execFle t s := rfl
@[simp] theorem exec_fcvtSL (t : Nat) (s : State) : exec (.fcvtSL t) s = execFcvtSL t s := rfl
@[simp] theorem exec_fcvtLS (t : Nat) (s : State) : exec (.fcvtLS t) s = execFcvtLS t s := rfl
@[simp] theorem exec_ld (t : Nat) (s : State) : exec (.ld t) s = execLd t s := rfl
@[simp] theorem exec_st (t : Nat) (s : State) : exec (.st t) s = execSt t s := rfl
@[simp] theorem exec_vld (t : Nat) (s : State) : exec (.vld t) s = execVld t s := rfl
@[simp] theorem exec_vst (t : Nat) (s : State) : exec (.vst t) s = execVst t s := rfl
@[simp] theorem exec_atom (t : Nat) (s : State) : exec (.atom t) s = execAtom t s := rfl
@[simp] theorem exec_wnarrow (t : Nat) (s : State) : exec (.wnarrow t) s = execWnarrow t s := rfl
@[simp] theorem exec_winfo (t : Nat) (s : State) : exec (.winfo t) s = execWinfo t s := rfl
@[simp] theorem exec_vadd (t : Nat) (s : State) : exec (.vadd t) s = execVadd t s := rfl
@[simp] theorem exec_vsub (t : Nat) (s : State) : exec (.vsub t) s = execVsub t s := rfl
@[simp] theorem exec_vmul (t : Nat) (s : State) : exec (.vmul t) s = execVmul t s := rfl
@[simp] theorem exec_vfma (t : Nat) (s : State) : exec (.vfma t) s = execVfma t s := rfl
@[simp] theorem exec_vdiv (t : Nat) (s : State) : exec (.vdiv t) s = execVdiv t s := rfl
@[simp] theorem exec_vsqrt (t : Nat) (s : State) : exec (.vsqrt t) s = execVsqrt t s := rfl
@[simp] theorem exec_vmax (t : Nat) (s : State) : exec (.vmax t) s = execVmax t s := rfl
@[simp] theorem exec_vmin (t : Nat) (s : State) : exec (.vmin t) s = execVmin t s := rfl
@[simp] theorem exec_vabs (t : Nat) (s : State) : exec (.vabs t) s = execVabs t s := rfl
@[simp] theorem exec_vneg (t : Nat) (s : State) : exec (.vneg t) s = execVneg t s := rfl
@[simp] theorem exec_vand (t : Nat) (s : State) : exec (.vand t) s = execVand t s := rfl
@[simp] theorem exec_vor (t : Nat) (s : State) : exec (.vor t) s = execVor t s := rfl
@[simp] theorem exec_vxor (t : Nat) (s : State) : exec (.vxor t) s = execVxor t s := rfl
@[simp] theorem exec_vshl (t : Nat) (s : State) : exec (.vshl t) s = execVshl t s := rfl
@[simp] theorem exec_vshr (t : Nat) (s : State) : exec (.vshr t) s = execVshr t s := rfl
@[simp] theorem exec_vsra (t : Nat) (s : State) : exec (.vsra t) s = execVsra t s := rfl
@[simp] theorem exec_vadds (t : Nat) (s : State) : exec (.vadds t) s = execVadds t s := rfl
@[simp] theorem exec_vsubs (t : Nat) (s : State) : exec (.vsubs t) s = execVsubs t s := rfl
@[simp] theorem exec_vmov (t : Nat) (s : State) : exec (.vmov t) s = execVmov t s := rfl
@[simp] theorem exec_vsel (t : Nat) (s : State) : exec (.vsel t) s = execVsel t s := rfl
@[simp] theorem exec_vcmp (t : Nat) (s : State) : exec (.vcmp t) s = execVcmp t s := rfl
@[simp] theorem exec_vsplat (t : Nat) (s : State) : exec (.vsplat t) s = execVsplat t s := rfl
@[simp] theorem exec_vext (t : Nat) (s : State) : exec (.vext t) s = execVext t s := rfl
@[simp] theorem exec_vins (t : Nat) (s : State) : exec (.vins t) s = execVins t s := rfl
@[simp] theorem exec_vredsum (t : Nat) (s : State) : exec (.vredsum t) s = execVredsum t s := rfl
@[simp] theorem exec_vredmax (t : Nat) (s : State) : exec (.vredmax t) s = execVredmax t s := rfl
@[simp] theorem exec_vredmin (t : Nat) (s : State) : exec (.vredmin t) s = execVredmin t s := rfl
@[simp] theorem exec_pand (t : Nat) (s : State) : exec (.pand t) s = execPand t s := rfl
@[simp] theorem exec_por (t : Nat) (s : State) : exec (.por t) s = execPor t s := rfl
@[simp] theorem exec_pxor (t : Nat) (s : State) : exec (.pxor t) s = execPxor t s := rfl
@[simp] theorem exec_pandn (t : Nat) (s : State) : exec (.pandn t) s = execPandn t s := rfl
@[simp] theorem exec_pnot (t : Nat) (s : State) : exec (.pnot t) s = execPnot t s := rfl
@[simp] theorem exec_pset (t : Nat) (s : State) : exec (.pset t) s = execPset t s := rfl
@[simp] theorem exec_pget (t : Nat) (s : State) : exec (.pget t) s = execPget t s := rfl
@[simp] theorem exec_planes (t : Nat) (s : State) : exec (.planes t) s = execPlanes t s := rfl
@[simp] theorem exec_vcvt (t : Nat) (s : State) : exec (.vcvt t) s = execVcvt t s := rfl
@[simp] theorem exec_mxq (t : Nat) (s : State) : exec (.mxq t) s = execMxq t s := rfl
@[simp] theorem exec_mxd (t : Nat) (s : State) : exec (.mxd t) s = execMxd t s := rfl
@[simp] theorem exec_accL320 (t : Nat) (s : State) : exec (.accL320 t) s = execAccL320 t s := rfl
@[simp] theorem exec_accL96 (t : Nat) (s : State) : exec (.accL96 t) s = execAccL96 t s := rfl
@[simp] theorem exec_accF32 (t : Nat) (s : State) : exec (.accF32 t) s = execAccF32 t s := rfl
@[simp] theorem exec_accI32 (t : Nat) (s : State) : exec (.accI32 t) s = execAccI32 t s := rfl
@[simp] theorem exec_lfinL320 (t : Nat) (s : State) : exec (.lfinL320 t) s = execLfinL320 t s := rfl
@[simp] theorem exec_lfinL96 (t : Nat) (s : State) : exec (.lfinL96 t) s = execLfinL96 t s := rfl
@[simp] theorem exec_scopy (t : Nat) (s : State) : exec (.scopy t) s = execScopy t s := rfl
@[simp] theorem exec_msend (t : Nat) (s : State) : exec (.msend t) s = execMsend t s := rfl
@[simp] theorem exec_mrecv (t : Nat) (s : State) : exec (.mrecv t) s = execMrecv t s := rfl
@[simp] theorem exec_psend (t : Nat) (s : State) : exec (.psend t) s = execPsend t s := rfl
@[simp] theorem exec_waitMsg (t : Nat) (s : State) : exec (.waitMsg t) s = execWaitMsg t s := rfl
@[simp] theorem exec_waitTick (t : Nat) (s : State) : exec (.waitTick t) s = execWaitTick t s := rfl
@[simp] theorem exec_nop (t : Nat) (s : State) : exec (.nop t) s = execNop t s := rfl
@[simp] theorem exec_exit (t : Nat) (s : State) : exec (.exit t) s = execExit t s := rfl
@[simp] theorem exec_fence (t : Nat) (s : State) : exec (.fence t) s = execFence t s := rfl
@[simp] theorem exec_setidx (t : Nat) (s : State) : exec (.setidx t) s = execSetidx t s := rfl
@[simp] theorem exec_rdsys (t : Nat) (s : State) : exec (.rdsys t) s = execRdsys t s := rfl
@[simp] theorem exec_beq (t : Nat) (s : State) : exec (.beq t) s = execBeq t s := rfl
@[simp] theorem exec_bne (t : Nat) (s : State) : exec (.bne t) s = execBne t s := rfl
@[simp] theorem exec_blt (t : Nat) (s : State) : exec (.blt t) s = execBlt t s := rfl
@[simp] theorem exec_bge (t : Nat) (s : State) : exec (.bge t) s = execBge t s := rfl
@[simp] theorem exec_bltu (t : Nat) (s : State) : exec (.bltu t) s = execBltu t s := rfl
@[simp] theorem exec_bgeu (t : Nat) (s : State) : exec (.bgeu t) s = execBgeu t s := rfl
@[simp] theorem exec_jal (t : Nat) (s : State) : exec (.jal t) s = execJal t s := rfl
@[simp] theorem exec_jr (t : Nat) (s : State) : exec (.jr t) s = execJr t s := rfl
@[simp] theorem exec_echoReqServe (node : Nat) (s : State) : exec (.echoReqServe node) s = execEchoReqServe node s := rfl
@[simp] theorem exec_snapWriteReceive (node : Nat) (s : State) : exec (.snapWriteReceive node) s = execSnapWriteReceive node s := rfl
@[simp] theorem exec_snapReadReceive (node : Nat) (s : State) : exec (.snapReadReceive node) s = execSnapReadReceive node s := rfl
@[simp] theorem exec_snapshotSealDone (handle : Nat) (s : State) : exec (.snapshotSealDone handle) s = execSnapshotSealDone handle s := rfl
@[simp] theorem exec_snapshotBuddyDeadline (handle : Nat) (s : State) : exec (.snapshotBuddyDeadline handle) s = execSnapshotBuddyDeadline handle s := rfl
@[simp] theorem exec_snapshotVerifyDone (handle : Nat) (s : State) : exec (.snapshotVerifyDone handle) s = execSnapshotVerifyDone handle s := rfl
@[simp] theorem exec_hbmWipeDone (stack : Nat) (s : State) : exec (.hbmWipeDone stack) s = execHbmWipeDone stack s := rfl
@[simp] theorem exec_hbmSpareCopyDone (stack : Nat) (s : State) : exec (.hbmSpareCopyDone stack) s = execHbmSpareCopyDone stack s := rfl
@[simp] theorem exec_trainingFrameReceive (port ch : Nat) (frame : List Word) (s : State) : exec (.trainingFrameReceive port ch frame) s = execTrainingFrameReceive port ch frame s := rfl
@[simp] theorem exec_adaptStep (port ch fom : Nat) (s : State) : exec (.adaptStep port ch fom) s = execAdaptStep port ch fom s := rfl
@[simp] theorem exec_readyCountdownEnd (port : Nat) (s : State) : exec (.readyCountdownEnd port) s = execReadyCountdownEnd port s := rfl
@[simp] theorem exec_trainTimeout (port : Nat) (s : State) : exec (.trainTimeout port) s = execTrainTimeout port s := rfl
@[simp] theorem exec_retryExpiry (port : Nat) (s : State) : exec (.retryExpiry port) s = execRetryExpiry port s := rfl
@[simp] theorem exec_lossOfSignal (port ch : Nat) (s : State) : exec (.lossOfSignal port ch) s = execLossOfSignal port ch s := rfl
@[simp] theorem exec_allChannelsLost (port : Nat) (s : State) : exec (.allChannelsLost port) s = execAllChannelsLost port s := rfl
@[simp] theorem exec_retrainLimitExpiry (port : Nat) (s : State) : exec (.retrainLimitExpiry port) s = execRetrainLimitExpiry port s := rfl
@[simp] theorem exec_laneFomLow (port ch : Nat) (s : State) : exec (.laneFomLow port ch) s = execLaneFomLow port ch s := rfl
@[simp] theorem exec_txSleep (port : Nat) (s : State) : exec (.txSleep port) s = execTxSleep port s := rfl
@[simp] theorem exec_txWake (port : Nat) (s : State) : exec (.txWake port) s = execTxWake port s := rfl
@[simp] theorem exec_rxWake (port : Nat) (s : State) : exec (.rxWake port) s = execRxWake port s := rfl
@[simp] theorem exec_laserInputLive (laser : Nat) (s : State) : exec (.laserInputLive laser) s = execLaserInputLive laser s := rfl
@[simp] theorem exec_laserNotReady (laser : Nat) (s : State) : exec (.laserNotReady laser) s = execLaserNotReady laser s := rfl
@[simp] theorem exec_laserInputLost (laser : Nat) (s : State) : exec (.laserInputLost laser) s = execLaserInputLost laser s := rfl
@[simp] theorem exec_gleanReceive (port : Nat) (pkt : Pkt) (s : State) : exec (.gleanReceive port pkt) s = execGleanReceive port pkt s := rfl
@[simp] theorem exec_gleanNoEcho (port : Nat) (s : State) : exec (.gleanNoEcho port) s = execGleanNoEcho port s := rfl
@[simp] theorem exec_neighbourMissing (port : Nat) (s : State) : exec (.neighbourMissing port) s = execNeighbourMissing port s := rfl
@[simp] theorem exec_gleanSilence (port : Nat) (s : State) : exec (.gleanSilence port) s = execGleanSilence port s := rfl
@[simp] theorem exec_rejoinHoldEnd (port : Nat) (s : State) : exec (.rejoinHoldEnd port) s = execRejoinHoldEnd port s := rfl
@[simp] theorem exec_collectorRewrite (ok : Bool) (s : State) : exec (.collectorRewrite ok) s = execCollectorRewrite ok s := rfl
@[simp] theorem exec_safeStateExit (s : State) : exec .safeStateExit s = execSafeStateExit s := rfl
@[simp] theorem exec_quietPeriodExpiry (s : State) : exec .quietPeriodExpiry s = execQuietPeriodExpiry s := rfl
@[simp] theorem exec_errNPulseEnd (s : State) : exec .errNPulseEnd s = execErrNPulseEnd s := rfl
@[simp] theorem exec_mpLost (s : State) : exec .mpLost s = execMpLost s := rfl
@[simp] theorem exec_mpTakeover (s : State) : exec .mpTakeover s = execMpTakeover s := rfl
@[simp] theorem exec_builtinTestDone (unit step : Nat) (s : State) : exec (.builtinTestDone unit step) s = execBuiltinTestDone unit step s := rfl
@[simp] theorem exec_complexResetApply (cx : Nat) (s : State) : exec (.complexResetApply cx) s = execComplexResetApply cx s := rfl
@[simp] theorem exec_rollbackEnd (job : Nat) (s : State) : exec (.rollbackEnd job) s = execRollbackEnd job s := rfl
@[simp] theorem exec_powerLimiterStep (half : Nat) (s : State) : exec (.powerLimiterStep half) s = execPowerLimiterStep half s := rfl
@[simp] theorem exec_autoClockLower (half : Nat) (s : State) : exec (.autoClockLower half) s = execAutoClockLower half s := rfl
@[simp] theorem exec_autoClockRaise (half : Nat) (s : State) : exec (.autoClockRaise half) s = execAutoClockRaise half s := rfl
@[simp] theorem exec_lehrWakeTick (s : State) : exec .lehrWakeTick s = execLehrWakeTick s := rfl
@[simp] theorem exec_lehrWakeSignal (port : Nat) (s : State) : exec (.lehrWakeSignal port) s = execLehrWakeSignal port s := rfl
@[simp] theorem exec_lehrForwardingResume (s : State) : exec .lehrForwardingResume s = execLehrForwardingResume s := rfl
@[simp] theorem exec_bypass (s : State) : exec .bypass s = execBypass s := rfl
@[simp] theorem exec_idcode (s : State) : exec .idcode s = execIdcode s := rfl
@[simp] theorem exec_samplePreload (pins : List Bool) (s : State) : exec (.samplePreload pins) s = execSamplePreload pins s := rfl
@[simp] theorem exec_extest (pins : List Bool) (s : State) : exec (.extest pins) s = execExtest pins s := rfl
@[simp] theorem exec_clamp (s : State) : exec .clamp s = execClamp s := rfl
@[simp] theorem exec_highz (s : State) : exec .highz s = execHighz s := rfl
@[simp] theorem exec_commandComplete (ch : Nat) (s : State) : exec (.commandComplete ch) s = execCommandComplete ch s := rfl
@[simp] theorem exec_configSpaceWrite (off : Nat) (v : Word) (s : State) : exec (.configSpaceWrite off v) s = execConfigSpaceWrite off v s := rfl
@[simp] theorem exec_strikeCountReset (unit : Nat) (s : State) : exec (.strikeCountReset unit) s = execStrikeCountReset unit s := rfl
@[simp] theorem exec_supplyInRange (rail : Nat) (s : State) : exec (.supplyInRange rail) s = execSupplyInRange rail s := rfl
@[simp] theorem exec_hbmThermalRelease (stack : Nat) (s : State) : exec (.hbmThermalRelease stack) s = execHbmThermalRelease stack s := rfl
@[simp] theorem exec_lehrEntered (s : State) : exec .lehrEntered s = execLehrEntered s := rfl
@[simp] theorem exec_resetPartialDone (unit : Nat) (s : State) : exec (.resetPartialDone unit) s = execResetPartialDone unit s := rfl
@[simp] theorem exec_illegalInstruction (t : Nat) (s : State) : exec (.illegalInstruction t) s = execIllegalInstruction t s := rfl
@[simp] theorem exec_codeBounds (t : Nat) (s : State) : exec (.codeBounds t) s = execCodeBounds t s := rfl

end Sys2Proof.Machine
end

