-- ==== Sys2Proof/Laws/Isa.lean ====
section
/-!
SUPPORT. What running one combine instruction can do, said once.
-/

namespace Sys2Proof.Machine
open Sys2Proof

/-- An instruction that ends, within its cycles, leaves what `retire` says. -/
theorem isa_done {h h' : Hw} {t maj func busy : Nat} {c : Ctx} {th : Thread} {ctr : Counters} {f : Hw → Ctx → IRes}
    (hr : h.Runs t maj func c) (ha : c.Affords busy) (hf : f h { c with th := c.after } = .done h' th ctr busy) :
    h.isa t (2048 * maj + func) f = h'.retire c th ctr busy := by
  obtain ⟨hc, hk⟩ := hr
  have ht : c.t = t := by
    unfold Hw.ctx at hc
    split at hc <;> try contradiction
    split at hc <;> try contradiction
    split at hc <;> try contradiction
    simp only [Option.map_eq_some_iff] at hc
    obtain ⟨x, -, hx⟩ := hc
    exact (congrArg (fun p : Ctx × Bool => p.1.t) hx).symm
  unfold Ctx.after at hf
  unfold Hw.isa
  rw [hc]
  simp only [hk, not_true_eq_false, ne_eq, or_self, ↓reduceIte, hf]
  unfold Ctx.Affords at ha
  rw [if_neg (by omega)]
  simp only [Hw.retire, ht]

/-- An instruction that traps leaves the trap alone. -/
theorem isa_trap {h : Hw} {t maj func cause win off : Nat} {c : Ctx} {f : Hw → Ctx → IRes}
    (hr : h.Runs t maj func c) (hf : f h { c with th := c.after } = .trap cause win off) :
    h.isa t (2048 * maj + func) f = h.trap t cause win off := by
  obtain ⟨hc, hk⟩ := hr
  unfold Ctx.after at hf
  unfold Hw.isa
  rw [hc]
  simp only [hk, not_true_eq_false, ne_eq, or_self, ↓reduceIte, hf]

/-- A thread whose next word is another instruction is left as it is. -/
theorem isa_other {h : Hw} {t key : Nat} {c : Ctx} {inside : Bool} {f : Hw → Ctx → IRes} (hc : h.ctx t = some (c, inside)) (hk : opKey c.w ≠ some key) :
    h.isa t key f = h := by
  unfold Hw.isa
  rw [hc]
  simp [hk]

/-- One granted access does not fail. -/
theorem access_of_grants {th : Thread} {r off len align : Nat} {rd wr : Bool} {k : IRes} (hg : th.Grants r rd wr off len align) :
    th.access [{ r := r, rd := rd, wr := wr, off := off, len := len, align := align }] k = k := by
  obtain ⟨h0, h1, h2, h3, h4⟩ := hg
  have e : decide ((th.win r).len < off + len) = false := by simpa using h3
  clear h3
  cases rd <;> cases wr <;> simp at h1 h2 <;> simp [Thread.access, Thread.accessFails, List.find?, *]

/-- Two granted accesses do not fail. -/
theorem access_of_grants₂ {th : Thread} {r off len align r' off' len' align' : Nat} {rd wr rd' wr' : Bool} {k : IRes}
    (hg : th.Grants r rd wr off len align) (hg' : th.Grants r' rd' wr' off' len' align') :
    th.access [{ r := r, rd := rd, wr := wr, off := off, len := len, align := align },
      { r := r', rd := rd', wr := wr', off := off', len := len', align := align' }] k = k := by
  obtain ⟨h0, h1, h2, h3, h4⟩ := hg
  obtain ⟨g0, g1, g2, g3, g4⟩ := hg'
  have e : decide ((th.win r).len < off + len) = false := by simpa using h3
  have e' : decide ((th.win r').len < off' + len') = false := by simpa using g3
  clear h3 g3
  cases rd <;> cases wr <;> cases rd' <;> cases wr' <;> simp at h1 h2 g1 g2 <;> simp [Thread.access, Thread.accessFails, List.find?, *]

/-- A scalar register's number is its bit vector's. -/
theorem reg_toNat (th : Thread) (r : Nat) : (th.reg r).toNat = th.sr r := by
  unfold Thread.reg Thread.sr; split <;> rfl

/-- Writing a number to a scalar register writes its low 64 bits. -/
theorem setS_write (th : Thread) (r v : Nat) : th.setS r v = th.write r (BitVec.ofNat 64 v) := rfl

end Sys2Proof.Machine
end

