-- ==== Sys2Proof/Laws/State.lean ====
section
/-!
SUPPORT. State and its named updates: each field after each update, so that no later proof unfolds one; and what the shared ends of a meaning answer.
-/

namespace Sys2Proof.Machine
open Sys2Proof

/-! ### The state -/

@[simp] theorem withHw_hw (s : State) (h : Hw) : (s.withHw h).hw = h := rfl
@[simp] theorem withHw_fuses (s : State) (h : Hw) : (s.withHw h).fuses = s.fuses := rfl
@[simp] theorem withHw_pending (s : State) (h : Hw) : (s.withHw h).pending = s.pending := rfl
@[simp] theorem withHw_withHw (s : State) (h g : Hw) : (s.withHw h).withHw g = s.withHw g := rfl
@[simp] theorem withHw_self (s : State) : s.withHw s.hw = s := rfl

/-! ### The shared ends of a meaning -/

theorem onHw_next (f : Fuses → Hw → Hw) (s : State) : onHw f s = .next (s.withHw (f s.fuses s.hw)) := rfl

/-- A meaning on the hardware alone leaves the queue and the fuses. -/
theorem onHw_frame {f : Fuses → Hw → Hw} {s t : State} (h : onHw f s = .next t) : t.pending = s.pending ∧ t.fuses = s.fuses := by
  simp only [onHw, Host.Outcome.next.injEq] at h
  subst h
  exact ⟨rfl, rfl⟩

theorem atUnit_in {n bound : Nat} (h : n < bound) (m : State → Out) (s : State) : atUnit n bound m s = m s := if_pos h

theorem atUnit_out {n bound : Nat} (h : bound ≤ n) (m : State → Out) (s : State) : atUnit n bound m s = .fault (.noSuchUnit n) :=
  if_neg (Nat.not_lt.mpr h)

/-- A command of one unit runs, or the unit is not there. -/
theorem atUnit_cases {n bound : Nat} {m : State → Out} {s : State} {o : Out} (h : atUnit n bound m s = o) :
    (n < bound ∧ m s = o) ∨ (bound ≤ n ∧ o = .fault (.noSuchUnit n)) := by
  by_cases hn : n < bound
  · exact .inl ⟨hn, (atUnit_in hn m s) ▸ h⟩
  · exact .inr ⟨Nat.not_lt.mp hn, by rw [← h]; exact atUnit_out (Nat.not_lt.mp hn) m s⟩

/-! ### Units: a read after a write -/

@[simp] theorem port_setPort (h : Hw) (p : Nat) (x : Port) : (h.setPort p x).port p = x := by simp [Hw.port, Hw.setPort]

theorem port_setPort_ne (h : Hw) {p q : Nat} (x : Port) (hq : q ≠ p) : (h.setPort p x).port q = h.port q := by
  simp [Hw.port, Hw.setPort, tget?_tput_ne _ _ hq]

@[simp] theorem port_modPort (h : Hw) (p : Nat) (f : Port → Port) : (h.modPort p f).port p = f (h.port p) := port_setPort h p _

theorem port_modPort_ne (h : Hw) {p q : Nat} (f : Port → Port) (hq : q ≠ p) : (h.modPort p f).port q = h.port q := port_setPort_ne h _ hq

@[simp] theorem cx_setCx (h : Hw) (c : Nat) (x : Complex) : (h.setCx c x).cx c = x := by simp [Hw.cx, Hw.setCx]

theorem cx_setCx_ne (h : Hw) {c d : Nat} (x : Complex) (hd : d ≠ c) : (h.setCx c x).cx d = h.cx d := by
  simp [Hw.cx, Hw.setCx, tget?_tput_ne _ _ hd]

@[simp] theorem cx_modCx (h : Hw) (c : Nat) (f : Complex → Complex) : (h.modCx c f).cx c = f (h.cx c) := cx_setCx h c _

theorem cx_modCx_ne (h : Hw) {c d : Nat} (f : Complex → Complex) (hd : d ≠ c) : (h.modCx c f).cx d = h.cx d := cx_setCx_ne h _ hd

@[simp] theorem router_modRouter (h : Hw) (r : Nat) (f : Router → Router) : (h.modRouter r f).router r = f (h.router r) := by
  simp [Hw.router, Hw.modRouter, tmod]

theorem router_modRouter_ne (h : Hw) {r q : Nat} (f : Router → Router) (hq : q ≠ r) : (h.modRouter r f).router q = h.router q := by
  simp [Hw.router, Hw.modRouter, tmod, tget_tput_ne _ _ hq]

@[simp] theorem stack_modStack (h : Hw) (k : Nat) (f : Stack → Stack) : (h.modStack k f).stack k = f (h.stack k) := by
  simp [Hw.stack, Hw.modStack, Hw.modMem, tmod]

theorem stack_modStack_ne (h : Hw) {k j : Nat} (f : Stack → Stack) (hj : j ≠ k) : (h.modStack k f).stack j = h.stack j := by
  simp [Hw.stack, Hw.modStack, Hw.modMem, tmod, tget_tput_ne _ _ hj]

@[simp] theorem job_modJob (h : Hw) (j : Nat) (f : JobSt → JobSt) : (h.modJob j f).job j = f (h.job j) := by simp [Hw.job, Hw.modJob, tmod]

theorem job_modJob_ne (h : Hw) {j k : Nat} (f : JobSt → JobSt) (hk : k ≠ j) : (h.modJob j f).job k = h.job k := by
  simp [Hw.job, Hw.modJob, tmod, tget_tput_ne _ _ hk]

/-- The context of a group after a change of it. -/
theorem grp?_modGrp (h : Hw) (g : Nat) (f : Group → Group) : (h.modGrp g f).grp? g = (h.grp? g).map f := by
  unfold Hw.grp? Hw.modGrp
  split
  · next x hx => simp [hx]
  · next hx => simp [hx]

theorem grp?_modGrp_ne (h : Hw) {g k : Nat} (f : Group → Group) (hk : k ≠ g) : (h.modGrp g f).grp? k = h.grp? k := by
  unfold Hw.grp? Hw.modGrp
  split
  · simp [tget?_tput_ne _ _ hk]
  · rfl

@[simp] theorem draw_fst (h : Hw) : h.draw.1 = { h with fresh := h.fresh + 1 } := rfl

/-! ### Each field after each update -/

@[simp] theorem modCtl_ctl (h : Hw) (f : Ctl → Ctl) : (h.modCtl f).ctl = f h.ctl := rfl
@[simp] theorem modCtl_time (h : Hw) (f : Ctl → Ctl) : (h.modCtl f).time = h.time := rfl
@[simp] theorem modCtl_ports (h : Hw) (f : Ctl → Ctl) : (h.modCtl f).ports = h.ports := rfl
@[simp] theorem modCtl_cxs (h : Hw) (f : Ctl → Ctl) : (h.modCtl f).cxs = h.cxs := rfl
@[simp] theorem modCtl_mesh (h : Hw) (f : Ctl → Ctl) : (h.modCtl f).mesh = h.mesh := rfl
@[simp] theorem modCtl_faults (h : Hw) (f : Ctl → Ctl) : (h.modCtl f).faults = h.faults := rfl
@[simp] theorem modCtl_disc (h : Hw) (f : Ctl → Ctl) : (h.modCtl f).disc = h.disc := rfl
@[simp] theorem modCtl_lasers (h : Hw) (f : Ctl → Ctl) : (h.modCtl f).lasers = h.lasers := rfl
@[simp] theorem modCtl_groups (h : Hw) (f : Ctl → Ctl) : (h.modCtl f).groups = h.groups := rfl
@[simp] theorem modCtl_progs (h : Hw) (f : Ctl → Ctl) : (h.modCtl f).progs = h.progs := rfl
@[simp] theorem modCtl_mem (h : Hw) (f : Ctl → Ctl) : (h.modCtl f).mem = h.mem := rfl
@[simp] theorem modCtl_jobs (h : Hw) (f : Ctl → Ctl) : (h.modCtl f).jobs = h.jobs := rfl
@[simp] theorem modCtl_power (h : Hw) (f : Ctl → Ctl) : (h.modCtl f).power = h.power := rfl
@[simp] theorem modCtl_pins (h : Hw) (f : Ctl → Ctl) : (h.modCtl f).pins = h.pins := rfl
@[simp] theorem modCtl_latch (h : Hw) (f : Ctl → Ctl) : (h.modCtl f).latch = h.latch := rfl
@[simp] theorem modCtl_fresh (h : Hw) (f : Ctl → Ctl) : (h.modCtl f).fresh = h.fresh := rfl

@[simp] theorem modTime_ctl (h : Hw) (f : TimeSt → TimeSt) : (h.modTime f).ctl = h.ctl := rfl
@[simp] theorem modTime_time (h : Hw) (f : TimeSt → TimeSt) : (h.modTime f).time = f h.time := rfl
@[simp] theorem modTime_ports (h : Hw) (f : TimeSt → TimeSt) : (h.modTime f).ports = h.ports := rfl
@[simp] theorem modTime_cxs (h : Hw) (f : TimeSt → TimeSt) : (h.modTime f).cxs = h.cxs := rfl
@[simp] theorem modTime_mesh (h : Hw) (f : TimeSt → TimeSt) : (h.modTime f).mesh = h.mesh := rfl
@[simp] theorem modTime_faults (h : Hw) (f : TimeSt → TimeSt) : (h.modTime f).faults = h.faults := rfl
@[simp] theorem modTime_disc (h : Hw) (f : TimeSt → TimeSt) : (h.modTime f).disc = h.disc := rfl
@[simp] theorem modTime_lasers (h : Hw) (f : TimeSt → TimeSt) : (h.modTime f).lasers = h.lasers := rfl
@[simp] theorem modTime_groups (h : Hw) (f : TimeSt → TimeSt) : (h.modTime f).groups = h.groups := rfl
@[simp] theorem modTime_progs (h : Hw) (f : TimeSt → TimeSt) : (h.modTime f).progs = h.progs := rfl
@[simp] theorem modTime_mem (h : Hw) (f : TimeSt → TimeSt) : (h.modTime f).mem = h.mem := rfl
@[simp] theorem modTime_jobs (h : Hw) (f : TimeSt → TimeSt) : (h.modTime f).jobs = h.jobs := rfl
@[simp] theorem modTime_power (h : Hw) (f : TimeSt → TimeSt) : (h.modTime f).power = h.power := rfl
@[simp] theorem modTime_pins (h : Hw) (f : TimeSt → TimeSt) : (h.modTime f).pins = h.pins := rfl
@[simp] theorem modTime_latch (h : Hw) (f : TimeSt → TimeSt) : (h.modTime f).latch = h.latch := rfl
@[simp] theorem modTime_fresh (h : Hw) (f : TimeSt → TimeSt) : (h.modTime f).fresh = h.fresh := rfl

@[simp] theorem modFaults_ctl (h : Hw) (f : Faults → Faults) : (h.modFaults f).ctl = h.ctl := rfl
@[simp] theorem modFaults_time (h : Hw) (f : Faults → Faults) : (h.modFaults f).time = h.time := rfl
@[simp] theorem modFaults_ports (h : Hw) (f : Faults → Faults) : (h.modFaults f).ports = h.ports := rfl
@[simp] theorem modFaults_cxs (h : Hw) (f : Faults → Faults) : (h.modFaults f).cxs = h.cxs := rfl
@[simp] theorem modFaults_mesh (h : Hw) (f : Faults → Faults) : (h.modFaults f).mesh = h.mesh := rfl
@[simp] theorem modFaults_faults (h : Hw) (f : Faults → Faults) : (h.modFaults f).faults = f h.faults := rfl
@[simp] theorem modFaults_disc (h : Hw) (f : Faults → Faults) : (h.modFaults f).disc = h.disc := rfl
@[simp] theorem modFaults_lasers (h : Hw) (f : Faults → Faults) : (h.modFaults f).lasers = h.lasers := rfl
@[simp] theorem modFaults_groups (h : Hw) (f : Faults → Faults) : (h.modFaults f).groups = h.groups := rfl
@[simp] theorem modFaults_progs (h : Hw) (f : Faults → Faults) : (h.modFaults f).progs = h.progs := rfl
@[simp] theorem modFaults_mem (h : Hw) (f : Faults → Faults) : (h.modFaults f).mem = h.mem := rfl
@[simp] theorem modFaults_jobs (h : Hw) (f : Faults → Faults) : (h.modFaults f).jobs = h.jobs := rfl
@[simp] theorem modFaults_power (h : Hw) (f : Faults → Faults) : (h.modFaults f).power = h.power := rfl
@[simp] theorem modFaults_pins (h : Hw) (f : Faults → Faults) : (h.modFaults f).pins = h.pins := rfl
@[simp] theorem modFaults_latch (h : Hw) (f : Faults → Faults) : (h.modFaults f).latch = h.latch := rfl
@[simp] theorem modFaults_fresh (h : Hw) (f : Faults → Faults) : (h.modFaults f).fresh = h.fresh := rfl

@[simp] theorem modMesh_ctl (h : Hw) (f : Mesh → Mesh) : (h.modMesh f).ctl = h.ctl := rfl
@[simp] theorem modMesh_time (h : Hw) (f : Mesh → Mesh) : (h.modMesh f).time = h.time := rfl
@[simp] theorem modMesh_ports (h : Hw) (f : Mesh → Mesh) : (h.modMesh f).ports = h.ports := rfl
@[simp] theorem modMesh_cxs (h : Hw) (f : Mesh → Mesh) : (h.modMesh f).cxs = h.cxs := rfl
@[simp] theorem modMesh_mesh (h : Hw) (f : Mesh → Mesh) : (h.modMesh f).mesh = f h.mesh := rfl
@[simp] theorem modMesh_faults (h : Hw) (f : Mesh → Mesh) : (h.modMesh f).faults = h.faults := rfl
@[simp] theorem modMesh_disc (h : Hw) (f : Mesh → Mesh) : (h.modMesh f).disc = h.disc := rfl
@[simp] theorem modMesh_lasers (h : Hw) (f : Mesh → Mesh) : (h.modMesh f).lasers = h.lasers := rfl
@[simp] theorem modMesh_groups (h : Hw) (f : Mesh → Mesh) : (h.modMesh f).groups = h.groups := rfl
@[simp] theorem modMesh_progs (h : Hw) (f : Mesh → Mesh) : (h.modMesh f).progs = h.progs := rfl
@[simp] theorem modMesh_mem (h : Hw) (f : Mesh → Mesh) : (h.modMesh f).mem = h.mem := rfl
@[simp] theorem modMesh_jobs (h : Hw) (f : Mesh → Mesh) : (h.modMesh f).jobs = h.jobs := rfl
@[simp] theorem modMesh_power (h : Hw) (f : Mesh → Mesh) : (h.modMesh f).power = h.power := rfl
@[simp] theorem modMesh_pins (h : Hw) (f : Mesh → Mesh) : (h.modMesh f).pins = h.pins := rfl
@[simp] theorem modMesh_latch (h : Hw) (f : Mesh → Mesh) : (h.modMesh f).latch = h.latch := rfl
@[simp] theorem modMesh_fresh (h : Hw) (f : Mesh → Mesh) : (h.modMesh f).fresh = h.fresh := rfl

@[simp] theorem modProgs_ctl (h : Hw) (f : Progs → Progs) : (h.modProgs f).ctl = h.ctl := rfl
@[simp] theorem modProgs_time (h : Hw) (f : Progs → Progs) : (h.modProgs f).time = h.time := rfl
@[simp] theorem modProgs_ports (h : Hw) (f : Progs → Progs) : (h.modProgs f).ports = h.ports := rfl
@[simp] theorem modProgs_cxs (h : Hw) (f : Progs → Progs) : (h.modProgs f).cxs = h.cxs := rfl
@[simp] theorem modProgs_mesh (h : Hw) (f : Progs → Progs) : (h.modProgs f).mesh = h.mesh := rfl
@[simp] theorem modProgs_faults (h : Hw) (f : Progs → Progs) : (h.modProgs f).faults = h.faults := rfl
@[simp] theorem modProgs_disc (h : Hw) (f : Progs → Progs) : (h.modProgs f).disc = h.disc := rfl
@[simp] theorem modProgs_lasers (h : Hw) (f : Progs → Progs) : (h.modProgs f).lasers = h.lasers := rfl
@[simp] theorem modProgs_groups (h : Hw) (f : Progs → Progs) : (h.modProgs f).groups = h.groups := rfl
@[simp] theorem modProgs_progs (h : Hw) (f : Progs → Progs) : (h.modProgs f).progs = f h.progs := rfl
@[simp] theorem modProgs_mem (h : Hw) (f : Progs → Progs) : (h.modProgs f).mem = h.mem := rfl
@[simp] theorem modProgs_jobs (h : Hw) (f : Progs → Progs) : (h.modProgs f).jobs = h.jobs := rfl
@[simp] theorem modProgs_power (h : Hw) (f : Progs → Progs) : (h.modProgs f).power = h.power := rfl
@[simp] theorem modProgs_pins (h : Hw) (f : Progs → Progs) : (h.modProgs f).pins = h.pins := rfl
@[simp] theorem modProgs_latch (h : Hw) (f : Progs → Progs) : (h.modProgs f).latch = h.latch := rfl
@[simp] theorem modProgs_fresh (h : Hw) (f : Progs → Progs) : (h.modProgs f).fresh = h.fresh := rfl

@[simp] theorem modMem_ctl (h : Hw) (f : Mem → Mem) : (h.modMem f).ctl = h.ctl := rfl
@[simp] theorem modMem_time (h : Hw) (f : Mem → Mem) : (h.modMem f).time = h.time := rfl
@[simp] theorem modMem_ports (h : Hw) (f : Mem → Mem) : (h.modMem f).ports = h.ports := rfl
@[simp] theorem modMem_cxs (h : Hw) (f : Mem → Mem) : (h.modMem f).cxs = h.cxs := rfl
@[simp] theorem modMem_mesh (h : Hw) (f : Mem → Mem) : (h.modMem f).mesh = h.mesh := rfl
@[simp] theorem modMem_faults (h : Hw) (f : Mem → Mem) : (h.modMem f).faults = h.faults := rfl
@[simp] theorem modMem_disc (h : Hw) (f : Mem → Mem) : (h.modMem f).disc = h.disc := rfl
@[simp] theorem modMem_lasers (h : Hw) (f : Mem → Mem) : (h.modMem f).lasers = h.lasers := rfl
@[simp] theorem modMem_groups (h : Hw) (f : Mem → Mem) : (h.modMem f).groups = h.groups := rfl
@[simp] theorem modMem_progs (h : Hw) (f : Mem → Mem) : (h.modMem f).progs = h.progs := rfl
@[simp] theorem modMem_mem (h : Hw) (f : Mem → Mem) : (h.modMem f).mem = f h.mem := rfl
@[simp] theorem modMem_jobs (h : Hw) (f : Mem → Mem) : (h.modMem f).jobs = h.jobs := rfl
@[simp] theorem modMem_power (h : Hw) (f : Mem → Mem) : (h.modMem f).power = h.power := rfl
@[simp] theorem modMem_pins (h : Hw) (f : Mem → Mem) : (h.modMem f).pins = h.pins := rfl
@[simp] theorem modMem_latch (h : Hw) (f : Mem → Mem) : (h.modMem f).latch = h.latch := rfl
@[simp] theorem modMem_fresh (h : Hw) (f : Mem → Mem) : (h.modMem f).fresh = h.fresh := rfl

@[simp] theorem modPower_ctl (h : Hw) (f : Power → Power) : (h.modPower f).ctl = h.ctl := rfl
@[simp] theorem modPower_time (h : Hw) (f : Power → Power) : (h.modPower f).time = h.time := rfl
@[simp] theorem modPower_ports (h : Hw) (f : Power → Power) : (h.modPower f).ports = h.ports := rfl
@[simp] theorem modPower_cxs (h : Hw) (f : Power → Power) : (h.modPower f).cxs = h.cxs := rfl
@[simp] theorem modPower_mesh (h : Hw) (f : Power → Power) : (h.modPower f).mesh = h.mesh := rfl
@[simp] theorem modPower_faults (h : Hw) (f : Power → Power) : (h.modPower f).faults = h.faults := rfl
@[simp] theorem modPower_disc (h : Hw) (f : Power → Power) : (h.modPower f).disc = h.disc := rfl
@[simp] theorem modPower_lasers (h : Hw) (f : Power → Power) : (h.modPower f).lasers = h.lasers := rfl
@[simp] theorem modPower_groups (h : Hw) (f : Power → Power) : (h.modPower f).groups = h.groups := rfl
@[simp] theorem modPower_progs (h : Hw) (f : Power → Power) : (h.modPower f).progs = h.progs := rfl
@[simp] theorem modPower_mem (h : Hw) (f : Power → Power) : (h.modPower f).mem = h.mem := rfl
@[simp] theorem modPower_jobs (h : Hw) (f : Power → Power) : (h.modPower f).jobs = h.jobs := rfl
@[simp] theorem modPower_power (h : Hw) (f : Power → Power) : (h.modPower f).power = f h.power := rfl
@[simp] theorem modPower_pins (h : Hw) (f : Power → Power) : (h.modPower f).pins = h.pins := rfl
@[simp] theorem modPower_latch (h : Hw) (f : Power → Power) : (h.modPower f).latch = h.latch := rfl
@[simp] theorem modPower_fresh (h : Hw) (f : Power → Power) : (h.modPower f).fresh = h.fresh := rfl

@[simp] theorem modPins_ctl (h : Hw) (f : Pins → Pins) : (h.modPins f).ctl = h.ctl := rfl
@[simp] theorem modPins_time (h : Hw) (f : Pins → Pins) : (h.modPins f).time = h.time := rfl
@[simp] theorem modPins_ports (h : Hw) (f : Pins → Pins) : (h.modPins f).ports = h.ports := rfl
@[simp] theorem modPins_cxs (h : Hw) (f : Pins → Pins) : (h.modPins f).cxs = h.cxs := rfl
@[simp] theorem modPins_mesh (h : Hw) (f : Pins → Pins) : (h.modPins f).mesh = h.mesh := rfl
@[simp] theorem modPins_faults (h : Hw) (f : Pins → Pins) : (h.modPins f).faults = h.faults := rfl
@[simp] theorem modPins_disc (h : Hw) (f : Pins → Pins) : (h.modPins f).disc = h.disc := rfl
@[simp] theorem modPins_lasers (h : Hw) (f : Pins → Pins) : (h.modPins f).lasers = h.lasers := rfl
@[simp] theorem modPins_groups (h : Hw) (f : Pins → Pins) : (h.modPins f).groups = h.groups := rfl
@[simp] theorem modPins_progs (h : Hw) (f : Pins → Pins) : (h.modPins f).progs = h.progs := rfl
@[simp] theorem modPins_mem (h : Hw) (f : Pins → Pins) : (h.modPins f).mem = h.mem := rfl
@[simp] theorem modPins_jobs (h : Hw) (f : Pins → Pins) : (h.modPins f).jobs = h.jobs := rfl
@[simp] theorem modPins_power (h : Hw) (f : Pins → Pins) : (h.modPins f).power = h.power := rfl
@[simp] theorem modPins_pins (h : Hw) (f : Pins → Pins) : (h.modPins f).pins = f h.pins := rfl
@[simp] theorem modPins_latch (h : Hw) (f : Pins → Pins) : (h.modPins f).latch = h.latch := rfl
@[simp] theorem modPins_fresh (h : Hw) (f : Pins → Pins) : (h.modPins f).fresh = h.fresh := rfl

@[simp] theorem modJob_ctl (h : Hw) (j : Nat) (f : JobSt → JobSt) : (h.modJob j f).ctl = h.ctl := rfl
@[simp] theorem modJob_time (h : Hw) (j : Nat) (f : JobSt → JobSt) : (h.modJob j f).time = h.time := rfl
@[simp] theorem modJob_ports (h : Hw) (j : Nat) (f : JobSt → JobSt) : (h.modJob j f).ports = h.ports := rfl
@[simp] theorem modJob_cxs (h : Hw) (j : Nat) (f : JobSt → JobSt) : (h.modJob j f).cxs = h.cxs := rfl
@[simp] theorem modJob_mesh (h : Hw) (j : Nat) (f : JobSt → JobSt) : (h.modJob j f).mesh = h.mesh := rfl
@[simp] theorem modJob_faults (h : Hw) (j : Nat) (f : JobSt → JobSt) : (h.modJob j f).faults = h.faults := rfl
@[simp] theorem modJob_disc (h : Hw) (j : Nat) (f : JobSt → JobSt) : (h.modJob j f).disc = h.disc := rfl
@[simp] theorem modJob_lasers (h : Hw) (j : Nat) (f : JobSt → JobSt) : (h.modJob j f).lasers = h.lasers := rfl
@[simp] theorem modJob_groups (h : Hw) (j : Nat) (f : JobSt → JobSt) : (h.modJob j f).groups = h.groups := rfl
@[simp] theorem modJob_progs (h : Hw) (j : Nat) (f : JobSt → JobSt) : (h.modJob j f).progs = h.progs := rfl
@[simp] theorem modJob_mem (h : Hw) (j : Nat) (f : JobSt → JobSt) : (h.modJob j f).mem = h.mem := rfl
@[simp] theorem modJob_jobs (h : Hw) (j : Nat) (f : JobSt → JobSt) : (h.modJob j f).jobs = tmod {} h.jobs j f := rfl
@[simp] theorem modJob_power (h : Hw) (j : Nat) (f : JobSt → JobSt) : (h.modJob j f).power = h.power := rfl
@[simp] theorem modJob_pins (h : Hw) (j : Nat) (f : JobSt → JobSt) : (h.modJob j f).pins = h.pins := rfl
@[simp] theorem modJob_latch (h : Hw) (j : Nat) (f : JobSt → JobSt) : (h.modJob j f).latch = h.latch := rfl
@[simp] theorem modJob_fresh (h : Hw) (j : Nat) (f : JobSt → JobSt) : (h.modJob j f).fresh = h.fresh := rfl

@[simp] theorem setPort_ctl (h : Hw) (p : Nat) (x : Port) : (h.setPort p x).ctl = h.ctl := rfl
@[simp] theorem setPort_time (h : Hw) (p : Nat) (x : Port) : (h.setPort p x).time = h.time := rfl
@[simp] theorem setPort_ports (h : Hw) (p : Nat) (x : Port) : (h.setPort p x).ports = tput h.ports p x := rfl
@[simp] theorem setPort_cxs (h : Hw) (p : Nat) (x : Port) : (h.setPort p x).cxs = h.cxs := rfl
@[simp] theorem setPort_mesh (h : Hw) (p : Nat) (x : Port) : (h.setPort p x).mesh = h.mesh := rfl
@[simp] theorem setPort_faults (h : Hw) (p : Nat) (x : Port) : (h.setPort p x).faults = h.faults := rfl
@[simp] theorem setPort_disc (h : Hw) (p : Nat) (x : Port) : (h.setPort p x).disc = h.disc := rfl
@[simp] theorem setPort_lasers (h : Hw) (p : Nat) (x : Port) : (h.setPort p x).lasers = h.lasers := rfl
@[simp] theorem setPort_groups (h : Hw) (p : Nat) (x : Port) : (h.setPort p x).groups = h.groups := rfl
@[simp] theorem setPort_progs (h : Hw) (p : Nat) (x : Port) : (h.setPort p x).progs = h.progs := rfl
@[simp] theorem setPort_mem (h : Hw) (p : Nat) (x : Port) : (h.setPort p x).mem = h.mem := rfl
@[simp] theorem setPort_jobs (h : Hw) (p : Nat) (x : Port) : (h.setPort p x).jobs = h.jobs := rfl
@[simp] theorem setPort_power (h : Hw) (p : Nat) (x : Port) : (h.setPort p x).power = h.power := rfl
@[simp] theorem setPort_pins (h : Hw) (p : Nat) (x : Port) : (h.setPort p x).pins = h.pins := rfl
@[simp] theorem setPort_latch (h : Hw) (p : Nat) (x : Port) : (h.setPort p x).latch = h.latch := rfl
@[simp] theorem setPort_fresh (h : Hw) (p : Nat) (x : Port) : (h.setPort p x).fresh = h.fresh := rfl

@[simp] theorem modPort_ctl (h : Hw) (p : Nat) (f : Port → Port) : (h.modPort p f).ctl = h.ctl := rfl
@[simp] theorem modPort_time (h : Hw) (p : Nat) (f : Port → Port) : (h.modPort p f).time = h.time := rfl
@[simp] theorem modPort_ports (h : Hw) (p : Nat) (f : Port → Port) : (h.modPort p f).ports = tput h.ports p (f (h.port p)) := rfl
@[simp] theorem modPort_cxs (h : Hw) (p : Nat) (f : Port → Port) : (h.modPort p f).cxs = h.cxs := rfl
@[simp] theorem modPort_mesh (h : Hw) (p : Nat) (f : Port → Port) : (h.modPort p f).mesh = h.mesh := rfl
@[simp] theorem modPort_faults (h : Hw) (p : Nat) (f : Port → Port) : (h.modPort p f).faults = h.faults := rfl
@[simp] theorem modPort_disc (h : Hw) (p : Nat) (f : Port → Port) : (h.modPort p f).disc = h.disc := rfl
@[simp] theorem modPort_lasers (h : Hw) (p : Nat) (f : Port → Port) : (h.modPort p f).lasers = h.lasers := rfl
@[simp] theorem modPort_groups (h : Hw) (p : Nat) (f : Port → Port) : (h.modPort p f).groups = h.groups := rfl
@[simp] theorem modPort_progs (h : Hw) (p : Nat) (f : Port → Port) : (h.modPort p f).progs = h.progs := rfl
@[simp] theorem modPort_mem (h : Hw) (p : Nat) (f : Port → Port) : (h.modPort p f).mem = h.mem := rfl
@[simp] theorem modPort_jobs (h : Hw) (p : Nat) (f : Port → Port) : (h.modPort p f).jobs = h.jobs := rfl
@[simp] theorem modPort_power (h : Hw) (p : Nat) (f : Port → Port) : (h.modPort p f).power = h.power := rfl
@[simp] theorem modPort_pins (h : Hw) (p : Nat) (f : Port → Port) : (h.modPort p f).pins = h.pins := rfl
@[simp] theorem modPort_latch (h : Hw) (p : Nat) (f : Port → Port) : (h.modPort p f).latch = h.latch := rfl
@[simp] theorem modPort_fresh (h : Hw) (p : Nat) (f : Port → Port) : (h.modPort p f).fresh = h.fresh := rfl

@[simp] theorem setCx_ctl (h : Hw) (c : Nat) (x : Complex) : (h.setCx c x).ctl = h.ctl := rfl
@[simp] theorem setCx_time (h : Hw) (c : Nat) (x : Complex) : (h.setCx c x).time = h.time := rfl
@[simp] theorem setCx_ports (h : Hw) (c : Nat) (x : Complex) : (h.setCx c x).ports = h.ports := rfl
@[simp] theorem setCx_cxs (h : Hw) (c : Nat) (x : Complex) : (h.setCx c x).cxs = tput h.cxs c x := rfl
@[simp] theorem setCx_mesh (h : Hw) (c : Nat) (x : Complex) : (h.setCx c x).mesh = h.mesh := rfl
@[simp] theorem setCx_faults (h : Hw) (c : Nat) (x : Complex) : (h.setCx c x).faults = h.faults := rfl
@[simp] theorem setCx_disc (h : Hw) (c : Nat) (x : Complex) : (h.setCx c x).disc = h.disc := rfl
@[simp] theorem setCx_lasers (h : Hw) (c : Nat) (x : Complex) : (h.setCx c x).lasers = h.lasers := rfl
@[simp] theorem setCx_groups (h : Hw) (c : Nat) (x : Complex) : (h.setCx c x).groups = h.groups := rfl
@[simp] theorem setCx_progs (h : Hw) (c : Nat) (x : Complex) : (h.setCx c x).progs = h.progs := rfl
@[simp] theorem setCx_mem (h : Hw) (c : Nat) (x : Complex) : (h.setCx c x).mem = h.mem := rfl
@[simp] theorem setCx_jobs (h : Hw) (c : Nat) (x : Complex) : (h.setCx c x).jobs = h.jobs := rfl
@[simp] theorem setCx_power (h : Hw) (c : Nat) (x : Complex) : (h.setCx c x).power = h.power := rfl
@[simp] theorem setCx_pins (h : Hw) (c : Nat) (x : Complex) : (h.setCx c x).pins = h.pins := rfl
@[simp] theorem setCx_latch (h : Hw) (c : Nat) (x : Complex) : (h.setCx c x).latch = h.latch := rfl
@[simp] theorem setCx_fresh (h : Hw) (c : Nat) (x : Complex) : (h.setCx c x).fresh = h.fresh := rfl

@[simp] theorem modCx_ctl (h : Hw) (c : Nat) (f : Complex → Complex) : (h.modCx c f).ctl = h.ctl := rfl
@[simp] theorem modCx_time (h : Hw) (c : Nat) (f : Complex → Complex) : (h.modCx c f).time = h.time := rfl
@[simp] theorem modCx_ports (h : Hw) (c : Nat) (f : Complex → Complex) : (h.modCx c f).ports = h.ports := rfl
@[simp] theorem modCx_cxs (h : Hw) (c : Nat) (f : Complex → Complex) : (h.modCx c f).cxs = tput h.cxs c (f (h.cx c)) := rfl
@[simp] theorem modCx_mesh (h : Hw) (c : Nat) (f : Complex → Complex) : (h.modCx c f).mesh = h.mesh := rfl
@[simp] theorem modCx_faults (h : Hw) (c : Nat) (f : Complex → Complex) : (h.modCx c f).faults = h.faults := rfl
@[simp] theorem modCx_disc (h : Hw) (c : Nat) (f : Complex → Complex) : (h.modCx c f).disc = h.disc := rfl
@[simp] theorem modCx_lasers (h : Hw) (c : Nat) (f : Complex → Complex) : (h.modCx c f).lasers = h.lasers := rfl
@[simp] theorem modCx_groups (h : Hw) (c : Nat) (f : Complex → Complex) : (h.modCx c f).groups = h.groups := rfl
@[simp] theorem modCx_progs (h : Hw) (c : Nat) (f : Complex → Complex) : (h.modCx c f).progs = h.progs := rfl
@[simp] theorem modCx_mem (h : Hw) (c : Nat) (f : Complex → Complex) : (h.modCx c f).mem = h.mem := rfl
@[simp] theorem modCx_jobs (h : Hw) (c : Nat) (f : Complex → Complex) : (h.modCx c f).jobs = h.jobs := rfl
@[simp] theorem modCx_power (h : Hw) (c : Nat) (f : Complex → Complex) : (h.modCx c f).power = h.power := rfl
@[simp] theorem modCx_pins (h : Hw) (c : Nat) (f : Complex → Complex) : (h.modCx c f).pins = h.pins := rfl
@[simp] theorem modCx_latch (h : Hw) (c : Nat) (f : Complex → Complex) : (h.modCx c f).latch = h.latch := rfl
@[simp] theorem modCx_fresh (h : Hw) (c : Nat) (f : Complex → Complex) : (h.modCx c f).fresh = h.fresh := rfl

@[simp] theorem modRouter_ctl (h : Hw) (r : Nat) (f : Router → Router) : (h.modRouter r f).ctl = h.ctl := rfl
@[simp] theorem modRouter_time (h : Hw) (r : Nat) (f : Router → Router) : (h.modRouter r f).time = h.time := rfl
@[simp] theorem modRouter_ports (h : Hw) (r : Nat) (f : Router → Router) : (h.modRouter r f).ports = h.ports := rfl
@[simp] theorem modRouter_cxs (h : Hw) (r : Nat) (f : Router → Router) : (h.modRouter r f).cxs = h.cxs := rfl
@[simp] theorem modRouter_mesh (h : Hw) (r : Nat) (f : Router → Router) : (h.modRouter r f).mesh = { h.mesh with routers := tmod {} h.mesh.routers r f } := rfl
@[simp] theorem modRouter_faults (h : Hw) (r : Nat) (f : Router → Router) : (h.modRouter r f).faults = h.faults := rfl
@[simp] theorem modRouter_disc (h : Hw) (r : Nat) (f : Router → Router) : (h.modRouter r f).disc = h.disc := rfl
@[simp] theorem modRouter_lasers (h : Hw) (r : Nat) (f : Router → Router) : (h.modRouter r f).lasers = h.lasers := rfl
@[simp] theorem modRouter_groups (h : Hw) (r : Nat) (f : Router → Router) : (h.modRouter r f).groups = h.groups := rfl
@[simp] theorem modRouter_progs (h : Hw) (r : Nat) (f : Router → Router) : (h.modRouter r f).progs = h.progs := rfl
@[simp] theorem modRouter_mem (h : Hw) (r : Nat) (f : Router → Router) : (h.modRouter r f).mem = h.mem := rfl
@[simp] theorem modRouter_jobs (h : Hw) (r : Nat) (f : Router → Router) : (h.modRouter r f).jobs = h.jobs := rfl
@[simp] theorem modRouter_power (h : Hw) (r : Nat) (f : Router → Router) : (h.modRouter r f).power = h.power := rfl
@[simp] theorem modRouter_pins (h : Hw) (r : Nat) (f : Router → Router) : (h.modRouter r f).pins = h.pins := rfl
@[simp] theorem modRouter_latch (h : Hw) (r : Nat) (f : Router → Router) : (h.modRouter r f).latch = h.latch := rfl
@[simp] theorem modRouter_fresh (h : Hw) (r : Nat) (f : Router → Router) : (h.modRouter r f).fresh = h.fresh := rfl

@[simp] theorem modChan_ctl (h : Hw) (c : Nat) (f : Chan → Chan) : (h.modChan c f).ctl = { h.ctl with chans := tmod {} h.ctl.chans c f } := rfl
@[simp] theorem modChan_time (h : Hw) (c : Nat) (f : Chan → Chan) : (h.modChan c f).time = h.time := rfl
@[simp] theorem modChan_ports (h : Hw) (c : Nat) (f : Chan → Chan) : (h.modChan c f).ports = h.ports := rfl
@[simp] theorem modChan_cxs (h : Hw) (c : Nat) (f : Chan → Chan) : (h.modChan c f).cxs = h.cxs := rfl
@[simp] theorem modChan_mesh (h : Hw) (c : Nat) (f : Chan → Chan) : (h.modChan c f).mesh = h.mesh := rfl
@[simp] theorem modChan_faults (h : Hw) (c : Nat) (f : Chan → Chan) : (h.modChan c f).faults = h.faults := rfl
@[simp] theorem modChan_disc (h : Hw) (c : Nat) (f : Chan → Chan) : (h.modChan c f).disc = h.disc := rfl
@[simp] theorem modChan_lasers (h : Hw) (c : Nat) (f : Chan → Chan) : (h.modChan c f).lasers = h.lasers := rfl
@[simp] theorem modChan_groups (h : Hw) (c : Nat) (f : Chan → Chan) : (h.modChan c f).groups = h.groups := rfl
@[simp] theorem modChan_progs (h : Hw) (c : Nat) (f : Chan → Chan) : (h.modChan c f).progs = h.progs := rfl
@[simp] theorem modChan_mem (h : Hw) (c : Nat) (f : Chan → Chan) : (h.modChan c f).mem = h.mem := rfl
@[simp] theorem modChan_jobs (h : Hw) (c : Nat) (f : Chan → Chan) : (h.modChan c f).jobs = h.jobs := rfl
@[simp] theorem modChan_power (h : Hw) (c : Nat) (f : Chan → Chan) : (h.modChan c f).power = h.power := rfl
@[simp] theorem modChan_pins (h : Hw) (c : Nat) (f : Chan → Chan) : (h.modChan c f).pins = h.pins := rfl
@[simp] theorem modChan_latch (h : Hw) (c : Nat) (f : Chan → Chan) : (h.modChan c f).latch = h.latch := rfl
@[simp] theorem modChan_fresh (h : Hw) (c : Nat) (f : Chan → Chan) : (h.modChan c f).fresh = h.fresh := rfl

@[simp] theorem modStack_ctl (h : Hw) (k : Nat) (f : Stack → Stack) : (h.modStack k f).ctl = h.ctl := rfl
@[simp] theorem modStack_time (h : Hw) (k : Nat) (f : Stack → Stack) : (h.modStack k f).time = h.time := rfl
@[simp] theorem modStack_ports (h : Hw) (k : Nat) (f : Stack → Stack) : (h.modStack k f).ports = h.ports := rfl
@[simp] theorem modStack_cxs (h : Hw) (k : Nat) (f : Stack → Stack) : (h.modStack k f).cxs = h.cxs := rfl
@[simp] theorem modStack_mesh (h : Hw) (k : Nat) (f : Stack → Stack) : (h.modStack k f).mesh = h.mesh := rfl
@[simp] theorem modStack_faults (h : Hw) (k : Nat) (f : Stack → Stack) : (h.modStack k f).faults = h.faults := rfl
@[simp] theorem modStack_disc (h : Hw) (k : Nat) (f : Stack → Stack) : (h.modStack k f).disc = h.disc := rfl
@[simp] theorem modStack_lasers (h : Hw) (k : Nat) (f : Stack → Stack) : (h.modStack k f).lasers = h.lasers := rfl
@[simp] theorem modStack_groups (h : Hw) (k : Nat) (f : Stack → Stack) : (h.modStack k f).groups = h.groups := rfl
@[simp] theorem modStack_progs (h : Hw) (k : Nat) (f : Stack → Stack) : (h.modStack k f).progs = h.progs := rfl
@[simp] theorem modStack_mem (h : Hw) (k : Nat) (f : Stack → Stack) : (h.modStack k f).mem = { h.mem with hbms := tmod {} h.mem.hbms k f } := rfl
@[simp] theorem modStack_jobs (h : Hw) (k : Nat) (f : Stack → Stack) : (h.modStack k f).jobs = h.jobs := rfl
@[simp] theorem modStack_power (h : Hw) (k : Nat) (f : Stack → Stack) : (h.modStack k f).power = h.power := rfl
@[simp] theorem modStack_pins (h : Hw) (k : Nat) (f : Stack → Stack) : (h.modStack k f).pins = h.pins := rfl
@[simp] theorem modStack_latch (h : Hw) (k : Nat) (f : Stack → Stack) : (h.modStack k f).latch = h.latch := rfl
@[simp] theorem modStack_fresh (h : Hw) (k : Nat) (f : Stack → Stack) : (h.modStack k f).fresh = h.fresh := rfl

@[simp] theorem modGrp_ctl (h : Hw) (g : Nat) (f : Group → Group) : (h.modGrp g f).ctl = h.ctl := by unfold Hw.modGrp; split <;> rfl
@[simp] theorem modGrp_time (h : Hw) (g : Nat) (f : Group → Group) : (h.modGrp g f).time = h.time := by unfold Hw.modGrp; split <;> rfl
@[simp] theorem modGrp_ports (h : Hw) (g : Nat) (f : Group → Group) : (h.modGrp g f).ports = h.ports := by unfold Hw.modGrp; split <;> rfl
@[simp] theorem modGrp_cxs (h : Hw) (g : Nat) (f : Group → Group) : (h.modGrp g f).cxs = h.cxs := by unfold Hw.modGrp; split <;> rfl
@[simp] theorem modGrp_mesh (h : Hw) (g : Nat) (f : Group → Group) : (h.modGrp g f).mesh = h.mesh := by unfold Hw.modGrp; split <;> rfl
@[simp] theorem modGrp_faults (h : Hw) (g : Nat) (f : Group → Group) : (h.modGrp g f).faults = h.faults := by unfold Hw.modGrp; split <;> rfl
@[simp] theorem modGrp_disc (h : Hw) (g : Nat) (f : Group → Group) : (h.modGrp g f).disc = h.disc := by unfold Hw.modGrp; split <;> rfl
@[simp] theorem modGrp_lasers (h : Hw) (g : Nat) (f : Group → Group) : (h.modGrp g f).lasers = h.lasers := by unfold Hw.modGrp; split <;> rfl
@[simp] theorem modGrp_progs (h : Hw) (g : Nat) (f : Group → Group) : (h.modGrp g f).progs = h.progs := by unfold Hw.modGrp; split <;> rfl
@[simp] theorem modGrp_mem (h : Hw) (g : Nat) (f : Group → Group) : (h.modGrp g f).mem = h.mem := by unfold Hw.modGrp; split <;> rfl
@[simp] theorem modGrp_jobs (h : Hw) (g : Nat) (f : Group → Group) : (h.modGrp g f).jobs = h.jobs := by unfold Hw.modGrp; split <;> rfl
@[simp] theorem modGrp_power (h : Hw) (g : Nat) (f : Group → Group) : (h.modGrp g f).power = h.power := by unfold Hw.modGrp; split <;> rfl
@[simp] theorem modGrp_pins (h : Hw) (g : Nat) (f : Group → Group) : (h.modGrp g f).pins = h.pins := by unfold Hw.modGrp; split <;> rfl
@[simp] theorem modGrp_latch (h : Hw) (g : Nat) (f : Group → Group) : (h.modGrp g f).latch = h.latch := by unfold Hw.modGrp; split <;> rfl
@[simp] theorem modGrp_fresh (h : Hw) (g : Nat) (f : Group → Group) : (h.modGrp g f).fresh = h.fresh := by unfold Hw.modGrp; split <;> rfl

end Sys2Proof.Machine
end

