-- ==== Sys2Proof/Laws/Ops.lean ====
section
/-!
SUPPORT. The shared operations that count, raise and report: what each leaves alone, and what it adds.
-/

namespace Sys2Proof.Machine
open Sys2Proof

/-! The mesh inputs: a read after a write -/

@[simp] theorem linkIn_modIn (h : Hw) (r d : Nat) (f : MeshIn → MeshIn) : (h.modIn r d f).linkIn r d = f (h.linkIn r d) := by
  simp [Hw.linkIn, Hw.modIn, tmod]

theorem linkIn_modIn_ne (h : Hw) {r d q e : Nat} (f : MeshIn → MeshIn) (hn : q ≠ r ∨ e ≠ d) : (h.modIn r d f).linkIn q e = h.linkIn q e := by
  by_cases hq : q = r
  · subst hq
    simp [Hw.linkIn, Hw.modIn, tmod, tget_tput_ne _ _ (hn.resolve_left (fun c => c rfl))]
  · simp [Hw.linkIn, Hw.modIn, router_modRouter_ne _ _ hq]

/-! `raise` -/

@[simp] theorem raise_time (h : Hw) (code : Nat) (data : List Word) : (h.raise code data).time = h.time := rfl
@[simp] theorem raise_ports (h : Hw) (code : Nat) (data : List Word) : (h.raise code data).ports = h.ports := rfl
@[simp] theorem raise_cxs (h : Hw) (code : Nat) (data : List Word) : (h.raise code data).cxs = h.cxs := rfl
@[simp] theorem raise_mesh (h : Hw) (code : Nat) (data : List Word) : (h.raise code data).mesh = h.mesh := rfl
@[simp] theorem raise_faults (h : Hw) (code : Nat) (data : List Word) : (h.raise code data).faults = h.faults := rfl
@[simp] theorem raise_disc (h : Hw) (code : Nat) (data : List Word) : (h.raise code data).disc = h.disc := rfl
@[simp] theorem raise_lasers (h : Hw) (code : Nat) (data : List Word) : (h.raise code data).lasers = h.lasers := rfl
@[simp] theorem raise_groups (h : Hw) (code : Nat) (data : List Word) : (h.raise code data).groups = h.groups := rfl
@[simp] theorem raise_progs (h : Hw) (code : Nat) (data : List Word) : (h.raise code data).progs = h.progs := rfl
@[simp] theorem raise_mem (h : Hw) (code : Nat) (data : List Word) : (h.raise code data).mem = h.mem := rfl
@[simp] theorem raise_jobs (h : Hw) (code : Nat) (data : List Word) : (h.raise code data).jobs = h.jobs := rfl
@[simp] theorem raise_power (h : Hw) (code : Nat) (data : List Word) : (h.raise code data).power = h.power := rfl
@[simp] theorem raise_pins (h : Hw) (code : Nat) (data : List Word) : (h.raise code data).pins = h.pins := rfl
@[simp] theorem raise_latch (h : Hw) (code : Nat) (data : List Word) : (h.raise code data).latch = h.latch := rfl
@[simp] theorem raise_fresh (h : Hw) (code : Nat) (data : List Word) : (h.raise code data).fresh = h.fresh := rfl
@[simp] theorem raise_records (h : Hw) (code : Nat) (data : List Word) : (h.raise code data).records = h.records := rfl

/-! `count` -/

@[simp] theorem count_ctl (h : Hw) (p i n : Nat) : (h.count p i n).ctl = h.ctl := rfl
@[simp] theorem count_time (h : Hw) (p i n : Nat) : (h.count p i n).time = h.time := rfl
@[simp] theorem count_cxs (h : Hw) (p i n : Nat) : (h.count p i n).cxs = h.cxs := rfl
@[simp] theorem count_mesh (h : Hw) (p i n : Nat) : (h.count p i n).mesh = h.mesh := rfl
@[simp] theorem count_faults (h : Hw) (p i n : Nat) : (h.count p i n).faults = h.faults := rfl
@[simp] theorem count_disc (h : Hw) (p i n : Nat) : (h.count p i n).disc = h.disc := rfl
@[simp] theorem count_lasers (h : Hw) (p i n : Nat) : (h.count p i n).lasers = h.lasers := rfl
@[simp] theorem count_groups (h : Hw) (p i n : Nat) : (h.count p i n).groups = h.groups := rfl
@[simp] theorem count_progs (h : Hw) (p i n : Nat) : (h.count p i n).progs = h.progs := rfl
@[simp] theorem count_mem (h : Hw) (p i n : Nat) : (h.count p i n).mem = h.mem := rfl
@[simp] theorem count_jobs (h : Hw) (p i n : Nat) : (h.count p i n).jobs = h.jobs := rfl
@[simp] theorem count_power (h : Hw) (p i n : Nat) : (h.count p i n).power = h.power := rfl
@[simp] theorem count_pins (h : Hw) (p i n : Nat) : (h.count p i n).pins = h.pins := rfl
@[simp] theorem count_latch (h : Hw) (p i n : Nat) : (h.count p i n).latch = h.latch := rfl
@[simp] theorem count_fresh (h : Hw) (p i n : Nat) : (h.count p i n).fresh = h.fresh := rfl
@[simp] theorem count_records (h : Hw) (p i n : Nat) : (h.count p i n).records = h.records := rfl

/-! `countRouter` -/

@[simp] theorem countRouter_ctl (h : Hw) (r i n : Nat) : (h.countRouter r i n).ctl = h.ctl := rfl
@[simp] theorem countRouter_time (h : Hw) (r i n : Nat) : (h.countRouter r i n).time = h.time := rfl
@[simp] theorem countRouter_ports (h : Hw) (r i n : Nat) : (h.countRouter r i n).ports = h.ports := rfl
@[simp] theorem countRouter_cxs (h : Hw) (r i n : Nat) : (h.countRouter r i n).cxs = h.cxs := rfl
@[simp] theorem countRouter_faults (h : Hw) (r i n : Nat) : (h.countRouter r i n).faults = h.faults := rfl
@[simp] theorem countRouter_disc (h : Hw) (r i n : Nat) : (h.countRouter r i n).disc = h.disc := rfl
@[simp] theorem countRouter_lasers (h : Hw) (r i n : Nat) : (h.countRouter r i n).lasers = h.lasers := rfl
@[simp] theorem countRouter_groups (h : Hw) (r i n : Nat) : (h.countRouter r i n).groups = h.groups := rfl
@[simp] theorem countRouter_progs (h : Hw) (r i n : Nat) : (h.countRouter r i n).progs = h.progs := rfl
@[simp] theorem countRouter_mem (h : Hw) (r i n : Nat) : (h.countRouter r i n).mem = h.mem := rfl
@[simp] theorem countRouter_jobs (h : Hw) (r i n : Nat) : (h.countRouter r i n).jobs = h.jobs := rfl
@[simp] theorem countRouter_power (h : Hw) (r i n : Nat) : (h.countRouter r i n).power = h.power := rfl
@[simp] theorem countRouter_pins (h : Hw) (r i n : Nat) : (h.countRouter r i n).pins = h.pins := rfl
@[simp] theorem countRouter_latch (h : Hw) (r i n : Nat) : (h.countRouter r i n).latch = h.latch := rfl
@[simp] theorem countRouter_fresh (h : Hw) (r i n : Nat) : (h.countRouter r i n).fresh = h.fresh := rfl
@[simp] theorem countRouter_records (h : Hw) (r i n : Nat) : (h.countRouter r i n).records = h.records := rfl

/-! `countLane` -/

@[simp] theorem countLane_ctl (h : Hw) (p i : Nat) : (h.countLane p i).ctl = h.ctl := rfl
@[simp] theorem countLane_time (h : Hw) (p i : Nat) : (h.countLane p i).time = h.time := rfl
@[simp] theorem countLane_cxs (h : Hw) (p i : Nat) : (h.countLane p i).cxs = h.cxs := rfl
@[simp] theorem countLane_mesh (h : Hw) (p i : Nat) : (h.countLane p i).mesh = h.mesh := rfl
@[simp] theorem countLane_faults (h : Hw) (p i : Nat) : (h.countLane p i).faults = h.faults := rfl
@[simp] theorem countLane_disc (h : Hw) (p i : Nat) : (h.countLane p i).disc = h.disc := rfl
@[simp] theorem countLane_lasers (h : Hw) (p i : Nat) : (h.countLane p i).lasers = h.lasers := rfl
@[simp] theorem countLane_groups (h : Hw) (p i : Nat) : (h.countLane p i).groups = h.groups := rfl
@[simp] theorem countLane_progs (h : Hw) (p i : Nat) : (h.countLane p i).progs = h.progs := rfl
@[simp] theorem countLane_mem (h : Hw) (p i : Nat) : (h.countLane p i).mem = h.mem := rfl
@[simp] theorem countLane_jobs (h : Hw) (p i : Nat) : (h.countLane p i).jobs = h.jobs := rfl
@[simp] theorem countLane_power (h : Hw) (p i : Nat) : (h.countLane p i).power = h.power := rfl
@[simp] theorem countLane_pins (h : Hw) (p i : Nat) : (h.countLane p i).pins = h.pins := rfl
@[simp] theorem countLane_latch (h : Hw) (p i : Nat) : (h.countLane p i).latch = h.latch := rfl
@[simp] theorem countLane_fresh (h : Hw) (p i : Nat) : (h.countLane p i).fresh = h.fresh := rfl
@[simp] theorem countLane_records (h : Hw) (p i : Nat) : (h.countLane p i).records = h.records := rfl

/-! `modLink` -/

@[simp] theorem modLink_ctl (h : Hw) (p : Nat) (f : Link → Link) : (h.modLink p f).ctl = h.ctl := rfl
@[simp] theorem modLink_time (h : Hw) (p : Nat) (f : Link → Link) : (h.modLink p f).time = h.time := rfl
@[simp] theorem modLink_cxs (h : Hw) (p : Nat) (f : Link → Link) : (h.modLink p f).cxs = h.cxs := rfl
@[simp] theorem modLink_mesh (h : Hw) (p : Nat) (f : Link → Link) : (h.modLink p f).mesh = h.mesh := rfl
@[simp] theorem modLink_faults (h : Hw) (p : Nat) (f : Link → Link) : (h.modLink p f).faults = h.faults := rfl
@[simp] theorem modLink_disc (h : Hw) (p : Nat) (f : Link → Link) : (h.modLink p f).disc = h.disc := rfl
@[simp] theorem modLink_lasers (h : Hw) (p : Nat) (f : Link → Link) : (h.modLink p f).lasers = h.lasers := rfl
@[simp] theorem modLink_groups (h : Hw) (p : Nat) (f : Link → Link) : (h.modLink p f).groups = h.groups := rfl
@[simp] theorem modLink_progs (h : Hw) (p : Nat) (f : Link → Link) : (h.modLink p f).progs = h.progs := rfl
@[simp] theorem modLink_mem (h : Hw) (p : Nat) (f : Link → Link) : (h.modLink p f).mem = h.mem := rfl
@[simp] theorem modLink_jobs (h : Hw) (p : Nat) (f : Link → Link) : (h.modLink p f).jobs = h.jobs := rfl
@[simp] theorem modLink_power (h : Hw) (p : Nat) (f : Link → Link) : (h.modLink p f).power = h.power := rfl
@[simp] theorem modLink_pins (h : Hw) (p : Nat) (f : Link → Link) : (h.modLink p f).pins = h.pins := rfl
@[simp] theorem modLink_latch (h : Hw) (p : Nat) (f : Link → Link) : (h.modLink p f).latch = h.latch := rfl
@[simp] theorem modLink_fresh (h : Hw) (p : Nat) (f : Link → Link) : (h.modLink p f).fresh = h.fresh := rfl
@[simp] theorem modLink_records (h : Hw) (p : Nat) (f : Link → Link) : (h.modLink p f).records = h.records := rfl

/-! `modLanes` -/

@[simp] theorem modLanes_ctl (h : Hw) (p : Nat) (f : Lanes → Lanes) : (h.modLanes p f).ctl = h.ctl := rfl
@[simp] theorem modLanes_time (h : Hw) (p : Nat) (f : Lanes → Lanes) : (h.modLanes p f).time = h.time := rfl
@[simp] theorem modLanes_cxs (h : Hw) (p : Nat) (f : Lanes → Lanes) : (h.modLanes p f).cxs = h.cxs := rfl
@[simp] theorem modLanes_mesh (h : Hw) (p : Nat) (f : Lanes → Lanes) : (h.modLanes p f).mesh = h.mesh := rfl
@[simp] theorem modLanes_faults (h : Hw) (p : Nat) (f : Lanes → Lanes) : (h.modLanes p f).faults = h.faults := rfl
@[simp] theorem modLanes_disc (h : Hw) (p : Nat) (f : Lanes → Lanes) : (h.modLanes p f).disc = h.disc := rfl
@[simp] theorem modLanes_lasers (h : Hw) (p : Nat) (f : Lanes → Lanes) : (h.modLanes p f).lasers = h.lasers := rfl
@[simp] theorem modLanes_groups (h : Hw) (p : Nat) (f : Lanes → Lanes) : (h.modLanes p f).groups = h.groups := rfl
@[simp] theorem modLanes_progs (h : Hw) (p : Nat) (f : Lanes → Lanes) : (h.modLanes p f).progs = h.progs := rfl
@[simp] theorem modLanes_mem (h : Hw) (p : Nat) (f : Lanes → Lanes) : (h.modLanes p f).mem = h.mem := rfl
@[simp] theorem modLanes_jobs (h : Hw) (p : Nat) (f : Lanes → Lanes) : (h.modLanes p f).jobs = h.jobs := rfl
@[simp] theorem modLanes_power (h : Hw) (p : Nat) (f : Lanes → Lanes) : (h.modLanes p f).power = h.power := rfl
@[simp] theorem modLanes_pins (h : Hw) (p : Nat) (f : Lanes → Lanes) : (h.modLanes p f).pins = h.pins := rfl
@[simp] theorem modLanes_latch (h : Hw) (p : Nat) (f : Lanes → Lanes) : (h.modLanes p f).latch = h.latch := rfl
@[simp] theorem modLanes_fresh (h : Hw) (p : Nat) (f : Lanes → Lanes) : (h.modLanes p f).fresh = h.fresh := rfl
@[simp] theorem modLanes_records (h : Hw) (p : Nat) (f : Lanes → Lanes) : (h.modLanes p f).records = h.records := rfl

/-! `modGlean` -/

@[simp] theorem modGlean_ctl (h : Hw) (p : Nat) (f : Glean → Glean) : (h.modGlean p f).ctl = h.ctl := rfl
@[simp] theorem modGlean_time (h : Hw) (p : Nat) (f : Glean → Glean) : (h.modGlean p f).time = h.time := rfl
@[simp] theorem modGlean_cxs (h : Hw) (p : Nat) (f : Glean → Glean) : (h.modGlean p f).cxs = h.cxs := rfl
@[simp] theorem modGlean_mesh (h : Hw) (p : Nat) (f : Glean → Glean) : (h.modGlean p f).mesh = h.mesh := rfl
@[simp] theorem modGlean_faults (h : Hw) (p : Nat) (f : Glean → Glean) : (h.modGlean p f).faults = h.faults := rfl
@[simp] theorem modGlean_disc (h : Hw) (p : Nat) (f : Glean → Glean) : (h.modGlean p f).disc = h.disc := rfl
@[simp] theorem modGlean_lasers (h : Hw) (p : Nat) (f : Glean → Glean) : (h.modGlean p f).lasers = h.lasers := rfl
@[simp] theorem modGlean_groups (h : Hw) (p : Nat) (f : Glean → Glean) : (h.modGlean p f).groups = h.groups := rfl
@[simp] theorem modGlean_progs (h : Hw) (p : Nat) (f : Glean → Glean) : (h.modGlean p f).progs = h.progs := rfl
@[simp] theorem modGlean_mem (h : Hw) (p : Nat) (f : Glean → Glean) : (h.modGlean p f).mem = h.mem := rfl
@[simp] theorem modGlean_jobs (h : Hw) (p : Nat) (f : Glean → Glean) : (h.modGlean p f).jobs = h.jobs := rfl
@[simp] theorem modGlean_power (h : Hw) (p : Nat) (f : Glean → Glean) : (h.modGlean p f).power = h.power := rfl
@[simp] theorem modGlean_pins (h : Hw) (p : Nat) (f : Glean → Glean) : (h.modGlean p f).pins = h.pins := rfl
@[simp] theorem modGlean_latch (h : Hw) (p : Nat) (f : Glean → Glean) : (h.modGlean p f).latch = h.latch := rfl
@[simp] theorem modGlean_fresh (h : Hw) (p : Nat) (f : Glean → Glean) : (h.modGlean p f).fresh = h.fresh := rfl
@[simp] theorem modGlean_records (h : Hw) (p : Nat) (f : Glean → Glean) : (h.modGlean p f).records = h.records := rfl

@[simp] theorem raise_last (h : Hw) (code : Nat) (data : List Word) (he : h.eventsOn = true) :
    (h.raise code data).ctl.raised.getLast?.map (·.code) = some code := by
  simp [Hw.raise, Ctl.raise, he]

/-- A port's counter after an addition to it, and every other counter of the port. -/
theorem count_counter (h : Hw) (p i n j : Nat) :
    tget 0 ((h.count p i n).port p).counters j = if j = i then satPort i (tget 0 (h.port p).counters i + n) else tget 0 (h.port p).counters j := by
  by_cases e : j = i
  · subst e; simp [Hw.count, tmod]
  · simp [Hw.count, tmod, tget_tput_ne _ _ e, e]

/-- A router's counter after an addition to it, and every other counter of the router. -/
theorem countRouter_counter (h : Hw) (r i n j : Nat) :
    tget 0 ((h.countRouter r i n).router r).counters j =
      if j = i then (if i < 6 then sat64 (tget 0 (h.router r).counters i + n) else sat32 (tget 0 (h.router r).counters i + n)) else tget 0 (h.router r).counters j := by
  by_cases e : j = i
  · subst e; simp [Hw.countRouter, tmod]
  · simp [Hw.countRouter, tmod, tget_tput_ne _ _ e, e]

/-- A read of a router's counters raises the two that count cycles, and no other. -/
theorem waitCycles_counter (h : Hw) (r i : Nat) (h7 : i ≠ 7) (h13 : i ≠ 13) :
    tget 0 ((h.waitCycles r).router r).counters i = tget 0 (h.router r).counters i := by
  unfold Hw.waitCycles Hw.draw
  dsimp only
  split <;> simp [Hw.countRouter, tmod, tget_tput_ne _ _ h7, tget_tput_ne _ _ h13] <;> rfl

@[simp] theorem errnSettle_time (h : Hw) : h.errnSettle.time = h.time := rfl
@[simp] theorem errnSettle_ports (h : Hw) : h.errnSettle.ports = h.ports := rfl
@[simp] theorem errnSettle_cxs (h : Hw) : h.errnSettle.cxs = h.cxs := rfl
@[simp] theorem errnSettle_disc (h : Hw) : h.errnSettle.disc = h.disc := rfl
@[simp] theorem errnSettle_lasers (h : Hw) : h.errnSettle.lasers = h.lasers := rfl
@[simp] theorem errnSettle_groups (h : Hw) : h.errnSettle.groups = h.groups := rfl
@[simp] theorem errnSettle_progs (h : Hw) : h.errnSettle.progs = h.progs := rfl
@[simp] theorem errnSettle_mem (h : Hw) : h.errnSettle.mem = h.mem := rfl
@[simp] theorem errnSettle_jobs (h : Hw) : h.errnSettle.jobs = h.jobs := rfl
@[simp] theorem errnSettle_power (h : Hw) : h.errnSettle.power = h.power := rfl
@[simp] theorem errnSettle_records (h : Hw) : h.errnSettle.records = h.records := rfl
@[simp] theorem errnSettle_pins (h : Hw) : h.errnSettle.pins = h.pins := rfl
@[simp] theorem errnSettle_latch (h : Hw) : h.errnSettle.latch = h.latch := rfl
@[simp] theorem errnSettle_fresh (h : Hw) : h.errnSettle.fresh = h.fresh := rfl

@[simp] theorem enterSafe_time (h : Hw) (s : Nat) : (h.enterSafe s).time = h.time := by unfold Hw.enterSafe; split <;> rfl
@[simp] theorem enterSafe_ports (h : Hw) (s : Nat) : (h.enterSafe s).ports = h.ports := by unfold Hw.enterSafe; split <;> rfl
@[simp] theorem enterSafe_cxs (h : Hw) (s : Nat) : (h.enterSafe s).cxs = h.cxs := by unfold Hw.enterSafe; split <;> rfl
@[simp] theorem enterSafe_disc (h : Hw) (s : Nat) : (h.enterSafe s).disc = h.disc := by unfold Hw.enterSafe; split <;> rfl
@[simp] theorem enterSafe_lasers (h : Hw) (s : Nat) : (h.enterSafe s).lasers = h.lasers := by unfold Hw.enterSafe; split <;> rfl
@[simp] theorem enterSafe_groups (h : Hw) (s : Nat) : (h.enterSafe s).groups = h.groups := by unfold Hw.enterSafe; split <;> rfl
@[simp] theorem enterSafe_progs (h : Hw) (s : Nat) : (h.enterSafe s).progs = h.progs := by unfold Hw.enterSafe; split <;> rfl
@[simp] theorem enterSafe_mem (h : Hw) (s : Nat) : (h.enterSafe s).mem = h.mem := by unfold Hw.enterSafe; split <;> rfl
@[simp] theorem enterSafe_jobs (h : Hw) (s : Nat) : (h.enterSafe s).jobs = h.jobs := by unfold Hw.enterSafe; split <;> rfl
@[simp] theorem enterSafe_power (h : Hw) (s : Nat) : (h.enterSafe s).power = h.power := by unfold Hw.enterSafe; split <;> rfl
@[simp] theorem enterSafe_pins (h : Hw) (s : Nat) : (h.enterSafe s).pins = h.pins := by unfold Hw.enterSafe; split <;> rfl
@[simp] theorem enterSafe_latch (h : Hw) (s : Nat) : (h.enterSafe s).latch = h.latch := by unfold Hw.enterSafe; split <;> rfl
@[simp] theorem enterSafe_fresh (h : Hw) (s : Nat) : (h.enterSafe s).fresh = h.fresh := by unfold Hw.enterSafe; split <;> rfl
@[simp] theorem enterSafe_records (h : Hw) (s : Nat) : (h.enterSafe s).records = h.records := by unfold Hw.enterSafe; split <;> rfl

@[simp] theorem report_time (h : Hw) (s cls unit action : Nat) (data : List Word) (forced notify : Bool) :
    (h.report s cls unit action data forced notify).time = h.time := by
  unfold Hw.report
  dsimp only
  split
  · rfl
  · split <;> simp [Hw.modFaults]
@[simp] theorem report_ports (h : Hw) (s cls unit action : Nat) (data : List Word) (forced notify : Bool) :
    (h.report s cls unit action data forced notify).ports = h.ports := by
  unfold Hw.report
  dsimp only
  split
  · rfl
  · split <;> simp [Hw.modFaults]
@[simp] theorem report_cxs (h : Hw) (s cls unit action : Nat) (data : List Word) (forced notify : Bool) :
    (h.report s cls unit action data forced notify).cxs = h.cxs := by
  unfold Hw.report
  dsimp only
  split
  · rfl
  · split <;> simp [Hw.modFaults]
@[simp] theorem report_disc (h : Hw) (s cls unit action : Nat) (data : List Word) (forced notify : Bool) :
    (h.report s cls unit action data forced notify).disc = h.disc := by
  unfold Hw.report
  dsimp only
  split
  · rfl
  · split <;> simp [Hw.modFaults]
@[simp] theorem report_lasers (h : Hw) (s cls unit action : Nat) (data : List Word) (forced notify : Bool) :
    (h.report s cls unit action data forced notify).lasers = h.lasers := by
  unfold Hw.report
  dsimp only
  split
  · rfl
  · split <;> simp [Hw.modFaults]
@[simp] theorem report_groups (h : Hw) (s cls unit action : Nat) (data : List Word) (forced notify : Bool) :
    (h.report s cls unit action data forced notify).groups = h.groups := by
  unfold Hw.report
  dsimp only
  split
  · rfl
  · split <;> simp [Hw.modFaults]
@[simp] theorem report_progs (h : Hw) (s cls unit action : Nat) (data : List Word) (forced notify : Bool) :
    (h.report s cls unit action data forced notify).progs = h.progs := by
  unfold Hw.report
  dsimp only
  split
  · rfl
  · split <;> simp [Hw.modFaults]
@[simp] theorem report_mem (h : Hw) (s cls unit action : Nat) (data : List Word) (forced notify : Bool) :
    (h.report s cls unit action data forced notify).mem = h.mem := by
  unfold Hw.report
  dsimp only
  split
  · rfl
  · split <;> simp [Hw.modFaults]
@[simp] theorem report_jobs (h : Hw) (s cls unit action : Nat) (data : List Word) (forced notify : Bool) :
    (h.report s cls unit action data forced notify).jobs = h.jobs := by
  unfold Hw.report
  dsimp only
  split
  · rfl
  · split <;> simp [Hw.modFaults]
@[simp] theorem report_power (h : Hw) (s cls unit action : Nat) (data : List Word) (forced notify : Bool) :
    (h.report s cls unit action data forced notify).power = h.power := by
  unfold Hw.report
  dsimp only
  split
  · rfl
  · split <;> simp [Hw.modFaults]
@[simp] theorem report_pins (h : Hw) (s cls unit action : Nat) (data : List Word) (forced notify : Bool) :
    (h.report s cls unit action data forced notify).pins = h.pins := by
  unfold Hw.report
  dsimp only
  split
  · rfl
  · split <;> simp [Hw.modFaults]
@[simp] theorem report_latch (h : Hw) (s cls unit action : Nat) (data : List Word) (forced notify : Bool) :
    (h.report s cls unit action data forced notify).latch = h.latch := by
  unfold Hw.report
  dsimp only
  split
  · rfl
  · split <;> simp [Hw.modFaults]
@[simp] theorem report_fresh (h : Hw) (s cls unit action : Nat) (data : List Word) (forced notify : Bool) :
    (h.report s cls unit action data forced notify).fresh = h.fresh := by
  unfold Hw.report
  dsimp only
  split
  · rfl
  · split <;> simp [Hw.modFaults]
@[simp] theorem report_records (h : Hw) (s cls unit action : Nat) (data : List Word) (forced notify : Bool) :
    (h.report s cls unit action data forced notify).records = h.records := by
  unfold Hw.report
  dsimp only
  split
  · rfl
  · split <;> simp [Hw.modFaults]

end Sys2Proof.Machine
end

