-- ==== Sys2Proof/Tests/Slice0.lean ====
section
/-!
SUPPORT. Tests and witnesses. Every expected value stands in the manual or is worked out from it by hand; a theorem named witness_… shows a state and operands that meet the hypotheses of a statement together, clause by clause.
-/

namespace Sys2Proof.Tests
set_option Elab.async false
open Sys2Proof Sys2Proof.Machine

/-! ### Reading an outcome -/

/-- What a reader finds in the next state of a command; nothing on a fault or a refusal. -/
def after {α : Type} (o : Out) (f : Hw → α) : Option α :=
  match o with
  | .next s => some (f s.hw)
  | _ => none

/-- A part as a state with no command waiting. -/
def st (h : Hw) : State := { State.reset with hw := h }

/-- The part after reset. -/
def hw0 : Hw := State.reset.hw

/-! ### The commands' own bounds -/

theorem test_wf_port : (Instr.packetSelect 263).wf = true ∧ (Instr.packetSelect 264).wf = false := by decide
theorem test_wf_channel : (Instr.commit 15).wf = true ∧ (Instr.commit 16).wf = false := by decide
theorem test_wf_complex : (Instr.localHandoff 143).wf = true ∧ (Instr.localHandoff 144).wf = false := by decide
theorem test_wf_thread : (Instr.add 20735).wf = true ∧ (Instr.add 20736).wf = false := by decide
theorem test_wf_group : (Instr.ringPartialLost 8191 0).wf = true ∧ (Instr.ringPartialLost 8192 0).wf = false := by decide
theorem test_unit_missing : exec (.packetSelect 264) State.reset = .fault (.noSuchUnit 264) := rfl
theorem test_idle : step State.reset = .next State.reset := rfl

/-! ### A thread on one word of code -/

/-- The image of one word of code, of contribution hooks with room for cycles. -/
def image (w : Word) : Image :=
  { base := 0, code := [w], params := [], progId := 1, entries := [0, 0, 0, 0], reduce := true, ring := false, gang := false, maxThreads := 1,
    stateBytes := 4096, slotWidth := 4, contribFixed := 4096, contribPer := 0, chunkFixed := 4096, chunkPer := 0, tickCycles := 4096, ringCycles := 4096, stateFormat := 0 }

/-- A group of job 7 with 256 FP32 elements in one chunk. -/
def groupCfg : GroupCfg :=
  { image := List.replicate 24 0, job := 7, gather := false, prio := 0, spill := false, echoKeep := false, patience := 4, depth := 1, arith := {}, size := 0,
    chunks := 1, shard := 0, perTick := 1, hold := 0, sheaf := 0, homeMask := 1, members := [{ rank := 0, contrib := true }, { rank := 1, contrib := true }] }

def group : Group := { cfg := groupCfg, mask := [true, true] }

/-- Scalars s3 = 64, s4 = 8; window 1 is 4,096 bytes of state, to read and to write. -/
def thread : Thread :=
  { inv := 0, gang := 0, s := (List.replicate 32 (0 : Dword)).set 3 64 |>.set 4 8,
    w := (List.replicate 8 ({} : Win)).set 1 { kind := 3, rd := true, wr := true, len := 4096, under := 4 } }

def att (w : Word) : Att := { grp := 1, ring := false, handle := 0, image := image w, params := [] }
def inv : Inv :=
  { att := 0, cx := 3, ev := { hook := 0, gen := 0 }, start := 0, counted := 0, contrib := [], result := [], resPtr := none, threads := [0], running := [0] }

/-- The part with thread 0 on a word. -/
def onWord (w : Word) (th : Thread) : Hw :=
  { groups := [(1, group)], progs := { atts := [(0, att w)], invs := [(0, inv)], threads := [(0, th)] } }

def ctxOf (w : Word) (th : Thread) : Ctx :=
  { t := 0, w := wnat [w] 0, th := th, v := inv, a := att w, x := group, n := none, ch := none }

/-! Words written out field by field as Table 12.2 lays them out, each with the MAJOR and the FUNC that Tables 12.3 to 12.12 give it. -/

def scalarWords : List (Word × Nat × Nat) :=
  [(0b000001_00010_00011_00100_00000000000, 0x01, 0x00),
   (0b000001_00010_00011_00100_00000000001, 0x01, 0x01),
   (0b000001_00010_00011_00100_00000000010, 0x01, 0x02),
   (0b000001_00010_00011_00100_00000000011, 0x01, 0x03),
   (0b000001_00010_00011_00100_00000000100, 0x01, 0x04),
   (0b000001_00010_00011_00100_00000000101, 0x01, 0x05),
   (0b000001_00010_00011_00100_00000000110, 0x01, 0x06),
   (0b000001_00010_00011_00100_00000000111, 0x01, 0x07),
   (0b000001_00010_00011_00100_00000001000, 0x01, 0x08),
   (0b000001_00010_00011_00100_00000001001, 0x01, 0x09),
   (0b000001_00010_00011_00100_00000001010, 0x01, 0x0A),
   (0b000001_00010_00011_00100_00000001011, 0x01, 0x0B),
   (0b000001_00010_00011_00100_00000001100, 0x01, 0x0C),
   (0b000001_00010_00011_00100_00000001101, 0x01, 0x0D),
   (0b000001_00010_00011_00100_00000010000, 0x01, 0x10),
   (0b000001_00010_00011_00100_00000010001, 0x01, 0x11),
   (0b000001_00010_00011_00100_00000010010, 0x01, 0x12),
   (0b000001_00010_00011_00100_00000010100, 0x01, 0x14),
   (0b000001_00010_00011_00100_00000010101, 0x01, 0x15),
   (0b000001_00010_00011_00100_00000010110, 0x01, 0x16),
   (0b000001_00010_00011_00100_00000010111, 0x01, 0x17),
   (0b000001_00010_00011_00000_00000011000, 0x01, 0x18),
   (0b000001_00010_00011_00000_00000011001, 0x01, 0x19),
   (0b000010_00010_00011_1000000000000001, 0x02, 0x00),
   (0b000011_00010_00011_1000000000000001, 0x03, 0x00),
   (0b000100_00010_00011_1000000000000001, 0x04, 0x00),
   (0b000101_00010_00011_1000000000000001, 0x05, 0x00),
   (0b000110_00010_00011_1000000000000001, 0x06, 0x00),
   (0b000111_00010_00011_1000000000000001, 0x07, 0x00),
   (0b001000_00010_00011_0000000011000001, 0x08, 0x00),
   (0b001001_00010_00000_1000000000000001, 0x09, 0x00),
   (0b001010_00010_00011_00100_00000000000, 0x0A, 0x00),
   (0b001010_00010_00011_00100_00000000001, 0x0A, 0x01),
   (0b001010_00010_00011_00100_00000000010, 0x0A, 0x02),
   (0b001010_00010_00011_00100_00000000011, 0x0A, 0x03),
   (0b001010_00010_00011_00100_00000000101, 0x0A, 0x05),
   (0b001010_00010_00011_00100_00000000110, 0x0A, 0x06),
   (0b001010_00010_00011_00100_00000001000, 0x0A, 0x08),
   (0b001010_00010_00011_00100_00000001001, 0x0A, 0x09),
   (0b001010_00010_00011_00100_00000001010, 0x0A, 0x0A),
   (0b001010_00010_00011_00000_00000000100, 0x0A, 0x04),
   (0b001010_00010_00011_00000_00000001100, 0x0A, 0x0C),
   (0b001010_00010_00011_00000_00000001101, 0x0A, 0x0D),
   (0b001100_00010_00011_001_10_0_0000000000, 0x0C, 0x00),
   (0b001101_00010_00011_001_10_0_0000000000, 0x0D, 0x00),
   (0b001110_0010_0_00011_001_000_0000000000, 0x0E, 0x00),
   (0b001111_0010_0_00011_001_000_0000000000, 0x0F, 0x00),
   (0b010000_00010_00011_00100_001_0_010_0000, 0x10, 0x00),
   (0b010001_010_001_00011_00100_1_0_0000_0000, 0x11, 0x00),
   (0b010001_000_001_00011_00000_0_0_0000_0001, 0x11, 0x01)]

def vectorWords : List (Word × Nat × Nat) :=
  [(0b010100_0001_0010_0011_000_101_00000000, 0x14, 0x00),
   (0b010100_0001_0010_0011_000_101_00000001, 0x14, 0x01),
   (0b010100_0001_0010_0011_000_101_00000010, 0x14, 0x02),
   (0b010100_0001_0010_0011_000_000_00000011, 0x14, 0x03),
   (0b010100_0001_0010_0011_000_000_00000100, 0x14, 0x04),
   (0b010100_0001_0010_0011_000_101_00000110, 0x14, 0x06),
   (0b010100_0001_0010_0011_000_101_00000111, 0x14, 0x07),
   (0b010100_0001_0010_0011_000_101_00010000, 0x14, 0x10),
   (0b010100_0001_0010_0011_000_101_00010001, 0x14, 0x11),
   (0b010100_0001_0010_0011_000_101_00010010, 0x14, 0x12),
   (0b010100_0001_0010_0011_000_101_00010011, 0x14, 0x13),
   (0b010100_0001_0010_0011_000_101_00010100, 0x14, 0x14),
   (0b010100_0001_0010_0011_000_101_00010101, 0x14, 0x15),
   (0b010100_0001_0010_0011_000_101_00010110, 0x14, 0x16),
   (0b010100_0001_0010_0011_000_101_00010111, 0x14, 0x17),
   (0b010100_0001_0010_0011_000_101_00011001, 0x14, 0x19),
   (0b010100_0001_0010_0000_000_000_00000101, 0x14, 0x05),
   (0b010100_0001_0010_0000_000_101_00001000, 0x14, 0x08),
   (0b010100_0001_0010_0000_000_101_00001001, 0x14, 0x09),
   (0b010100_0001_0010_0000_000_101_00011000, 0x14, 0x18),
   (0b010101_001_0_0010_0011_000_101_0010_0000, 0x15, 0x00),
   (0b010110_0010_00011_00000_000_101_000_000, 0x16, 0x00),
   (0b010110_0010_00011_00100_000_101_001_000, 0x16, 0x01),
   (0b010110_0010_00011_00100_000_101_010_000, 0x16, 0x02),
   (0b010110_0010_00011_00000_000_101_011_000, 0x16, 0x03),
   (0b010110_0010_00011_00000_000_101_100_000, 0x16, 0x04),
   (0b010110_0010_00011_00000_000_000_101_000, 0x16, 0x05),
   (0b010111_001_010_011_00000_00000000_0000, 0x17, 0x00),
   (0b010111_001_010_011_00000_00000000_0001, 0x17, 0x01),
   (0b010111_001_010_011_00000_00000000_0010, 0x17, 0x02),
   (0b010111_001_010_011_00000_00000000_0011, 0x17, 0x03),
   (0b010111_001_010_000_00000_00000000_0100, 0x17, 0x04),
   (0b010111_001_000_000_00011_00000000_0101, 0x17, 0x05),
   (0b010111_000_010_000_00011_00000000_0110, 0x17, 0x06),
   (0b010111_001_000_000_00011_00000000_0111, 0x17, 0x07),
   (0b011000_0001_0010_00011_0000_0111_000_0_0, 0x18, 0x00),
   (0b011001_0001_0010_00011_0101_0_00000000, 0x19, 0x00),
   (0b011010_0010_0001_00011_0101_0_00000000, 0x1A, 0x00)]

def streamWords : List (Word × Nat × Nat) :=
  [(0b100000_00010_00011_00100_001_001_0000_0, 0x20, 0x00),
   (0b100001_00010_00011_00100_001_001_0010_0, 0x21, 0x00),
   (0b100010_00010_00011_00100_001_001_0000_0, 0x22, 0x00),
   (0b100011_00010_00011_00100_001_001_1101_0, 0x23, 0x00),
   (0b100100_00010_00011_00100_001_001_0000_0, 0x24, 0x00),
   (0b100101_00010_00011_00100_001_001_0000_0, 0x25, 0x00),
   (0b100110_00010_00011_00100_001_001_0000_0, 0x26, 0x00),
   (0b101000_00010_00011_00100_001_0000_0000, 0x28, 0x00),
   (0b101000_00010_00000_00000_000_0000_0001, 0x28, 0x01),
   (0b101000_00000_00011_00000_001_0000_0010, 0x28, 0x02),
   (0b101001_00000_00000_00000000_00000000, 0x29, 0x00),
   (0b101001_00000_00000_00000000_00000001, 0x29, 0x01),
   (0b101010_00000_00000_00000000_00000000, 0x2A, 0x00),
   (0b101010_00000_00000_00000000_00000001, 0x2A, 0x01),
   (0b101010_00000_00000_00000000_00000010, 0x2A, 0x02),
   (0b101010_00000_00011_00000000_00000011, 0x2A, 0x03),
   (0b101010_00010_00000_00000111_00000100, 0x2A, 0x04),
   (0b110000_00010_00011_1111111111111110, 0x30, 0x00),
   (0b110001_00010_00011_1111111111111110, 0x31, 0x00),
   (0b110010_00010_00011_1111111111111110, 0x32, 0x00),
   (0b110011_00010_00011_1111111111111110, 0x33, 0x00),
   (0b110100_00010_00011_1111111111111110, 0x34, 0x00),
   (0b110101_00010_00011_1111111111111110, 0x35, 0x00),
   (0b110110_00010_111111111111111111110, 0x36, 0x00),
   (0b110111_00010_00011_00000_00000000000, 0x37, 0x00)]

theorem test_scalar_words : ∀ e ∈ scalarWords, opKey (wnat [e.1] 0) = some (2048 * e.2.1 + e.2.2) := by decide
theorem test_vector_words : ∀ e ∈ vectorWords, opKey (wnat [e.1] 0) = some (2048 * e.2.1 + e.2.2) := by decide
theorem test_stream_words : ∀ e ∈ streamWords, opKey (wnat [e.1] 0) = some (2048 * e.2.1 + e.2.2) := by decide

theorem affords_any (w : Word) (th : Thread) (h : th.busy = 0) (n : Nat) (hn : n ≤ 1024) : (ctxOf w th).Affords n := by
  have : (ctxOf w th).declared = 4096 := by simp [Ctx.declared, ctxOf, inv, att, image, Image.contribCycles, cdiv]
  simp only [Ctx.Affords, this]
  show (th.busy + n) * 1 ≤ _
  rw [h]; show _ ≤ 4 * 4096 + 1024 * 1; omega

/-- Every instruction has a state in which it runs and is inside its limit. -/
theorem witness_instructions : ∀ e ∈ scalarWords ++ vectorWords ++ streamWords,
    (onWord e.1 thread).Runs 0 e.2.1 e.2.2 (ctxOf e.1 thread) ∧ (ctxOf e.1 thread).Affords 64 := by
  intro e he
  refine ⟨⟨rfl, ?_⟩, affords_any _ _ rfl _ (by decide)⟩
  rcases List.mem_append.mp he with h | h
  · rcases List.mem_append.mp h with h | h
    · exact test_scalar_words e h
    · exact test_vector_words e h
  · exact test_stream_words e h

/-! ### Clauses of the statements about instructions -/

/-- Thread 0 with a scalar register changed. -/
def withS (r : Nat) (v : Dword) : Thread := { thread with s := thread.s.set r v }

theorem runs_word {w : Word} {th : Thread} {maj fn : Nat} (hp : th.pc = 0) (hi : th.inv = 0) (hs : th.state = .running)
    (h : opKey (wnat [w] 0) = some (2048 * maj + fn)) : (onWord w th).Runs 0 maj fn (ctxOf w th) := by
  cases th
  simp only at hp hi hs
  subst hp hi hs
  exact ⟨rfl, h⟩

/-- The divisor s4 is 8. -/
theorem witness_division : let c := ctxOf 0b000001_00010_00011_00100_00000010100 thread
    (onWord 0b000001_00010_00011_00100_00000010100 thread).Runs 0 0x01 0x14 c ∧ c.th.reg (c.fld 15 11) ≠ 0 :=
  ⟨runs_word rfl rfl rfl (by decide), by decide⟩

/-- The divisor s4 is 0. -/
theorem witness_division_zero : let c := ctxOf 0b000001_00010_00011_00100_00000010110 (withS 4 0)
    (onWord 0b000001_00010_00011_00100_00000010110 (withS 4 0)).Runs 0 0x01 0x16 c ∧ c.th.reg (c.fld 15 11) = 0 :=
  ⟨runs_word rfl rfl rfl (by decide), by decide⟩

/-- Window 1 grants the four bytes at s3 = 64. -/
theorem witness_load : let c := ctxOf 0b001100_00010_00011_001_10_0_0000000000 thread
    (onWord 0b001100_00010_00011_001_10_0_0000000000 thread).Runs 0 0x0C 0x00 c ∧ c.th.Grants (c.fld 15 13) true false 64 4 4 :=
  ⟨runs_word rfl rfl rfl (by decide), by unfold Thread.Grants; decide⟩

/-- The last four bytes of window 1. -/
theorem witness_store_at_end : let c := ctxOf 0b001101_00010_00011_001_10_0_0000000000 (withS 3 4092)
    (onWord 0b001101_00010_00011_001_10_0_0000000000 (withS 3 4092)).Runs 0 0x0D 0x00 c ∧ c.th.Grants (c.fld 15 13) false true 4092 4 4 :=
  ⟨runs_word rfl rfl rfl (by decide), by unfold Thread.Grants; decide⟩

/-- Window 1 grants the 64 bytes at 64. -/
theorem witness_vector_load : let c := ctxOf 0b001110_0010_0_00011_001_000_0000000000 thread
    (onWord 0b001110_0010_0_00011_001_000_0000000000 thread).Runs 0 0x0E 0x00 c ∧ c.th.Grants (c.fld 15 13) true false 64 64 64 :=
  ⟨runs_word rfl rfl rfl (by decide), by unfold Thread.Grants; decide⟩

/-- The last 64 bytes of window 1. -/
theorem witness_vector_store_at_end : let c := ctxOf 0b001111_0010_0_00011_001_000_0000000000 (withS 3 4032)
    (onWord 0b001111_0010_0_00011_001_000_0000000000 (withS 3 4032)).Runs 0 0x0F 0x00 c ∧ c.th.Grants (c.fld 15 13) false true 4032 64 64 :=
  ⟨runs_word rfl rfl rfl (by decide), by unfold Thread.Grants; decide⟩

/-- Window 2 is absent. -/
theorem witness_no_right : let c := ctxOf 0b001100_00010_00011_010_10_0_0000000000 thread
    (onWord 0b001100_00010_00011_010_10_0_0000000000 thread).Runs 0 0x0C 0x00 c ∧ ¬ ((c.th.win (c.fld 15 13)).kind ≠ 0 ∧ (c.th.win (c.fld 15 13)).rd = true) :=
  ⟨runs_word rfl rfl rfl (by decide), by decide⟩

/-- One byte past the window. -/
theorem witness_out_of_bounds : let c := ctxOf 0b001101_00010_00011_001_10_0_0000000000 (withS 3 4096)
    (onWord 0b001101_00010_00011_001_10_0_0000000000 (withS 3 4096)).Runs 0 0x0D 0x00 c ∧ ((c.th.win (c.fld 15 13)).kind ≠ 0 ∧ (c.th.win (c.fld 15 13)).wr = true ∧ (c.th.win (c.fld 15 13)).len < 4096 + 4) :=
  ⟨runs_word rfl rfl rfl (by decide), by decide⟩

/-- Byte 66 for a word. -/
theorem witness_misaligned : let c := ctxOf 0b001100_00010_00011_001_10_0_0000000000 (withS 3 66)
    (onWord 0b001100_00010_00011_001_10_0_0000000000 (withS 3 66)).Runs 0 0x0C 0x00 c ∧ ((c.th.win (c.fld 15 13)).kind ≠ 0 ∧ (c.th.win (c.fld 15 13)).rd = true ∧ 66 + 4 ≤ (c.th.win (c.fld 15 13)).len ∧ 66 % 4 ≠ 0) :=
  ⟨runs_word rfl rfl rfl (by decide), by decide⟩

/-- Eight bytes at 64 of window 1. -/
theorem witness_narrow : let c := ctxOf 0b010001_010_001_00011_00100_1_0_0000_0000 thread
    (onWord 0b010001_010_001_00011_00100_1_0_0000_0000 thread).Runs 0 0x11 0x00 c ∧ ((c.th.win (c.fld 22 20)).rd = true ∧ c.th.sr (c.fld 19 15) + c.th.sr (c.fld 14 10) ≤ (c.th.win (c.fld 22 20)).len ∧ c.th.sr (c.fld 19 15) % 4 = 0) :=
  ⟨runs_word rfl rfl rfl (by decide), by decide⟩

/-- A window of no bytes. -/
theorem witness_narrow_nothing : let c := ctxOf 0b010001_010_001_00011_00100_1_0_0000_0000 (withS 4 0)
    (onWord 0b010001_010_001_00011_00100_1_0_0000_0000 (withS 4 0)).Runs 0 0x11 0x00 c ∧ (c.th.sr (c.fld 14 10) = 0 ∧ c.th.sr (c.fld 19 15) + c.th.sr (c.fld 14 10) ≤ (c.th.win (c.fld 22 20)).len) :=
  ⟨runs_word rfl rfl rfl (by decide), by decide⟩

/-- The word at 64 of window 1, to read and to write. -/
theorem witness_atom : let c := ctxOf 0b010000_00010_00011_00100_001_0_010_0000 thread
    (onWord 0b010000_00010_00011_00100_001_0_010_0000 thread).Runs 0 0x10 0x00 c ∧ c.th.Grants (c.fld 10 8) true true (c.th.sr (c.fld 20 16)) 4 4 :=
  ⟨runs_word rfl rfl rfl (by decide), by unfold Thread.Grants; decide⟩

/-- The word of zeros encodes nothing; a PC of 1 lies beyond a code of one word. -/
theorem witness_fetch : opKey (ctxOf 0 thread).w = none ∧ (onWord 0 thread).ctx 0 = some (ctxOf 0 thread, true) ∧
    (onWord 0 { thread with pc := 1 }).ctx 0 = some ({ ctxOf 0 { thread with pc := 1 } with w := wnat [0] 1 }, false) := ⟨by decide, rfl, rfl⟩

/-- Lane 15 of sixteen. -/
theorem witness_lane_inside : let c := ctxOf 0b010110_0010_00011_00100_000_101_001_000 (withS 4 15)
    (onWord 0b010110_0010_00011_00100_000_101_001_000 (withS 4 15)).Runs 0 0x16 0x01 c ∧ c.th.sr (c.fld 16 12) < laneCount (c.fld 8 6) :=
  ⟨runs_word rfl rfl rfl (by decide), by decide⟩

/-- Lane 16 of sixteen. -/
theorem witness_lane_outside : let c := ctxOf 0b010110_0010_00011_00100_000_101_010_000 (withS 4 16)
    (onWord 0b010110_0010_00011_00100_000_101_010_000 (withS 4 16)).Runs 0 0x16 0x02 c ∧ laneCount (c.fld 8 6) ≤ c.th.sr (c.fld 16 12) :=
  ⟨runs_word rfl rfl rfl (by decide), by decide⟩

/-- Every lane active, INT32. -/
theorem witness_reduce_some : let c := ctxOf 0b010110_0010_00011_00000_000_101_100_000 thread
    (onWord 0b010110_0010_00011_00000_000_101_100_000 thread).Runs 0 0x16 0x04 c ∧ (3 ≤ c.fld 8 6 ∧ (List.range (laneCount (c.fld 8 6))).filter (fun k => c.th.active (c.fld 11 9) (laneBits (c.fld 8 6)) k) ≠ []) :=
  ⟨runs_word rfl rfl rfl (by decide), by decide⟩

/-- p1 is zero: no lane active, INT32. -/
theorem witness_reduce_none : let c := ctxOf 0b010110_0010_00011_00000_001_101_100_000 thread
    (onWord 0b010110_0010_00011_00000_001_101_100_000 thread).Runs 0 0x16 0x04 c ∧ (3 ≤ c.fld 8 6 ∧ (List.range (laneCount (c.fld 8 6))).filter (fun k => c.th.active (c.fld 11 9) (laneBits (c.fld 8 6)) k) = []) :=
  ⟨runs_word rfl rfl rfl (by decide), by decide⟩

/-- Every lane active, FP32. -/
theorem witness_reduce_float : let c := ctxOf 0b010110_0010_00011_00000_000_000_101_000 thread
    (onWord 0b010110_0010_00011_00000_000_000_101_000 thread).Runs 0 0x16 0x05 c ∧ (c.fld 8 6 ≤ 2 ∧ (List.range (laneCount (c.fld 8 6))).filter (fun k => c.th.active (c.fld 11 9) (laneBits (c.fld 8 6)) k) = 0 :: (List.range 15).map (· + 1)) :=
  ⟨runs_word rfl rfl rfl (by decide), by decide⟩

/-- p1 is zero: no lane active, FP32. -/
theorem witness_reduce_float_none : let c := ctxOf 0b010110_0010_00011_00000_001_000_101_000 thread
    (onWord 0b010110_0010_00011_00000_001_000_101_000 thread).Runs 0 0x16 0x05 c ∧ (c.fld 8 6 ≤ 2 ∧ (List.range (laneCount (c.fld 8 6))).filter (fun k => c.th.active (c.fld 11 9) (laneBits (c.fld 8 6)) k) = []) :=
  ⟨runs_word rfl rfl rfl (by decide), by decide⟩

/-- A sum of FP32 lanes. -/
theorem witness_reduce_sum_float : let c := ctxOf 0b010110_0010_00011_00000_000_000_011_000 thread
    (onWord 0b010110_0010_00011_00000_000_000_011_000 thread).Runs 0 0x16 0x03 c ∧ c.fld 8 6 ≤ 2 :=
  ⟨runs_word rfl rfl rfl (by decide), by decide⟩

/-- A bare source with the exponent −128. -/
theorem witness_convert_exponent : let c := ctxOf 0b011000_0001_0010_00011_0011_0000_000_0_0 (withS 3 128)
    (onWord 0b011000_0001_0010_00011_0011_0000_000_0_0 (withS 3 128)).Runs 0 0x18 0x00 c ∧ ((bareElem (c.fld 12 9) || bareElem (c.fld 8 5)) = true ∧ toSigned 8 (c.th.sr (c.fld 17 13) % 256) = -128) :=
  ⟨runs_word rfl rfl rfl (by decide), by decide⟩

/-- A bare source with the exponent 127. -/
theorem witness_convert_bare : let c := ctxOf 0b011000_0001_0010_00011_0011_0000_000_0_0 (withS 3 127)
    (onWord 0b011000_0001_0010_00011_0011_0000_000_0_0 (withS 3 127)).Runs 0 0x18 0x00 c ∧ ¬ ((bareElem (c.fld 12 9) || bareElem (c.fld 8 5)) = true ∧ toSigned 8 (c.th.sr (c.fld 17 13) % 256) = -128) :=
  ⟨runs_word rfl rfl rfl (by decide), by decide⟩

/-- Eight elements at 64 into the first eight words. -/
theorem witness_acc_l320 : let c := ctxOf 0b100000_00010_00011_00100_001_001_0000_0 thread
    (onWord 0b100000_00010_00011_00100_001_001_0000_0 thread).Runs 0 0x20 0x00 c ∧ (c.sbv % 2 ^ 32 = 8 ∧ c.fmt ≠ 15 ∧ fmtMx c.fmt = false ∧ ((c.th.win c.ws).kind ≠ 0 ∧ (c.th.win c.ws).rd = true ∧ c.sav + 8 * fmtBits c.fmt / 8 ≤ (c.th.win c.ws).len ∧ c.sav % 4 = 0)) ∧ c.th.Grants c.wd true true (c.sdv * 40) (8 * 40) 1 :=
  ⟨runs_word rfl rfl rfl (by decide), by unfold Thread.Grants; decide⟩

/-- Eight elements at 64 into the first eight words. -/
theorem witness_acc_l96 : let c := ctxOf 0b100001_00010_00011_00100_001_001_0010_0 thread
    (onWord 0b100001_00010_00011_00100_001_001_0010_0 thread).Runs 0 0x21 0x00 c ∧ (c.sbv % 2 ^ 32 = 8 ∧ c.fmt ≠ 15 ∧ fmtMx c.fmt = false ∧ ((c.th.win c.ws).kind ≠ 0 ∧ (c.th.win c.ws).rd = true ∧ c.sav + 8 * fmtBits c.fmt / 8 ≤ (c.th.win c.ws).len ∧ c.sav % 4 = 0)) ∧ c.th.Grants c.wd true true (c.sdv * 12) (8 * 12) 1 :=
  ⟨runs_word rfl rfl rfl (by decide), by unfold Thread.Grants; decide⟩

/-- Eight elements at 64 into the first eight words. -/
theorem witness_acc_f32 : let c := ctxOf 0b100010_00010_00011_00100_001_001_0000_0 thread
    (onWord 0b100010_00010_00011_00100_001_001_0000_0 thread).Runs 0 0x22 0x00 c ∧ (c.sbv % 2 ^ 32 = 8 ∧ c.fmt ≠ 15 ∧ fmtMx c.fmt = false ∧ ((c.th.win c.ws).kind ≠ 0 ∧ (c.th.win c.ws).rd = true ∧ c.sav + 8 * fmtBits c.fmt / 8 ≤ (c.th.win c.ws).len ∧ c.sav % 4 = 0)) ∧ c.th.Grants c.wd true true (c.sdv * 4) (8 * 4) 1 :=
  ⟨runs_word rfl rfl rfl (by decide), by unfold Thread.Grants; decide⟩

/-- Eight elements at 64 into the first eight words. -/
theorem witness_acc_i32 : let c := ctxOf 0b100011_00010_00011_00100_001_001_1101_0 thread
    (onWord 0b100011_00010_00011_00100_001_001_1101_0 thread).Runs 0 0x23 0x00 c ∧ (c.sbv % 2 ^ 32 = 8 ∧ c.fmt ≠ 15 ∧ fmtMx c.fmt = false ∧ ((c.th.win c.ws).kind ≠ 0 ∧ (c.th.win c.ws).rd = true ∧ c.sav + 8 * fmtBits c.fmt / 8 ≤ (c.th.win c.ws).len ∧ c.sav % 4 = 0)) ∧ c.th.Grants c.wd true true (c.sdv * 4) (8 * 4) 1 :=
  ⟨runs_word rfl rfl rfl (by decide), by unfold Thread.Grants; decide⟩

/-- An MX source. -/
theorem witness_acc_mx : let c := ctxOf 0b100000_00010_00011_00100_001_001_0101_0 thread
    (onWord 0b100000_00010_00011_00100_001_001_0101_0 thread).Runs 0 0x20 0x00 c ∧ (fmtMx c.fmt = true ∧ c.sdv + c.sbv % 2 ^ 32 ≤ c.x.cfg.elems) ∧ c.th.Grants c.ws true false c.sav (payloadBytes c.fmt c.x.cfg.elems) 4 ∧ c.th.Grants c.wd true true (c.sdv * 40) (8 * 40) 1 :=
  ⟨runs_word rfl rfl rfl (by decide), by unfold Thread.Grants; decide⟩

/-- Accumulator words merged. -/
theorem witness_acc_merge : let c := ctxOf 0b100001_00010_00011_00100_001_001_1111_0 thread
    (onWord 0b100001_00010_00011_00100_001_001_1111_0 thread).Runs 0 0x21 0x00 c ∧ c.fmt = 15 ∧ c.th.Grants c.ws true false c.sav (8 * 12) 4 ∧ c.th.Grants c.wd true true (c.sdv * 12) (8 * 12) 1 :=
  ⟨runs_word rfl rfl rfl (by decide), by unfold Thread.Grants; decide⟩

/-- Eight words from the 64th, results at 0. -/
theorem witness_finish : let c := ctxOf 0b100100_00010_00011_00100_001_001_0000_0 thread
    (onWord 0b100100_00010_00011_00100_001_001_0000_0 thread).Runs 0 0x24 0x00 c ∧ c.sbv % 2 ^ 32 ≠ 0 ∧ c.th.Grants c.ws true false (c.sav * 40) (8 * 40) 1 ∧ c.th.Grants c.wd false true c.sdv (8 * 4) 4 :=
  ⟨runs_word rfl rfl rfl (by decide), by unfold Thread.Grants; decide⟩

/-- Eight bytes from 64 to 0. -/
theorem witness_copy : let c := ctxOf 0b100110_00010_00011_00100_001_001_0000_0 thread
    (onWord 0b100110_00010_00011_00100_001_001_0000_0 thread).Runs 0 0x26 0x00 c ∧ c.sbv % 2 ^ 32 = 8 ∧ c.th.Grants c.ws true false c.sav 8 4 ∧ c.th.Grants c.wd false true c.sdv 8 4 :=
  ⟨runs_word rfl rfl rfl (by decide), by unfold Thread.Grants; decide⟩

/-- Six bytes. -/
theorem witness_copy_misaligned : let c := ctxOf 0b100110_00010_00011_00100_001_001_0000_0 (withS 4 6)
    (onWord 0b100110_00010_00011_00100_001_001_0000_0 (withS 4 6)).Runs 0 0x26 0x00 c ∧ c.sbv % 2 ^ 32 % 4 ≠ 0 ∧ c.th.Grants c.ws true false c.sav 6 1 ∧ c.th.Grants c.wd false true c.sdv 6 1 :=
  ⟨runs_word rfl rfl rfl (by decide), by unfold Thread.Grants; decide⟩

/-- A count whose low word is zero. -/
theorem witness_stream_nothing : let c := ctxOf 0b100010_00010_00011_00100_001_001_0000_0 (withS 4 (2 ^ 32))
    (onWord 0b100010_00010_00011_00100_001_001_0000_0 (withS 4 (2 ^ 32))).Runs 0 0x22 0x00 c ∧ c.sbv % 2 ^ 32 = 0 :=
  ⟨runs_word rfl rfl rfl (by decide), by decide⟩

/-- Eight bytes to address 0; an idle complex has a free shared buffer. -/
theorem witness_send : let c := ctxOf 0b101000_00010_00011_00100_001_0000_0000 thread
    (onWord 0b101000_00010_00011_00100_001_0000_0000 thread).Runs 0 0x28 0x00 c ∧ ((c.sbv = 8 ∧ c.sdv < 128 ∧ c.sdv ∉ hw0.mesh.unmapped) ∧ ((hw0.cx 3).pick 3 8 false).isSome) ∧ c.th.Grants (c.fld 10 8) true false c.sav 8 1 :=
  ⟨runs_word rfl rfl rfl (by decide), by unfold Thread.Grants; decide +kernel⟩

/-- No message waits. -/
theorem witness_receive_none : let c := ctxOf 0b101000_00010_00000_00000_000_0000_0001 thread
    (onWord 0b101000_00010_00000_00000_000_0000_0001 thread).Runs 0 0x28 0x01 c ∧ tget [] c.a.msgs 3 = [] :=
  ⟨runs_word rfl rfl rfl (by decide), by decide⟩

/-- A message of four bytes waits. -/
theorem witness_receive : let a : Att := { att 0b101000_00010_00000_00000_000_0000_0001 with msgs := [(3, [(9, 5, [1, 2, 3, 4])])] }
    let h : Hw := { onWord 0b101000_00010_00000_00000_000_0000_0001 thread with progs := { (onWord 0b101000_00010_00000_00000_000_0000_0001 thread).progs with atts := [(0, a)] } }
    h.Runs 0 0x28 1 { ctxOf 0b101000_00010_00000_00000_000_0000_0001 thread with a := a } ∧ tget [] a.msgs 3 = [(9, 5, [1, 2, 3, 4])] := ⟨⟨rfl, by decide⟩, by decide⟩

/-- A DATA header of job 7 and four bytes lies at byte 64 of the state window. -/
def packetBytes : List Byte := List.replicate 64 0 ++ [0, 64, 0, 4, 0, 112, 0, 0] ++ List.replicate 128 0
def onPacket : Hw :=
  { onWord 0b101000_00000_00011_00000_001_0000_0010 thread with progs := { (onWord 0b101000_00000_00011_00000_001_0000_0010 thread).progs with atts := [(0, { att 0b101000_00000_00011_00000_001_0000_0010 with windows := [(3, packetBytes)] })] } }
def packetCtx : Ctx := { ctxOf 0b101000_00000_00011_00000_001_0000_0010 thread with a := { att 0b101000_00000_00011_00000_001_0000_0010 with windows := [(3, packetBytes)] } }

theorem witness_packet_send : onPacket.Runs 0 0x28 2 packetCtx ∧ packetCtx.th.Grants (packetCtx.fld 10 8) true false packetCtx.sav 64 1 := by
  refine ⟨⟨rfl, by decide⟩, ?_⟩
  unfold Thread.Grants
  decide

theorem witness_packet_good : let hdr := beWords (onPacket.winRead packetCtx (packetCtx.th.win 1) 64 64)
    let pk := mkPkt hdr [0, 0, 0, 0]
    fld hdr 0 15 0 = 4 ∧ pk.job = 7 ∧ pk.ptype = 1 ∧ typeClass pk.ptype = pk.cls ∧ 64 + 64 + 4 ≤ (packetCtx.th.win 1).len := by decide +kernel

/-- A header of zeros has no type that a program may send. -/
theorem witness_packet_bad : (mkPkt (beWords (List.replicate 64 0)) []).ptype = 0 ∧ (onWord 0b101000_00000_00011_00000_001_0000_0010 thread).Runs 0 0x28 2 (ctxOf 0b101000_00000_00011_00000_001_0000_0010 thread) :=
  ⟨by decide, rfl, by decide⟩

/-! ### Results worked out by hand -/

/-- Scalar register r of thread 0 after an instruction. -/
def sAfter (o : Out) (r : Nat) : Option Nat := (after o (fun h => (tget? h.progs.threads 0).map (·.sr r))).join

/-- 2^64 − 1 + 8 wraps to 7. -/
theorem test_add_wraps : sAfter (exec (.add 0) (st (onWord 0b000001_00010_00011_00100_00000000000 (withS 3 (2 ^ 64 - 1))))) 2 = some 7 := by decide +kernel

/-- 64 − 8 = 56. -/
theorem test_sub : sAfter (exec (.sub 0) (st (onWord 0b000001_00010_00011_00100_00000000001 thread))) 2 = some 56 := by decide +kernel

/-- −63 divided by 8 rounds toward zero to −7; the remainder takes the dividend's sign, −7 (R357). -/
theorem test_div_sign : sAfter (exec (.div 0) (st (onWord 0b000001_00010_00011_00100_00000010100 (withS 3 (-63))))) 2 = some (2 ^ 64 - 7) := by decide +kernel
theorem test_rem_sign : sAfter (exec (.rem 0) (st (onWord 0b000001_00010_00011_00100_00000010110 (withS 3 (-63))))) 2 = some (2 ^ 64 - 7) := by decide +kernel

/-- DIV of −2^63 by −1 gives −2^63 (R357). -/
theorem test_div_overflow : sAfter (exec (.div 0) (st (onWord 0b000001_00010_00011_00100_00000010100
    { thread with s := (thread.s.set 3 (2 ^ 63)).set 4 (-1) }))) 2 = some (2 ^ 63) := by decide +kernel

/-- A divisor of zero stops the thread with ARITHMETIC and writes nothing. -/
theorem test_div_zero : after (exec (.div 0) (st (onWord 0b000001_00010_00011_00100_00000010100 (withS 4 0))))
    (fun h => (h.progs.traps.map (·.cause), (tget? h.progs.threads 0).map (fun t => (t.state, t.sr 2)))) = some ([9], some (.stopped, 0)) := by decide +kernel

/-- ADDI sign-extends, ANDI does not. -/
theorem test_addi : sAfter (exec (.addi 0) (st (onWord 0b000010_00010_00011_1111111111111111 thread))) 2 = some 63 := by decide +kernel
theorem test_andi : sAfter (exec (.andi 0) (st (onWord 0b000011_00010_00011_1111111111111111 (withS 3 (-1))))) 2 = some 65535 := by decide +kernel

/-- A write to s0 is discarded. -/
theorem test_write_s0 : sAfter (exec (.add 0) (st (onWord 0b000001_00000_00011_00100_00000000000 thread))) 0 = some 0 := by decide +kernel

/-- 1.0 + 2^−24 is half way and rounds to the even 1.0; 1.0 + 1.0 = 2.0. -/
theorem test_fadd_even : sAfter (exec (.fadd 0) (st (onWord 0b001010_00010_00011_00100_00000000000
    { thread with s := (thread.s.set 3 0x3F800000).set 4 0x33800000 }))) 2 = some 0x3F800000 := by decide +kernel
theorem test_fadd : sAfter (exec (.fadd 0) (st (onWord 0b001010_00010_00011_00100_00000000000
    { thread with s := (thread.s.set 3 0x3F800000).set 4 0x3F800000 }))) 2 = some 0x40000000 := by decide +kernel

/-- 0 / 0 is the canonical NaN; 1 / 0 is infinity. -/
theorem test_fdiv_nan : sAfter (exec (.fdiv 0) (st (onWord 0b001010_00010_00011_00100_00000000011
    { thread with s := (thread.s.set 3 0).set 4 0 }))) 2 = some 0x7FC00000 := by decide +kernel
theorem test_fdiv_inf : sAfter (exec (.fdiv 0) (st (onWord 0b001010_00010_00011_00100_00000000011
    { thread with s := (thread.s.set 3 0x3F800000).set 4 0 }))) 2 = some 0x7F800000 := by decide +kernel

/-- A taken branch goes to its own word plus the offset: 0 − 2 modulo 2^16; JAL links the next word. -/
theorem test_bne : (after (exec (.bne 0) (st (onWord 0b110001_00010_00011_1111111111111110 thread))) (fun h => (tget? h.progs.threads 0).map (·.pc))).join = some 65534 := by decide +kernel
theorem test_jal : sAfter (exec (.jal 0) (st (onWord 0b110110_00010_111111111111111111110 thread))) 2 = some 1 := by decide +kernel

/-! ### The control part -/

/-- A part that runs: its reset is over, its firmware serves every channel, and the host reaches it. -/
def hwRun : Hw :=
  { ctl := { phase := .running, linkUp := true, memEn := true, masterEn := true, chans := (List.range 16).map (fun c => (c, { enabled := true })) },
    pins := { resetLow := false } }

/-- A request by its opcode, payload and target tick. -/
def req (op : Nat) (p : List Word) (target : Nat := 0) : Request := { words := [w32 op, w32 (4 * p.length), w32 target, 0] ++ p }

/-- A part whose channel c has taken a request into execution. -/
def asking (c : Nat) (r : Request) : Hw := hwRun.modChan c (fun x => { x with busy := true, cur := some r })

theorem asks (c op : Nat) (r : Request) (hw : r.waiting = true) (hl : r.latched = false) (ho : r.opcode = op) : (asking c r).Asks c op r :=
  ⟨rfl, by rw [asking, chan_modChan], hw, hl, ho⟩

/-- Every command of a channel is asked for in some state, on a host channel and on a channel of the management controller. -/
theorem witness_asks : ∀ op ∈ [0x0001, 0x0002, 0x0003, 0x0004, 0x0101, 0x0302, 0x0503, 0x0803, 0x0C02, 0x0E07], ∀ c ∈ [0, 15],
    (asking c (req op [0, 0])).Asks c op (req op [0, 0]) := by
  intro op ho c _
  exact asks c op _ rfl rfl (by fin_cases ho <;> decide)

/-- An idle, enabled channel with GET_VERSION in its buffer passes the envelope checks; with an unknown opcode it does not. -/
def ringing (op : Nat) : Hw := hwRun.modChan 11 (fun x => { x with req := [(0, w32 op)] })
theorem witness_doorbell : (ringing 1).accessible = true ∧ (1 : Word).getLsbD 0 = true ∧ ((ringing 1).chan 11).busy = false ∧ ((ringing 1).chan 11).enabled = true ∧
    (ringing 1).ctl.phase ≠ .handover ∧ (ringing 1).faults.mpLost = false ∧ ((ringing 1).chan 11).resp = [] ∧
    envelopeFail {} ((ringing 1).modChan 11 (fun y => { y with busy := true })) 11 (req 1 []) = none := by decide +kernel
theorem witness_doorbell_unknown : envelopeFail {} ((ringing 0x7777).modChan 11 (fun y => { y with busy := true })) 11 (req 0x7777 []) = some (stUnknown, 0) := by
  decide +kernel
theorem witness_doorbell_latched : ((ringing 1).modCtl (fun k => { k with phase := .handover })).ctl.phase = .handover ∧ (((ringing 1).modCtl (fun k => { k with phase := .handover })).chan 12).busy = false := by
  decide +kernel
theorem witness_doorbell_ignored : (asking 0 (req 1 [])).accessible = true ∧ ((asking 0 (req 1 [])).chan 0).busy = true ∧ (hw0.chan 0).enabled = false := by decide +kernel

/-- Ringing a host channel sets BUSY and clears RESPONSE_READY; a ring of a management channel only sets DOORBELL_IGNORED (R44). -/
theorem test_doorbell : after (exec (.doorbellRing 11 1) (st (ringing 1))) (fun h => ((h.chan 11).busy, (h.chan 11).ready, (h.chan 11).dbIgnored)) =
    some (true, false, false) := by decide +kernel
theorem test_doorbell_mc : after (exec (.doorbellRing 12 1) (st hwRun)) (fun h => ((h.chan 12).busy, (h.chan 12).dbIgnored)) = some (false, true) := by decide +kernel

theorem witness_request_write : hwRun.accessible = true ∧ (hwRun.chan 11).busy = false ∧ 4092 % 4 = 0 ∧ ((asking 0 (req 1 [])).chan 0).busy = true := by decide +kernel

/-- The last byte of the bulk window, which no request locks; a request that names it locks it. -/
theorem witness_bulk : (2 ^ 24 - 1) + [(1 : Byte)].length ≤ 16 * 2 ^ 20 ∧ hwRun.lockedFor 16 (2 ^ 24 - 1) 1 = false ∧ memWf 0 hwRun.ctl.bulk = true ∧
    (asking 0 { req 0x0202 [] with lockOff := 2 ^ 24 - 4, lockLen := 4 }).lockedFor 16 (2 ^ 24 - 1) 1 = true := by decide +kernel

theorem witness_perst : (hwRun.modCtl (fun k => { k with perstLow := true })).ctl.perstLow = true ∧ (hwRun.modCtl (fun k => { k with perstLow := true })).powered = true := by
  decide +kernel

/-- A request whose response is made. -/
theorem witness_complete : let h := (asking 15 (req 1 [])).modChan 15 (fun x => { x with reply := some [1, 0, 0, 0] })
    h.faults.mpLost = false ∧ (h.chan 15).cur = some (req 1 []) ∧ (h.chan 15).reply = some [1, 0, 0, 0] := by decide +kernel

/-- A ring of 64 entries: to arm; CONSUMER may move to the three entries written and no further; with room and full. -/
def ringed (armed : Bool) (log2 : Nat) (producer consumer : Word) : Hw :=
  hwRun.modCtl (fun k => { k with raised := [{ code := 0x0001, seq := 0, tick := 5, data := [0, 0, 0, 0, 0] }],
                                  ring := { armed := armed, log2 := log2, producer := producer, consumer := consumer } })
theorem witness_ring_arm : (ringed false 6 0 0).accessible = true ∧ (1 : Word).getLsbD 0 = true ∧ (ringed false 6 0 0).ctl.ring.armed = false ∧
    6 ≤ (ringed false 16 0 0).ctl.ring.log2 ∧ (ringed false 16 0 0).ctl.ring.log2 ≤ 16 ∧ (0 : Word).getLsbD 0 = false := by decide +kernel
theorem witness_ring_consumer : (3 - (0 : Word)).toNat ≤ ((3 : Word) - 0).toNat ∧ ¬ (4 - (0 : Word)).toNat ≤ ((3 : Word) - 0).toNat := by decide
theorem witness_ring_entry : let k := (ringed true 6 63 0).ctl
    k.raised.length = 1 ∧ k.ring.armed = true ∧ k.masterEn = true ∧ k.perstLow = false ∧ k.linkUp = true ∧ k.dropMark = false ∧
      (k.ring.producer - k.ring.consumer).toNat ≠ 2 ^ k.ring.log2 := by decide +kernel
theorem witness_ring_full : let k := (ringed true 6 64 0).ctl
    k.raised.length = 1 ∧ k.ring.armed = true ∧ k.masterEn = true ∧ (k.ring.producer - k.ring.consumer).toNat = 2 ^ k.ring.log2 := by decide +kernel
theorem witness_ring_held : let k := (ringed false 6 0 0).ctl
    k.ring.armed = false ∧ k.raised.length = 1 ∧ k.held.length < 256 ∧ (List.replicate 256 ({ code := 1, seq := 0, tick := 0, data := [] } : Event)).length = 256 := by decide +kernel

/-- The entry of the 64th event of an empty ring of 64 goes to place 0, and PRODUCER advances (R46). -/
theorem test_ring_entry : after (exec .eventEntryWrite (st (ringed true 6 64 1))) (fun h => (h.ctl.ring.producer, h.ctl.hostWrites.map (·.1))) = some (65, [0]) := by
  decide +kernel

theorem witness_mctp : hwRun.powered = true ∧ (hwRun.chan 12).busy = false ∧ (hwRun.chan 12).enabled = true ∧ (hwRun.chan 15).enabled = true ∧ hwRun.ctl.phase ≠ .handover ∧
    hwRun.faults.mpLost = false ∧ ((asking 12 (req 1 [])).chan 12).busy = true := by decide +kernel

/-! ### Commits -/

/-- The worked example of R58: requests of slots 100 and 124 of tick 1,000,400 commit at the first and the second tick after it. -/
def hwEx : Hw := { hwRun with time := { tick := 1000400, slot := 124 } }
theorem test_commit_tick : hwEx.commitTick (1000400 * 128 + 100) 0 [] = .inl 1000401 ∧ hwEx.commitTick (1000400 * 128 + 124) 0 [] = .inl 1000402 := ⟨rfl, rfl⟩
/-- A request of slot 125 that names tick 1,000,401 is too late, and a target 2^24 + 1 ticks ahead too far. -/
theorem witness_commit_passed : hwEx.commitTick (1000400 * 128 + 125) 1000401 [] = .inr (stTickPassed, 0) ∧
    (let d := (1000401 + 2 ^ 32 - hwEx.time.tick % 2 ^ 32) % 2 ^ 32; 128 * (hwEx.time.tick + d) < 1000400 * 128 + 125 + 8) ∧
    2 ^ 24 < (1000401 + 2 ^ 24 + 2 ^ 32 - hwEx.time.tick % 2 ^ 32) % 2 ^ 32 := ⟨rfl, by decide, by decide⟩
/-- Its own tick is never one to come. -/
theorem witness_commit_now : (1000400 + 2 ^ 32 - hwEx.time.tick % 2 ^ 32) % 2 ^ 32 = 0 := by decide
/-- The bounds of a target: 2^24 ticks ahead is not too far; a change of the tick's length waits for a boundary. -/
theorem witness_commit_target : hwEx.commitTick 0 (1000400 + 2 ^ 24) [] = .inl (1000400 + 2 ^ 24) ∧
    hwEx.commitTick 0 0 [{ opcode := 0x0101, words := [] }] = .inl 1000404 := by decide +kernel

/-- A part with one command staged on channel 3, and one with the set due. -/
def staged (due : Option Due) (r : Request) : Hw :=
  hwRun.modChan 3 (fun x => { x with busy := true, cur := some r, due := due, staging := [{ opcode := 0x0D05, words := [1000] }] })
theorem witness_commit : (staged none (req 0x0002 [0])).Asks 3 0x0002 (req 0x0002 [0]) ∧ ((staged none (req 0x0002 [0])).chan 3).staging ≠ [] ∧
    (staged none (req 0x0002 [0])).commitTick 0 0 [{ opcode := 0x0D05, words := [1000] }] = .inl 1 := by
  refine ⟨?_, by decide +kernel, by decide +kernel⟩
  unfold Hw.Asks; decide +kernel
theorem witness_discard : (staged none (req 0x0003 [])).Asks 3 0x0003 (req 0x0003 []) ∧ ((staged none (req 0x0003 [])).chan 3).due = none ∧
    ((staged (some { tick := 4 }) (req 0x0003 [])).chan 3).due ≠ none := by
  refine ⟨?_, by decide +kernel, by decide +kernel⟩
  unfold Hw.Asks; decide +kernel

/-- A set due now whose check finds nothing, and one that flips to the epoch in force. -/
theorem witness_due : let h := staged (some { tick := 0 }) (req 0x0D05 [1000])
    (h.chan 3).due = some { tick := 0 } ∧ 0 ≤ h.time.tick ∧ h.inLehr = false ∧ h.faults.state ≠ .safe ∧ (checkSet {} h 3 (h.chan 3).staging []).isNone := by decide +kernel
theorem witness_due_fails : let h := staged (some { tick := 0 }) (req 0x0D05 [1000])
    (checkSet {} h 3 [{ opcode := 0x0302, words := [0] }] []).isSome := by decide +kernel

/-! ### Configuring commands, snapshots and rollbacks -/

/-- POWER_LIMIT_SET of 1,000 W passes, of 500 W fails its own check; a set of 256 commands is full. -/
def limiting (w : Word) (stage : Bool) (n : Nat) : Hw :=
  hwRun.modChan 3 (fun x => { x with busy := true, staging := List.replicate n { opcode := 0x0D05, words := [1000] },
                                     cur := some { words := [0x0D05, if stage then 0x10004 else 4, 0, 0, w] } })
theorem witness_configure : let h := limiting 1000 true 255
    (h.chan 3).cur = some { words := [0x0D05, 0x10004, 0, 0, 1000] } ∧ ({ words := [0x0D05, 0x10004, 0, 0, 1000] } : Request).opcode = 0x0D05 ∧
    failPowerLimitSet {} h 3 [1000] [] = none ∧ changesNothing 0x0D05 [1000] = false ∧ (h.chan 3).staging.length = 255 ∧
    ({ words := [0x0D05, 0x10004, 0, 0, 1000] } : Request).stageOnly = true := by decide +kernel
theorem witness_configure_commit : let h := limiting 1000 false 0
    (h.chan 3).cur = some { words := [0x0D05, 4, 0, 0, 1000] } ∧ ({ words := [0x0D05, 4, 0, 0, 1000] } : Request).stageOnly = false ∧
    h.commitTick 0 0 [{ opcode := 0x0D05, words := [1000] }] = .inl 1 := by decide +kernel
theorem witness_configure_fails : failPowerLimitSet {} hwRun 3 [500] [] = bad 0 := by decide +kernel
theorem witness_configure_full : 256 ≤ ((limiting 1000 true 256).chan 3).staging.length := by decide +kernel
theorem witness_configure_nothing : changesNothing 0x0503 [1, 0] = true := by decide

/-- The 256th command of a set has place 255, and is answered STAGED (R57). -/
theorem test_stage : after (exec (.powerLimitSet 3) (st (limiting 1000 true 255))) (fun h => ((h.chan 3).staging.length, (h.chan 3).reply.map (·.drop 3))) =
    some (256, some [0x00FF0001]) := by decide +kernel

/-- A snapshot of one rank on a stack with a gibibyte for snapshots. -/
def openPayload : List Word := [0, w32 (7 + 2 ^ 16), 1, 0, 4096, 0]
def opening : Hw := { asking 3 (req 0x0803 openPayload) with mem := { hbms := [(0, { snap := 1 })] } }
theorem witness_open : ((opening.chan 3).staging.length < 256 ∧ 4 ≤ (req 0x0803 openPayload).words.length) ∧ checkOpen opening openPayload = none := by decide +kernel

/-- A record of job 7 with no group: its length and CRC-64 as R390 lays them out. -/
def recordBytes : List Byte := natBytes 72 0x534e5031007000000000000000000000000000000000000000000000000000480000000000000000000000000000000000000000000000000000000000000000e2c1db6b8455f31b
def partOf (buddy : Bool) (state : PState) : Part :=
  { buddy := buddy, stack := 0, job := 7, snapshot := 1, ranks := [(0, 4096)], state := state, record := memWriteList 0 [] 0 recordBytes, recBytes := 72, reserved := 8192 }
def hwPart (buddy : Bool) (state : PState) : Hw := { hwRun with mem := { hbms := [(0, { snap := 1 })], parts := [(2, partOf buddy state)] } }
theorem witness_rollback : let h := hwPart false .sealed
    h.rollingBack 7 = false ∧ h.part? 2 = some (partOf false .sealed) ∧ recordHolds 7 (memReadList 0 (partOf false .sealed).record 0 72) = true ∧
    fld [w32 (7 + 2 * 65536)] 0 11 0 = 7 ∧ fld [w32 (7 + 2 * 65536)] 0 21 16 = 2 := by decide +kernel
theorem witness_rollback_bar2 : let h : Hw := { hwRun with ctl := { hwRun.ctl with bulk := memWriteList 0 [] 16 recordBytes } }
    recordHolds 7 (memReadList 0 h.ctl.bulk 16 72) = true ∧ 72 ≤ 16 * 2 ^ 20 := by decide +kernel

/-! ### Commands that answer -/

def plan0 : RingPlan := { image := List.replicate 16 0, id := 1, slack := 0, anchor := 0, owners := 0, axes := [] }
theorem witness_ring_status : let h : Hw := { hwRun with groups := [(1, { group with plan := some plan0 })] }
    h.grp? 1 = some { group with plan := some plan0 } := by decide +kernel
theorem witness_ledger : ledgerIndexOk 3 143 = true ∧ (hwRun.ledger 3 143).isSome = true ∧ hwRun.time.unbalanced.contains (3 * 2 ^ 29 + 143) = false := by decide +kernel
theorem witness_recovery_job : fld [(7 : Word)] 0 11 0 ≠ 0 := by decide
theorem witness_counters : 263 < 264 ∧ 0 + 35 ≤ 35 ∧ 127 < 128 ∧ 0 + 17 ≤ 17 ∧ fld [(0x10000 : Word)] 0 16 16 = 1 ∧ fld [(0x20000 : Word)] 0 17 17 = 1 := by decide
theorem witness_tables : 143 < 144 ∧ 0 + 256 ≤ 256 ∧ 15 + 1 ≤ 16 ∧ (hwPart false .sealed).part? 2 = some (partOf false .sealed) ∧ 36 % 4 = 0 ∧ 36 + 36 ≤ (partOf false .sealed).recBytes ∧
    ([(5, [0, 1])] : List (Nat × List Word)).find? (fun e => decide (e.1 = 5 + 0 * 2 ^ 32)) = some (5, [0, 1]) := by decide +kernel

/-! ### Firmware, fuses and keys -/

/-- An image of four bytes of firmware, security version 5, signed by a key whose hash is the first of the fuses. -/
def imageHeader : List Byte :=
  natBytes 176 0x314d4957010000000400000005000000020001002070000003000100000000005a667d62430a8c253ebae433333904dc6e1d41dcdc479704773159b905a3ad82d2bad7762d81a366cc46fbb2e2327f5c099056e27da7b998da1eeec2904816c57fe935ed5837c37456c9fd14892d3f8c4749b66e3afb81d626356f3b55b4ddd82e4c0c234e30ab96688505544ac5e0396fc4eed8dfc363fd43ff93f41b52a3255466d51263aaff357d5dba8138c5e0bb
def imageSignature : List Byte :=
  natBytes 96 0x8f0a39a4049bcb3ef1bf29b8b025b78f2216f7291e6fd3bac6cb1ee285fb6e21c388528bfee2b9535c55e4461079118be2291fd332b25f27e71ef12c6da09efec43b381cc4a491349302dfac8a1403dd8c4ec4f01d05cdad034042541aa8eaa1
def imageKey : List Byte := natBytes 48 0x3859fc657dfbfeb36d0605f056c186667ed8f8ae2c569847243f442ef4f42302521cb15ea3ab16df1953aec9b74234aa

/-- The part with that image in slot 1. -/
def imaged : Hw :=
  { hwRun with ctl := { hwRun.ctl with
      slotWritten := [false, true], secVersion := 6, handoverVer := 2, handoverMin := 3,
      flash := ((imageHeader ++ imageSignature).zipIdx.map (fun e => (slotBase 1 + e.2, e.1))) ++ ([1, 2, 3, 4].zipIdx.map (fun e => (slotBase 1 + 0x200 + e.2, e.1))) } }
def keyed : Fuses := { keyHashes := [imageKey] }

theorem witness_image : imaged.imageCheck keyed 1 = 0 := by decide +kernel
theorem witness_image_facts : imaged.imageFacts 1 = (0x10002, 5, 3, 1) := by decide +kernel
theorem witness_image_bad : ({ hwRun with ctl := { hwRun.ctl with slotWritten := [false, true] } } : Hw).imageCheck keyed 1 = 1 := by decide +kernel

/-- The anti-rollback field may go from 4 to 5; to 5 from 5 changes nothing; 65 is refused. -/
theorem witness_anti_rollback : 4 < 5 ∧ 5 ≤ imaged.ctl.secVersion ∧ 5 ≤ 64 ∧ 5 ≤ (imaged.imageFacts (1 - imaged.ctl.runningSlot)).2.1 ∧ ¬ (65 ≤ 64) ∧
    wnat (req 0x0E07 [5]).payload 0 = 5 := by decide +kernel

theorem witness_flash_write : memWf 0xFF hwRun.ctl.flash = true ∧ fld [(1 : Word), 0, 4] 0 0 0 ≠ hwRun.ctl.runningSlot ∧ wnat [(1 : Word), 0, 4] 2 ≠ 0 ∧ wnat [(1 : Word), 0, 4] 2 ≤ 2 ^ 24 := by
  decide +kernel
/-- Slot 1 still holds the image it was built with; both copies of the directory have the sequence 0, whichever is correct. -/
theorem witness_boot_slot : let h : Hw := { hwRun with ctl := { hwRun.ctl with flash := [(0, 0), (1, 0), (2, 0), (3, 0), (0x1000, 0), (0x1001, 0), (0x1002, 0), (0x1003, 0)] } }
    h.imageCheck {} 1 = 0 ∧ memWf 0xFF h.ctl.flash = true ∧ h.dirWord 0 0 + 1 < 2 ^ 32 ∧ h.dirWord 1 0 + 1 < 2 ^ 32 := by decide +kernel
theorem witness_activate : (imaged.imageFacts 1).2.2.2 ≤ imaged.ctl.handoverVer ∧ imaged.ctl.handoverMin ≤ (imaged.imageFacts 1).2.2.1 := by decide +kernel

/-- A token for the transition to PROVISIONED: with r = s both factors of the check are 1, so its key is R − G. -/
def tokenR : Nat := 0x499c24acfa3e016f6b4feebcc8ab54f67594d0867a73855c3500bdb6e6e07afc0d9a47277b7af6ebb9a470c4306bdb91
def tokenPayload : List Word := 1 :: leWords (natBytes 48 tokenR ++ natBytes 48 tokenR ++ List.replicate 48 0)
def tokenNonce : List Byte := List.replicate 16 0
theorem witness_token : signedBy (natBytes 48 0x684b42d44dac81a5b531b71ec8ce4ebe17c6e08e09b5bcaf7116af809abbebdca9947e763f565dc61efb144f1e5d64cb) (sha384 (({} : Fuses).deviceUid ++ leBytes (w32 1) ++ tokenNonce)) tokenR tokenR = true := by decide +kernel
theorem witness_token_place : let bytes := tokenPayload.flatMap leBytes
    beNat ((bytes.drop 4).take 48) = tokenR ∧ beNat ((bytes.drop 52).take 48) = tokenR ∧ (bytes.drop 100).take 48 = List.replicate 48 0 ∧
    lcOfCode (wnat tokenPayload 0) = some .provisioned ∧ lcAllowed .manufacture .provisioned = true ∧ lcAllowed .manufacture .retired = false := by decide +kernel

/-- The transition's end changes the fuses. -/
theorem witness_fuses : ∃ t, exec .lcTransitionDone { State.reset with hw := { hwRun with ctl := { hwRun.ctl with lcTarget := some .provisioned }, power := { lcReset := true } } } = .next t ∧
    t.fuses ≠ State.reset.fuses := ⟨_, rfl, by decide +kernel⟩

/-- An activation that waits for the standby, one whose tick has come, one that is too late. -/
def activating (atTick : Option Nat) (phase : FwPhase) (base : Nat) : Hw :=
  { hwRun with ctl := { hwRun.ctl with phase := phase, activation := some { slot := 1, ch := 0, target := 0, started := 0, atTick := atTick } }, time := { tick := 9, base := base } }
theorem witness_handover : (activating none .running 0).isFenced (unitNo 11 1) = false ∧ (activating none .running 0).faults.mpLost = false ∧
    (∀ e ∈ (activating none .running 0).ctl.chans, ∀ d, e.2.due = some d → d.tick ≠ 11) ∧ (activating (some 9) .handover 0).ctl.phase = .handover ∧
    9 ≤ (activating (some 9) .handover 0).time.tick ∧ 0 + 64000 ≤ (activating none .running 64000).time.base := by
  refine ⟨by decide +kernel, by decide +kernel, ?_, by decide +kernel, by decide +kernel, by decide +kernel⟩
  intro e he d hd
  have : ∀ e ∈ (activating none .running 0).ctl.chans, e.2.due = none := by decide +kernel
  rw [this e he] at hd
  cases hd
theorem witness_mirror : ({ hwRun.ctl with mirror := some 9 } : Ctl).mirror.isSome = true := by decide +kernel
theorem witness_legal : State.reset.FusesLegal := by unfold State.FusesLegal; decide


/-! ### Time -/

/-- A part whose only source is TICK_IN, not yet usable. -/
def onTickIn : Hw := hwRun.modTime (fun t => { t with sources := [{ kind := 2 }] })
theorem witness_tick_in : onTickIn.powered = true ∧ hwRun.time.isActive 2 0 = false ∧ onTickIn.time.isActive 2 0 = true ∧ onTickIn.time.sources[onTickIn.time.active]? = some { kind := 2 } ∧
    onTickIn.sourceUsable { kind := 2 } = false ∧ onTickIn.firstSource = 0xF ∧ hwRun.firstSource = 0 := by decide +kernel
theorem witness_misaligned_ticks : 16 ≤ (hwRun.modTime (fun t => { t with misaligned := 16 })).time.misaligned ∧ (hwRun.modTime (fun t => { t with misaligned := 15 })).time.misaligned < 16 := by
  decide +kernel
theorem witness_silences : let h := (hwRun.modLink 263 (fun k => { k with markerMiss := 64 })).modCx 143 (fun x => { x with overrunRun := 64 })
    64 ≤ (h.port 263).link.markerMiss ∧ 64 ≤ (h.cx 143).overrunRun ∧ (h.cx 143).overrunTold = false := by decide +kernel

/-- Port p up. -/
def up (p : Nat) (h : Hw := hwRun) : Hw := h.modLink p (fun k => { k with up := true })
/-- A marker of tick 1 with the multiplier 8; its CRC-32 was worked out outside the model. -/
def marker : List Word := [0x80000, 1, 0, 0, 0, 0, 0, 0, 0, 0, 0, 0, 0, 0, 0, 2252872259]
theorem witness_marker : ((up 5).port 5).link.up = true ∧ (up 5).inLehr = false ∧ crc32 ((marker.take 15).flatMap beBytes) = wnat marker 15 ∧ fld marker 0 21 16 = (up 5).time.mult ∧
    ((up 5).port 5).link.markerTick = none ∧ ((2 : Nat) + 2 ^ 32 - 1) % 2 ^ 32 = 1 ∧ crc32 ((marker.take 15).flatMap beBytes) ≠ wnat (marker.set 15 0) 15 := by decide +kernel
/-- The worked CRC-32 of R95's kind: a marker that passes is taken with its tick. -/
theorem test_marker : after (exec (.tickMarkerReceive 5 marker 77) (st ((up 5).modTime (fun t => { t with tick := 1 })))) (fun h => ((h.port 5).link.markerTick, (h.port 5).link.markerRx, (h.port 5).link.markerRun)) =
    some (some 1, 77, 1) := by decide +kernel

/-! ### Packets -/

/-- A packet of job 7 from rank 2 to rank 3 with four bytes. -/
def packet (ptype : Nat) (payload : List Byte := [1, 2, 3, 4]) : Pkt :=
  mkPkt [w32 (payload.length + ptype * 2 ^ 22 + typeClass ptype * 2 ^ 26), w32 (7 * 2 ^ 20), w32 (3 * 2 ^ 16 + 2)] payload

/-- Port 0 up, its job 7 admitted or not, in glean state g. -/
def ingress (admitted : Bool) (g : Nat) : Hw :=
  hwRun.modPort 0 (fun x => { x with link := { x.link with up := true }, admitted := [(7, admitted)], glean := { x.glean with state := g } })
theorem witness_ingress_mgmt : (packet 6).ptype = 6 ∧ (packet 5).ptype = 5 ∧ ((ingress true 3).port 0).link.up = true ∧ (ingress true 3).inLehr = false := by decide +kernel
theorem witness_ingress : let h := (ingress true 3).arrive 0 (packet 1)
    (packet 1).ptype = 1 ∧ h.linkCheck 0 (packet 1) = none ∧ (h.allocIngress 0 (packet 1)).isSome = true ∧
    (h.allocIngress 0 (packet 1)).all (fun e => decide ((e.1.port 0).glean.state ≠ 4) && e.1.admits 0 (packet 1).job && (e.1.meterCheck 0 (packet 1)).2.isSome) = true := by decide +kernel
theorem witness_ingress_blind : let h := (ingress true 4).arrive 0 (packet 1)
    (h.allocIngress 0 (packet 1)).any (fun e => decide ((e.1.port 0).glean.state = 4)) = true := by decide +kernel
theorem witness_ingress_job : let h := (ingress false 3).arrive 0 (packet 1)
    (h.allocIngress 0 (packet 1)).any (fun e => ! e.1.admits 0 (packet 1).job) = true := by decide +kernel
/-- A packet whose trailer is not its CRC-32 fails the link's check 8. -/
theorem witness_ingress_crc : let k := { packet 1 with trailer := 0 }
    ((ingress true 3).arrive 0 k).linkCheck 0 k = some 8 := by decide +kernel
/-- A meter of zero rates colours red, and a red DATA packet is dropped. -/
theorem witness_ingress_red : let h := ((ingress true 3).modPort 0 (fun x => { x with meterMap := [(7, 0x80)], meters := [(0, {})] })).arrive 0 (packet 1)
    (h.allocIngress 0 (packet 1)).any (fun e => (e.1.meterCheck 0 (packet 1)).2.isNone) = true := by decide +kernel
/-- A packet of 5,000 bytes at a home without a reserve whose shared C4 buffers are all taken. -/
def longPacket : Pkt := mkPkt [w32 (5000 + 2 ^ 22), w32 (7 * 2 ^ 20)] []
theorem witness_ingress_no_buffer : let h := ((ingress true 3).modCx 0 (fun x => { x with
      preset := 2, share := 0, bufs := (List.range 379).map (fun i => (i, { pkt := packet 1, cls := 4, owner := 1 })) })).arrive 0 longPacket
    longPacket.ptype = 1 ∧ h.linkCheck 0 longPacket ≠ some 12 ∧ (h.allocIngress 0 longPacket).isNone = true := by decide +kernel

/-- Ranks of job 7: rank 3 at this switch's port 9, rank 4 at switch 12; the forwarding table gives switch 12 a port in epoch 0 and a next-hop set in epoch 1. -/
def routed : Hw :=
  { hwRun with
    disc := { hwRun.disc with switchNo := 2, ranks := [(7, { span := 5, entries := [(3, 2 ^ 31 + 2 * 2 ^ 16 + 9), (4, 2 ^ 31 + 12 * 2 ^ 16 + 1)] })] },
    mesh := { hwRun.mesh with winnow := 0, fwd := [(12, (1, 20)), (4096 + 12, (2, 5))], nexthop := [(4096 + 5, { members := [30, 31], seed := 1 })] } }
theorem witness_route : routed.rankEntry 7 3 = some (routed.disc.switchNo, 9) ∧ routed.rankEntry 7 0 = none ∧ routed.rankEntry 7 4 = some (12, 1) ∧ 12 ≠ routed.disc.switchNo ∧
    tget? routed.mesh.fwd (0 * 4096 + 12) = some (1, 20) ∧ tget? routed.mesh.fwd (1 * 4096 + 12) = some (2, 5) ∧ tget? routed.mesh.fwd (0 * 4096 + 13) = none ∧
    2 ≤ (packet 4).cls ∧ ((tget ({} : NextHop) routed.mesh.nexthop (4096 + 5)).members.filter (fun m => ! routed.winnowed m)) = [30, 31] ∧
    hwRun.winnowed 30 = true := by decide +kernel

def meshPkt (k : Pkt) : MeshPkt := { kind := 1, cls := k.cls, epoch := 0, dest := 2, src := 1, pkt := k }
theorem witness_store : let h := hwRun.modCx 2 (fun x => { x with arrivals := [meshPkt (packet 1)] })
    ((h.releaseMoved 2).cx 2).arrivals.find? (fun mp => aheadOf ((h.releaseMoved 2).cx 2).arrivals mp && (h.releaseMoved 2).canStore 2 mp) = some (meshPkt (packet 1)) ∧
    ((hwRun.releaseMoved 2).cx 2).arrivals = [] := by decide +kernel

/-- A buffer of complex 0 handed to its port 0. -/
def bufPtr : Nat := (((hwRun.cx 0).pick 0 4 false).getD 0)
def handing : Hw :=
  { hwRun with mesh := { hwRun.mesh with winnow := 0 } }.modCx 0 (fun x => { x with
    bufs := [(bufPtr, { pkt := packet 1, cls := ptrClass bufPtr, owner := 1 })], handoff := [(bufPtr, 1)] })
theorem witness_handoff : (handing.cx 0).handoff = [(bufPtr, 1)] ∧ (handing.buf? 0 bufPtr).any (fun b => decide (b.pkt.cls ≠ 3) && ! b.reserve) = true ∧ handing.ptrOk 0 bufPtr = true ∧
    (handing.cx 0).inject = [] ∧ portsOf (1 : BitVec 264) = [0] ∧ (handing.port 0).move = .none ∧ handing.home 0 = 0 ∧ (handing.port 0).movedWait = [] ∧ handing.reinjecting 0 = false ∧ handing.winnowed 0 = false ∧ handing.isV16 0 = false ∧ handing.roomFor 0 (packet 1) = true := by decide +kernel

/-- A LINKMGMT packet in a reserve of a complex without a free shared buffer of its class, and a packet whose queue is full. -/
theorem witness_handoff_waits : let h := handing.modCx 0 (fun x => { x with
      preset := 2, share := 0, bufs := (List.range 380).map (fun i => (i, { pkt := packet 6, cls := 4, owner := 1, reserve := decide (i = 0) })) })
    (h.buf? 0 0).any (fun b => decide (b.pkt.cls = 3) && b.reserve && decide ((h.cx 0).free b.cls false = 0)) = true ∧
    ((handing.modPort 0 (fun x => x.modQueue (x.queueOf (packet 1)) (fun q => { q with maxDepth := 0 }))).roomFor 0 (packet 1) = false) := by decide +kernel

def flow (held : List HeldPkt) : Flow := { key := 1, expected := 5, held := held, lastSlot := 0 }
def heldPkt : HeldPkt := { entry := { ptr := 0, cells := 1 }, seq := 7, slot := 126 }
theorem witness_resequencer : let h := (hwRun.modTime (fun t => { t with tick := 1, slot := 0 })).modPort 263 (fun x => { x with flows := [flow [heldPkt]] })
    (h.port 263).flows = [flow [heldPkt]] ∧ heldPkt.slot + 2 ≤ h.time.tick * 128 + h.time.slot ∧ heldPkt.seq < 2 ^ 16 ∧ (flow [heldPkt]).expected < 2 ^ 16 := by decide +kernel
theorem witness_resequencer_waits : 127 < heldPkt.slot + 2 := by decide
/-- R140's example: a flow with nothing held and its last arrival 128 slots ago is forgotten, one of 127 slots ago is kept. -/
theorem test_expire : after (exec (.reseqEntryExpire 0) (st ((hwRun.modTime (fun t => { t with tick := 1 })).modPort 0 (fun x => { x with
    flows := [{ key := 1, expected := 0, lastSlot := 0 }, { key := 2, expected := 0, lastSlot := 1 }] })))) (fun h => (h.port 0).flows.map (·.key)) = some [2] := by decide +kernel

/-- Port 3 moves toward its alternate home since tick 8. -/
theorem witness_move : let h := (hwRun.modTime (fun t => { t with tick := 9 })).modPort 3 (fun x => { x with move := .orderly 8 true })
    (h.port 3).move = .orderly 8 true ∧ h.time.slot = 0 ∧ 8 + 1 ≤ h.time.tick ∧ hwRun.time.tick < 8 + 1 := by decide +kernel
def lostCx (t0 t1 : Attach) : Hw :=
  (({ hwRun with mesh := { hwRun.mesh with reasons := 0 } }.modCx 17 (fun x => { x with attach := .detached })).modCx 128 (fun x => { x with attach := t0 })).modCx 129
    (fun x => { x with attach := t1 })
theorem witness_tiller : ((lostCx .serving .serving).cx 17).attach ≠ .serving ∧ (lostCx .serving .serving).mesh.flipping = false ∧ (lostCx .serving .serving).mesh.flipNext = none ∧
    locCx ((lostCx .serving .serving).locate 0 17) = 17 ∧ 17 ∉ (lostCx .serving .serving).mesh.unmapped ∧ 128 + 2 * cxScd 17 = 128 ∧ ((lostCx .serving .serving).cx 128).attach = .serving ∧
    ((lostCx .serving .serving).cx 128).tillerOf = none ∧ ((lostCx .detached .serving).cx 128).attach ≠ .serving ∧ ((lostCx .detached .serving).cx 129).tillerOf = none ∧
    ((lostCx .detached .detached).cx 129).attach ≠ .serving ∧ ({ lostCx .serving .serving with mesh := { hwRun.mesh with reasons := 2 } } : Hw).mesh.flipping = true := by decide +kernel
def draining (tick count : Nat) : Hw :=
  { hwRun with mesh := { hwRun.mesh with reasons := 2, flipTick := 8, slowTicks := 64, drains := (0, count) }, time := { tick := tick } }
theorem witness_drain : (draining 9 0).time.slot = 0 ∧ (draining 9 0).mesh.flipping = true ∧ (draining 9 0).mesh.flipTick < (draining 9 0).time.tick ∧ (draining 9 0).mesh.drainCount = 0 ∧ (draining 72 1).mesh.drainCount ≠ 0 ∧
    (draining 72 1).mesh.flipTick + (draining 72 1).mesh.slowTicks ≤ (draining 72 1).time.tick ∧ (draining 72 1).mesh.slowTold = false := by decide +kernel

/-! ### The mesh -/

/-- A flit of the mesh packet, the first of two or the second, on the link into router 127 from the south. -/
def flit (idx : Nat) : Flit := { fseq := 4, vc := 1, idx := idx, mp := { meshPkt (packet 1) with flits := 2 } }
def receiving (i : MeshIn) : Hw := hwRun.modRouter 127 (fun x => { x with inputs := [(3, i)] })
theorem witness_flit : (((receiving {}).sendFlits 8 127 3).linkIn 127 3).wire = [] ∧ (((receiving { wire := [flit 0], resent := 2 }).sendFlits 8 127 3).linkIn 127 3).wire = [flit 0] ∧
    (none : Option Nat).all (fun n => decide (n = (flit 0).fseq)) = true ∧ (some 3).all (fun n => decide (n = (flit 0).fseq)) = false ∧
    ((receiving { wire := [flit 0], resent := 2 }).linkIn 127 3).resent < 3 ∧ 3 ≤ ((receiving { wire := [flit 0], resent := 3 }).linkIn 127 3).resent ∧
    (flit 0).idx = 0 ∧ (flit 1).idx ≠ 0 ∧
    (tget? (((receiving { wire := [flit 1] }).modRouter 127 (fun x => { x with vcs := [(25, { mp := (flit 1).mp })] })).router 127).vcs (8 * 3 + (flit 1).vc)).isSome = true := by decide +kernel

/-- A mesh packet at router 1 bound for router 2, and one that ends at router 2. -/
def inVc (r : Nat) (b : VcBuf) : Hw := hwRun.modRouter r (fun x => { x with vcs := [(32, b)], order := [32] })
theorem witness_hop : let mp := (meshPkt (packet 1)).seal
    let b : VcBuf := { mp := mp }
    tget? ((inVc 1 b).router 1).vcs (8 * 4 + 0) = some b ∧ b.done = false ∧ mp.headerOk = true ∧ (inVc 1 b).hopsOf 1 mp = [.out 0 mp] ∧ (inVc 1 b).hopReady 1 4 0 b (.out 0 mp) = true ∧
    (inVc 1 b).beaten 1 32 mp (Hop.out 0 mp).output = false ∧ (inVc 2 b).hopsOf 2 mp = [.eject 0 mp] ∧ ({ mp with mhParity := mp.mhParity + 1 } : MeshPkt).headerOk = false ∧ mp.flits ≤ b.got ∧
    ({ b with got := 0 } : VcBuf).got < mp.flits := by decide +kernel
/-- No credit held for any virtual channel of the next router: no hop is ready. -/
theorem witness_hop_blocked : let mp := (meshPkt (packet 1)).seal
    let h := (inVc 1 { mp := mp }).modRouter 2 (fun x => { x with inputs := [(1, { credits := (List.range 8).map (fun v => (v, 0)) })] })
    (h.hopsOf 1 mp).all (fun q => ! h.hopReady 1 4 0 { mp := mp } q) = true ∧ h.hopsOf 1 mp ≠ [] := by decide +kernel
theorem witness_route_plain : hwRun.mesh.fenced = [] ∧ hwRun.mesh.discarding = [] ∧ hwRun.mesh.separation = [] ∧ (meshPkt (packet 1)).kind = 1 ∧ (meshPkt (packet 1)).detourPath = [] ∧ (meshPkt (packet 1)).detour = 0 := by
  decide +kernel
/-- From router (15, 0) to (0, 0) the shorter way round the x ring is east (R157). -/
theorem test_route_wraps : hwRun.hopsOf 15 { meshPkt (packet 1) with dest := 0 } = [.out 0 { meshPkt (packet 1) with dest := 0 }] := by decide +kernel

theorem witness_inject : let mp := meshPkt (packet 1)
    let h := hwRun.modCx 143 (fun x => { x with inject := [{ ptr := none, parts := [mp] }] })
    (h.cx 143).attach ≠ .detached ∧ h.faults.state ≠ .safe ∧ (h.cx 143).inject = [{ ptr := none, parts := [mp] }] ∧ h.injectDiscard mp = false ∧ h.localVc (cxRouter 143) 5 mp.cls = some 0 := by
  decide +kernel
theorem witness_inject_node : let mp := meshPkt (packet 1)
    let h := hwRun.modMesh (fun m => { m with nodeOut := [(cxRouter 151, [mp])] })
    h.mesh.discarding = [] ∧
    tget [] h.mesh.nodeOut (cxRouter 151) = [mp] ∧ h.localVc (cxRouter 151) 5 mp.cls = some 0 := by decide +kernel
theorem witness_relay : let mp : MeshPkt := { meshPkt (packet 1) with kind := 5, mask := 6 }
    let h := hwRun.modCx 1 (fun x => { x with relayIn := [mp], creditsIn := [mp] })
    (h.cx 1).attach = .serving ∧ (h.cx 1).relayIn = [mp] ∧ mp.part = 0 ∧ mp.lastPart = true ∧ ((h.cx 1).freePtr 1 4).isSome = true ∧ portsOf mp.ports = [] ∧
    maskOf ((routersOf mp.mask).filter (· ≠ 1)) ≠ 0 ∧ (h.cx 1).creditsIn = [mp] := by decide +kernel

def selecting : Hw :=
  ({ hwRun with mesh := { hwRun.mesh with winnow := 0 } }.modCx 0 (fun x => { x with bufs := [(bufPtr, { pkt := packet 4, cls := ptrClass bufPtr, owner := 4 })] })).modPort 0 (fun x => { x with
    link := { x.link with up := true, held := [100, 100, 100, 100] }, queues := [(32, { entries := [{ ptr := bufPtr, cells := 1 }] })] })
theorem witness_select : (selecting.selectQueue 0).isSome = true ∧ (selecting.port 0).link.up = true ∧ selecting.faults.state ≠ .safe ∧ ((up 1).selectQueue 1).isNone = true ∧
    ¬ (hwRun.port 0).link.up = true ∧ (selecting.port 0).link.txPkts = [] ∧
    64 ≤ (([{ pkt := packet 1, rest := List.replicate 4096 0 }] : List TxPkt).map (fun t => cdiv t.rest.length 64)).sum := by decide +kernel
theorem witness_take_head : ((selecting.port 0).queue 32).entries = [{ ptr := bufPtr, cells := 1 }] ∧ (selecting.buf? (selecting.home 0) bufPtr).any (fun b => ownerMatches b.owner (egressOwner 0)) = true ∧
    selecting.ptrOk 0 bufPtr = true := by decide +kernel

/-! ### Links and lanes -/

/-- A SEQUENCED block 0 that acknowledges 7 and asks for a replay, and a NULL block, of empty units; their CRC was worked out outside the model. -/
def block1 : LinkBlock := { h0 := 0x40000000, h1 := 0x0007C000, h2 := 0x00000000, units := [], crc := 0xB66AAC7B }
def block2 : LinkBlock := { h0 := 0x80000000, h1 := 0x0007A000, h2 := 0x902C5B1F, units := [], crc := 0xB66AAC7B }

/-- The CRC register after the header of either block and after each unit of zeros. -/
def crcStates : List Nat :=
  [1611050586, 1659985259, 56226093, 511391456, 3774215702, 2163073979, 3957370202, 1063954030, 1727303100, 3898820973,
   4032986453, 4038147803, 3726499905, 3977821386, 4148384274, 3672986670, 380651948, 155220695, 1634426265, 1800461102,
   1164153980, 2236957702, 3299824503, 3560403451, 3500437849, 2658033723, 2233750347, 3903377697, 1233056401, 1546574639,
   1274192962, 2274830850, 1709877191, 3162954130, 2479210020, 3417096854, 1941987192, 426420957, 1652070450, 3471413629,
   1106357115, 4056085372, 2958717910, 1319011237, 1188444020, 3640523495, 3684198115, 85132107, 3891073951, 2360566493,
   2131255196, 16475176, 345395632, 3508352340, 3950717085, 1386088429, 4145566935, 2408797146, 9742270, 2653888970,
   10283054, 896976532, 1670781659, 4125527713, 1234523012]
theorem crc_states : ∀ i < 64, (List.replicate 64 (0 : Byte)).foldl crc32Byte (nth crcStates i) = nth crcStates (i + 1) := by decide +kernel
theorem crc_units (n : Nat) (hn : n ≤ 64) : ((List.range n).flatMap (fun _ => List.replicate 64 (0 : Byte))).foldl crc32Byte (nth crcStates 0) = nth crcStates n := by
  induction n with
  | zero => rfl
  | succ n ih =>
    rw [List.range_succ, List.flatMap_append, List.foldl_append, ih (by omega)]
    simpa using crc_states n (by omega)
theorem crc_block (b : LinkBlock) (hu : b.units = []) (hh : (beBytes b.h0 ++ beBytes b.h1 ++ beBytes b.h2).foldl crc32Byte 0xFFFFFFFF = nth crcStates 0) :
    crc32 b.bytes = 3060444283 := by
  have hb : b.unitAt = fun _ => List.replicate 64 (0 : Byte) := by
    funext u
    simp only [LinkBlock.unitAt, hu, List.getD_nil]
    rfl
  unfold crc32 LinkBlock.bytes
  rw [hb, List.foldl_append, hh, crc_units 64 le_rfl]
  rfl
theorem witness_block : block1.good = true ∧ block1.kind = 1 ∧ block1.lseq = 0 ∧ block1.nak = true ∧ block1.ackSeq = 7 := by
  refine ⟨?_, by decide +kernel⟩
  unfold LinkBlock.good
  rw [crc_block block1 rfl (by decide +kernel)]
  decide +kernel
theorem witness_block_null : block2.good = true ∧ block2.kind = 2 ∧ block2.pair = true := by
  refine ⟨?_, by decide +kernel⟩
  unfold LinkBlock.good
  rw [crc_block block2 rfl (by decide +kernel)]
  decide +kernel
theorem witness_block_bad : ({ block1 with crc := 0 } : LinkBlock).good = false := by
  have : crc32 ({ block1 with crc := 0 } : LinkBlock).bytes = 3060444283 := crc_block _ rfl (by decide +kernel)
  unfold LinkBlock.good
  rw [this]
  decide +kernel
theorem witness_block_null_credits : block2.freedA ≤ 65535 ∧ block2.freedB ≤ 65535 ∧
    nth ({ ({} : Link) with outstanding := [65535, 65535, 65535, 65535] } : Link).outstanding 2 = 65535 := by decide +kernel

/-- A port in data state; block 0 is the one it expects, or it expects block 5. -/
def receiver (expect : Nat) : Hw :=
  hwRun.modPort 2 (fun x => { x with link := { x.link with up := true, expect := expect }, lanes := { x.lanes with state := 2, rxData := true } })
theorem witness_receiver : let k := ((receiver 0).port 2).link
    ((receiver 0).port 2).lanes.rxData = true ∧ ((receiver 0).port 2).lanes.rxAsleep = false ∧ ((receiver 0).port 2).lanes.state = 2 ∧ k.lastFreed.length = 4 ∧ k.outstanding.length = 4 ∧
    k.held.length = 4 ∧ (block1.freedA + 2 ^ 16 - nth k.lastFreed 0 % 2 ^ 16) % 2 ^ 16 ≤ nth k.outstanding 0 ∧ block1.lseq = k.expect ∧ k.lastNak = none ∧ (7, 0) ≠ (block1.ackSeq + 1, 0) ∧
    (let h := (receiver 0).modLink 2 (fun k => { k with lastNak := some (7, 0) })
     (h.port 2).link.lastNak = some (block1.ackSeq, 0) ∧ 64 * (h.quietNow - 0) < (h.port 2).link.replayTimeout h.time.tick) ∧
    block1.lseq ≠ ((receiver 5).port 2).link.expect := by decide +kernel

/-- The two units of a packet of four bytes. -/
theorem witness_units : let b := (mkPkt [w32 (4 + 2 ^ 22 + 2 ^ 28), w32 (7 * 2 ^ 20)] [1, 2, 3, 4]).unitBytes
    b.length = 128 ∧ (b.take 64).length = 64 ∧ (b.drop 64).length = 64 ∧ badHeader (b.take 64) = none ∧ fld (beWords (b.take 4)) 0 15 0 = 4 ∧ 64 * cdiv (68 + 4) 64 = 128 ∧
    ((receiver 0).port 2).link.rxPart = [] := by decide +kernel

/-- LINK_PARAMS of sequence number 1 with limits of 100 cells. -/
def paramsPayload : List Byte := [0x01000000, 0x00010000, 100, 100, 64, 16, 0, 0, 0, 0].flatMap (fun (w : Nat) => beBytes (w32 w))
theorem witness_params : let k := packet 6 paramsPayload
    ((up 2).port 2).link.up = true ∧ k.ptype = 6 ∧ ((up 2).arrive 2 k).linkCheck 2 k = none ∧ k.payload.length = 40 ∧ fld (beWords k.payload) 0 31 24 = 1 ∧
    fld (beWords k.payload) 1 31 16 ≠ 0 ∧ ((List.range 4).map (fun c => fld (beWords k.payload) (2 + c) 15 0)).all (fun v => decide (v ≤ 16383)) = true := by decide +kernel

def keptOne (resent : Nat) : Kept := { lseq := 9, blk := block1, resent := resent }
def sender (pkts : List TxPkt) (kept : List Kept) (replay : Option Nat) : Hw :=
  hwRun.modLink 2 (fun k => { k with up := true, txPkts := pkts, kept := kept, replayFrom := replay })
theorem witness_transmit : let k := ((sender [{ pkt := packet 1, rest := (packet 1).unitBytes }] [] none).port 2).link
    k.up = true ∧ ((sender [] [] none).port 2).lanes.txAsleep = false ∧ k.replayFrom = none ∧ k.txMgmt = [] ∧ k.lseq < 2 ^ 16 ∧ k.expect < 2 ^ 16 ∧ k.txPkts ≠ [] ∧ k.kept.length < 512 ∧
    hwRun.faults.state ≠ .safe ∧ ((sender [] [] none).port 2).link.txPkts = [] := by decide +kernel
theorem witness_replay : ((sender [] [keptOne 2] (some 9)).port 2).link.replayFrom = some 9 ∧ (9 + 2 ^ 16 - 9) % 2 ^ 16 < 512 ∧ (keptOne 2).resent < 3 ∧ 3 ≤ (keptOne 3).resent ∧
    ((sender [] [keptOne 2] (some 9)).port 2).link.kept = [keptOne 2] ∧ (hwRun.port 2).lanes.rxAsleep = false := by decide +kernel

def frame : List Word := [0x11080000, 0x0, 0x5, 0xf456]
/-- Port 2 trains; its own nonce is 6, or the frame's 5. -/
def training (nonce : Nat) (f : Lanes → Lanes := id) : Hw := hwRun.modLanes 2 (fun l => f { l with state := 1, nonce := nonce })
theorem witness_frame : 0 < chanCount ((training 6).port 2).lanes ∧ 0 ∉ ((training 6).port 2).lanes.fenced ∧ frameGood frame = true ∧ ((training 6).port 2).lanes.state = 1 ∧
    fld frame 0 20 20 = b2n ((training 6).isV16 2) ∧ wnat frame 2 = ((training 5).port 2).lanes.nonce ∧ wnat frame 2 ≠ ((training 6).port 2).lanes.nonce ∧
    ((training 5).port 2).lanes.loopMode = 0 := by decide +kernel
theorem witness_frame_mode : frameGood ([0x11100000, 0x0, 0x5, 0xe9b8]) = true ∧ fld ([0x11100000, 0x0, 0x5, 0xe9b8]) 0 20 20 ≠ b2n ((training 6).isV16 2) := by decide +kernel
theorem witness_adapt : let l := ((training 6 (fun l => l.modChan 3 (fun c => { c with frames := 3 }))).port 2).lanes
    3 < chanCount l ∧ 3 ∉ l.fenced ∧ l.state = 1 ∧ 3 ≤ (l.chan 3).frames ∧ fomTarget l = 96 ∧ (l.chan 0).frames < 3 := by decide +kernel
theorem witness_countdown : let l := ((training 6 (fun l => { l with allReady := true, partnerAll := true, rxData := true, heardBlock := true })).port 2).lanes
    l.state = 1 ∧ l.allReady = true ∧ l.partnerAll = true ∧ (l.rxData && l.heardBlock) = true ∧ ((training 6).port 2).lanes.allReady = false := by decide +kernel
theorem witness_train_timeout : let l := ((training 6).port 2).lanes
    l.state = 1 ∧ (List.range (chanCount l)).all (fun i => ! (l.chan i).ready) = true := by decide +kernel
theorem witness_train_spare : let l := ((training 6 (fun l => { l with chans := [(0, { ready := true }), (2, { ready := true }), (3, { ready := true }), (4, { ready := true })] })).port 2).lanes
    (List.range (chanCount l)).find? (fun i => decide (l.rxMap.getD i 7 < 4) && ! (l.chan i).ready) = some 1 ∧
    (List.range (chanCount l)).find? (fun i => decide (l.rxMap.getD i 7 = 6) && (l.chan i).ready && ! l.fenced.contains i) = some 4 := by decide +kernel
theorem witness_lane_states : ((training 6 (fun l => { l with state := 5 })).port 2).lanes.state = 5 ∧ ((training 6 (fun l => { l with state := 3 })).port 2).lanes.state = 3 ∧
    ((receiver 0).port 2).lanes.state = 2 ∧ ((receiver 0).port 2).lanes.sleepHeard = false := by decide +kernel

theorem witness_signal : let l := ((receiver 0).port 2).lanes
    l.state = 2 ∧ l.rxMap.getD 3 7 < 4 ∧ l.sleepHeard = false ∧ 4 ≤ l.rxMap.getD 4 7 ∧ 4 < chanCount l := by decide +kernel
theorem witness_signal_sleep : let h := (receiver 0).modLanes 2 (fun l => { l with sleepHeard := true, chans := [(1, { lowTicks := 64 })] })
    (h.port 2).lanes.sleepHeard = true ∧ 64 ≤ ((h.port 2).lanes.chan 1).lowTicks ∧ ((h.port 2).lanes.chan 1).lowTold = false ∧ ((h.port 2).lanes.chan 0).lowTicks < 64 := by decide +kernel
def sleeper (f : Lanes → Lanes) : Hw := (receiver 0).modLanes 2 (fun l => f { l with cfg := { l.cfg with sleep := true, idleSlots := 4 }, idleCount := 4 })
theorem witness_sleep : let x := (sleeper id).port 2
    x.lanes.cfg.sleep = true ∧ x.lanes.state = 2 ∧ x.lanes.txAsleep = false ∧ x.lanes.cfg.idleSlots ≤ x.lanes.idleCount ∧ x.hasWork = false ∧ x.link.kept = [] ∧ x.link.nak = false ∧
    x.link.lseq < 2 ^ 16 ∧ ((receiver 0).port 2).lanes.cfg.sleep = false := by decide +kernel
theorem witness_wake : let x := (sleeper (fun l => { l with txAsleep := true, idleCount := 0, rxAsleep := true })).port 2
    x.lanes.txAsleep = true ∧ x.lanes.idleCount = 0 ∧ x.lanes.rxAsleep = true ∧ x.lanes.state = 2 := by decide +kernel
theorem witness_laser : let h : Hw := { hwRun with lasers := { enabled := [15], live := [] } }
    15 ∈ h.lasers.enabled ∧ 15 ∉ h.lasers.live ∧ 15 ∉ h.lasers.releasing ∧ 15 ∈ ([15] : List Nat) ∧ unitNo 8 15 ∉ h.faults.fenced := by decide +kernel

/-- A glean message of kind 1 that repeats this end's identity, and one that does not. -/
def gleanPayload (echo : Bool) : List Byte :=
  [0x01010000, 1, 2, 3, 4, 5, 6, 7, 0, 0, 0, if echo then 0x10002 else 0, 0, 0, 0, 0].flatMap (fun (w : Nat) => beBytes (w32 w))
def hearing : Hw := (up 2).modGlean 2 (fun g => { g with state := 1 })
theorem witness_glean : let k := packet 5 (gleanPayload true)
    (hearing.port 2).link.up = true ∧ k.ptype = 5 ∧ (hearing.arrive 2 k).linkCheck 2 k = none ∧ k.payload.length = 64 ∧ fld (beWords k.payload) 0 31 24 = 1 ∧
    1 ≤ fld (beWords k.payload) 0 23 16 ∧ fld (beWords k.payload) 0 23 16 ≤ 3 ∧ hearing.twoWay 2 (beWords k.payload) = true ∧ (hearing.port 2).glean.state = 1 ∧
    hearing.twoWay 2 (beWords (gleanPayload false)) = false ∧ (hearing.cdRouter (cxHalf (hearing.home 2))).isSome = true := by decide +kernel
theorem witness_glean_clocks : let h := (hwRun.modTime (fun t => { t with tick := 256 })).modGlean 2 (fun g => { g with state := 2 })
    h.time.slot = 0 ∧ (hwRun.modTime (fun t => { t with slot := 1 })).time.slot ≠ 0 ∧ (h.port 2).glean.state = 2 ∧ (h.port 2).glean.heardTick + h.disc.missingTicks ≤ h.time.tick ∧ (hwRun.port 2).glean.state ≠ 2 := by decide +kernel
theorem witness_missing : let h : Hw := { hwRun.modTime (fun t => { t with tick := 256 }) with disc := { hwRun.disc with plan := [(2, [1])] } }
    expectOf (h.disc.entry 2) ≠ 0 ∧ (h.port 2).glean.state ≠ 3 ∧ max h.disc.planTick (h.port 2).glean.since + h.disc.missingTicks ≤ h.time.tick ∧ (h.port 2).glean.missing = false ∧
    expectOf (hwRun.disc.entry 2) = 0 := by decide +kernel
theorem witness_silence : let h := hwRun.modGlean 2 (fun g => { g with state := 3, silent := 5120 })
    (h.port 2).glean.state = 3 ∧ max 4096 (cdiv 40960 h.time.mult) ≤ (h.port 2).glean.silent ∧ (hwRun.port 2).glean.silent < max 4096 (cdiv 40960 hwRun.time.mult) := by decide +kernel
theorem witness_rejoin : let h := (receiver 0).modGlean 2 (fun g => { g with state := 3, hold := 1 })
    h.time.slot = 0 ∧ h.mayOpen 2 = true ∧ hwRun.mayOpen 2 = false := by decide +kernel

/-! ### Groups -/

/-- Group 1 with one generation of one chunk, open at complex 3, entry 0 counted there. -/
def chunk0 : Chunk := { addr := 3, cx := 3, patience := 4, counted := [0], accs := List.replicate 256 0 }
def gen0 (o : Option Chunk) : Gen := { no := 0, list := [0, 1], homes := [3], open_ := (o.map (fun c => (0, c))).toList }
def group1 (n : Gen) (st : GState := .active) : Group := { group with state := st, gens := [n] }
def grouped (x : Group) : Hw := { hwRun with groups := [(1, x)] }
/-- A contribution of a rank to chunk 0 of generation 0. -/
def contrib (src : Nat) (chunk : Nat := 0) : Pkt :=
  mkPkt [w32 (2 ^ 23 + 2 ^ 26), w32 (7 * 2 ^ 20), w32 src, w32 (1 * 2 ^ 19), w32 (chunk * 256)] []
theorem witness_contrib : (contrib 1).grp = 1 ∧ (contrib 1).gen = 0 ∧ (contrib 1).chunk = 0 ∧ (contrib 1).ptype = 2 ∧ (contrib 1).partialBit = false ∧ hwRun.grp? (contrib 1).grp = none ∧
    (grouped (group1 (gen0 none) .closed)).grp? 1 = some (group1 (gen0 none) .closed) := by decide +kernel
theorem witness_verdict : let x := group1 (gen0 (some chunk0))
    let h := grouped x
    h.grp? 1 = some x ∧ x.state ≠ .closed ∧ (h.job 7).running = none ∧ x.genLow (contrib 1).gen = some (gen0 (some chunk0)) ∧ x.genLow 5 = none ∧ x.entryOf (contrib 5) = none ∧
    x.entryOf (contrib 1) = some 1 ∧ (memberOf x.cfg 1).part = false ∧ 1 ∈ (gen0 (some chunk0)).list ∧ 0 ∉ (gen0 (some chunk0)).done ∧ chunk0.ending = false ∧ 1 ∉ chunk0.lost ∧ 1 ∉ chunk0.counted ∧
    x.entryOf (contrib 0) = some 0 ∧ 0 ∈ chunk0.counted ∧ chunk0.slotLost = false ∧ chunk0.frozen = false ∧ chunk0.cx ≠ 4 ∧ (h.cx 3).attach = .serving ∧ x.cfg.ordered = false := by decide +kernel
theorem witness_verdict_others : 1 ∉ ({ gen0 (some chunk0) with list := [0] } : Gen).list ∧ 0 ∈ ({ gen0 none with done := [0] } : Gen).done ∧ 1 ∈ ({ chunk0 with lost := [1] } : Chunk).lost ∧
    ((hwRun.modCx 3 (fun c => { c with attach := .computeFenced })).cx 3).attach ≠ .serving := by decide +kernel

def working (x : Group) (mp : MeshPkt) : Hw := (grouped x).modCx 3 (fun c => { c with work := [mp] })
def contribMesh (src : Nat) : MeshPkt := { meshPkt (contrib src) with dest := 3 }
/-- A third member keeps the chunk from finishing with this contribution. -/
def group3 (o : Chunk) : Group :=
  { group1 { gen0 (some o) with list := [0, 1, 2] } with
    cfg := { groupCfg with members := [{ rank := 0, contrib := true }, { rank := 1, contrib := true }, { rank := 2, contrib := true }] }, mask := [true, true, true] }
theorem witness_home : let h := working (group3 chunk0) (contribMesh 1)
    (h.cx 3).attach ≠ .detached ∧ (h.cx 3).held = [] ∧ (h.cx 3).work = [contribMesh 1] ∧ wholeIn [contribMesh 1] (contribMesh 1) = true ∧ h.canTake 3 (contribMesh 1) = true ∧
    h.verdict 3 (contribMesh 1) = .add ∧ (group3 chunk0).gens.length = 1 ∧ (group3 chunk0).entryOf (contrib 1) = some 1 ∧ (group3 chunk0).cfg.gather = false ∧
    h.contribAtt (group3 chunk0) { gen0 (some chunk0) with list := [0, 1, 2] } = none := by decide +kernel
theorem witness_home_not_last : let o : Chunk := { chunk0 with counted := [0, 1] }
    let n : Gen := { gen0 (some o) with list := [0, 1, 2] }
    ({ group3 chunk0 with gens := [n] } : Group).mayFinish n 0 = false := by decide +kernel
theorem witness_home_gone : let h := hwRun.modCx 3 (fun c => { c with work := [contribMesh 1] })
    h.verdict 3 (contribMesh 1) = .gone ∧ h.canTake 3 (contribMesh 1) = true := by decide +kernel
theorem witness_home_drop : (working (group1 (gen0 (some chunk0))) (contribMesh 0)).verdict 3 (contribMesh 0) = .drop 8 := by decide +kernel
theorem witness_home_away : (working (group1 (gen0 (some { chunk0 with cx := 4 }))) (contribMesh 1)).verdict 3 (contribMesh 1) = .away 4 := by decide +kernel
theorem witness_home_hold : ((working (group1 (gen0 (some chunk0))) (contribMesh 1)).modCx 3 (fun c => { c with attach := .computeFenced })).verdict 3 (contribMesh 1) = .hold := by decide +kernel
/-- A partial of a group without a ring plan has no entry: the mismatch is counted. -/
def partialMesh : MeshPkt := { meshPkt (mkPkt [w32 (2 ^ 23 + 2 ^ 26), w32 (7 * 2 ^ 20), w32 9, w32 (2 ^ 19), 0, 0, w32 (2 ^ 31)] []) with dest := 3 }
theorem witness_home_partial : partialMesh.pkt.partialBit = true ∧ (group1 (gen0 (some chunk0))).entryOf partialMesh.pkt = none := by decide +kernel

theorem witness_patience : let x := group1 (gen0 (some { chunk0 with patience := 0 }))
    let h := grouped x
    x.gen? 0 = some (gen0 (some { chunk0 with patience := 0 })) ∧ h.still { chunk0 with patience := 0 } = false ∧ h.faults.state ≠ .safe ∧ x.plan = none ∧ h.chunkAtt x (gen0 none) = none ∧
    chunk0.opened = true ∧ chunk0.restarted = false ∧ 0 < chunk0.patience ∧ x.pending (gen0 (some { chunk0 with patience := 0 })) 0 = [1] := by decide +kernel
theorem witness_idle : let n : Gen := { gen0 none with idle := 4 }
    let h := grouped (group1 n)
    h.counting (group1 n) = true ∧ (group1 n).cfg.patience ≤ n.idle ∧ h.opensLater 1 (group1 n) n 0 = false ∧ (group1 n).pending n 0 = [0, 1] ∧
    h.counting (group1 n .idle) = false ∧ (gen0 none).idle < 4 ∧ (gen0 none).openWith ≠ some 0 := by decide +kernel
theorem witness_waiting : 64 ≤ ({ group with wait := 64 } : Group).wait ∧ group.told = false ∧ group.wait < 64 ∧ ({ group with tear := some true } : Group).tear ≠ none ∧ group.gens = [] ∧
    group.state ≠ .closed ∧ group.tear = none := by decide +kernel

/-- The chunk's slot is at complex 4 and its address is served by complex 3. -/
theorem witness_slot_move : let x := group1 (gen0 (some { chunk0 with cx := 4, frozen := true }))
    let h := grouped x
    (h.cx 4).attach ≠ .detached ∧ h.groups = [(1, x)] ∧ x.gens = [gen0 (some { chunk0 with cx := 4, frozen := true })] ∧ locCx (h.locate 0 3) = 3 ∧ (3 : Nat) ≠ 4 ∧ (h.cx 3).attach = .serving := by
  decide +kernel

def ringPlan : RingPlan := { plan0 with axes := [{ ring := true, length := 2, pos := 0, up := 9, down := 9, downGrp := 1 }] }
/-- A ring group that awaits the partial of axis 0 in silence for 4 ticks. -/
def ringGroup (heard : Nat) : Group :=
  { group1 { gen0 (some chunk0) with list := [0, 1] } with
    cfg := { groupCfg with members := [{ rank := 0, contrib := true }, { rank := 0, part := true }] }, plan := some ringPlan, axes := [(0, { heard := heard })] }
theorem witness_ring_loss : let x := ringGroup 4
    let h := grouped x
    x.plan = some ringPlan ∧ x.gen? x.current = some (gen0 (some chunk0)) ∧ h.counting x = true ∧ 0 ∈ ringPlan.rings ∧ x.cfg.patience + ringPlan.slack ≤ (tget ({} : AxisCount) x.axes 0).heard ∧
    1 ∈ x.pending (gen0 (some chunk0)) 0 ∧ (memberOf x.cfg 1).part = true ∧ (memberOf x.cfg 1).rank = 0 ∧ (tget ({} : AxisCount) (ringGroup 3).axes 0).heard < 4 := by decide +kernel
/-- A partial of axis 0 that names another ring step than the one awaited. -/
def stepMesh : MeshPkt := { meshPkt (mkPkt [w32 (2 ^ 23 + 2 ^ 26), w32 (7 * 2 ^ 20), w32 9, w32 (2 ^ 19), 0, 0, w32 (2 ^ 31 + 5)] []) with dest := 3 }
theorem witness_home_mismatch : (working (ringGroup 0) stepMesh).verdict 3 stepMesh = .mismatch := by decide +kernel

/-! ### Programs -/

/-- An image of the one instruction EXIT, all of its signature zero; its SHA-384 was worked out outside the model. -/
def programBytes : List Byte := natBytes 260 0x314e4f5a0100010099000000040000000000000000000000000000000101000000000000000000000000000000000000000000000000000000000000000000001f0154cb4092ed1e9655a24ef1ce4a390c4b9108dfdcf5ec017c8e9757edb48e3ba3f043cfe50499f296398ced2986a3000000000000000000000000000000000000000000000000000000000000000000000000000000000000000000000000000000000000000000000000000000000000000000000000000000000000000000000000000000000000000000000000000000000000000000000000000000000000000000000000000000000000000000000000000000000000000000000000010000a8
theorem witness_image_ok : imageOk programBytes = true ∧ imageAuth {} programBytes = true := by decide +kernel
theorem witness_image_not : imageOk (programBytes.set 0 0) = false ∧ imageOk (programBytes.set 256 9) = true ∧ imageAuth {} (programBytes.set 256 9) = false := by decide +kernel
theorem witness_image_room : ({} : Progs).room 4 = some 0x10000 ∧ ({ images := [(1, { image 0 with base := 0x10000, code := List.replicate 49152 0 })] } : Progs).room 4 = none := by
  refine ⟨by decide +kernel, ?_⟩
  have : (List.replicate 49152 (0 : Word)).length = 49152 := List.length_replicate
  simp only [Progs.room, image, List.map_cons, List.map_nil, this]
  decide +kernel
theorem witness_program_load : fld [(5 : Word), 0, 260] 0 5 0 = 5 ∧ wnat [(5 : Word), 0, 260] 2 = 260 ∧ tget? hwRun.progs.pieces 5 = none ∧ tget? hwRun.progs.images 5 = none ∧
    (([5, 0, 200960, 0, 7] : List Word).drop 4).length * 4 < 200960 := by decide +kernel
theorem witness_unload : let h : Hw := { hwRun with progs := { images := [(5, image 0)] } }
    (tget? h.progs.images 5).isSome = true ∧ h.progs.atts = [] ∧ (∀ e ∈ h.ctl.chans, e.2.staging = []) ∧ (att 0).handle = 0 := by decide +kernel

/-- An event of group 1 waits at complex 3. -/
def eventOf : HookEvent := { hook := 2, gen := 0 }
def evented : Hw := { grouped group with progs := { atts := [(0, { att 0 with events := [(3, [eventOf])] })] } }
theorem witness_event : (evented.cx 3).attach = .serving ∧ evented.faults.state ≠ .safe ∧ evented.progs.invs = [] ∧ evented.grp? 1 = some group ∧
    evented.staleEvent 3 group (group.gen? 0) eventOf = none ∧ (att 0).keepFrom = none ∧ eventOf.hook ≠ 1 ∧ (evented.gangThreads 3 (image 0)).isSome = true ∧ hwRun.progs.atts = [] := by decide +kernel
theorem witness_event_busy : let h : Hw := { evented with progs := { evented.progs with threads := (List.range 144).map (fun t => (432 + t, thread)) } }
    h.gangThreads 3 (att 0).image = none ∧ h.progs.atts = [(0, { att 0 with events := [(3, [eventOf])] })] := by decide +kernel
theorem witness_thread_wake : let th : Thread := { thread with state := .waitMsg }
    let h : Hw := { onWord 0 th with progs := { (onWord 0 th).progs with atts := [(0, { att 0 with msgs := [(3, [(1, 2, [])])] })] } }
    tget? h.progs.threads 0 = some th ∧ tget? h.progs.invs 0 = some inv ∧ h.att? 0 = some { att 0 with msgs := [(3, [(1, 2, [])])] } ∧ tget [] ({ att 0 with msgs := [(3, [(1, 2, [])])] } : Att).msgs 3 ≠ [] ∧
    tget [] (att 0).msgs 3 = [] ∧ ({ thread with state := .waitTick true } : Thread).state = .waitTick true := by decide +kernel
def messageMesh : MeshPkt := { meshPkt (msgPkt 0 5 [1, 2, 3, 4]) with dest := 3 }
theorem witness_message : messageMesh.pkt.ptype = 15 ∧ hwRun.att? (messageMesh.pkt.word 1) = none ∧ evented.att? (messageMesh.pkt.word 1) = some { att 0 with events := [(3, [eventOf])] } ∧
    (tget [] (att 0).msgs 3).length < 64 ∧ ((evented.cx 3).pick 3 messageMesh.pkt.len false).isSome = true ∧
    64 ≤ (tget [] ({ att 0 with msgs := [(3, List.replicate 64 (0, 0, []))] } : Att).msgs 3).length := by decide +kernel
theorem witness_stalled : let h : Hw := { onWord 0 thread with time := { tick := 5 } }
    h.progs.invs = [(0, inv)] ∧ inv.running = [0] ∧ thread.state ≠ .stopped ∧ h.att? 0 = some (att 0) ∧ h.grp? 1 = some group ∧ inv.start + group.cfg.patience + 1 ≤ h.time.tick ∧
    (onWord 0 thread).time.tick < inv.start + group.cfg.patience + 1 := by decide +kernel
theorem witness_group_stop : let h : Hw := { grouped { group1 (gen0 none) with stop := some (4, 3) } with time := { tick := 5 } }
    h.grp? 1 = some { group1 (gen0 none) with stop := some (4, 3) } ∧ 4 < h.time.tick ∧ (gen0 none).status ≤ 6 ∧ (group1 (gen0 none)).cfg.job < 4096 := by decide +kernel

/-! ### Fabric memory -/

/-- A SNAP_WRITE of four bytes at an offset of rank 0's shard, of bit 47 set for the record, and a SNAP_READ of four. -/
def snapWrite (hi low : Nat) : Pkt := mkPkt [w32 (4 + 7 * 2 ^ 22), w32 (7 * 2 ^ 20), 0, 0, 0, 0, w32 (2 ^ 16 + hi), w32 low] [1, 2, 3, 4]
def snapRead (low : Nat) : Pkt := mkPkt [w32 (8 * 2 ^ 22), w32 (7 * 2 ^ 20), 0, 0, 0, 0, w32 (2 ^ 16), w32 low, 4] []
def atNode (x : Part) (k : Pkt) : Hw := { hwPart false .opened with mem := { parts := [(2, x)] }, mesh := { hwRun.mesh with nodes := [(nodeRouter 7, [meshPkt k])] } }
theorem witness_snap_write : let k := snapWrite 0 4092
    let h := atNode (partOf false .opened) k
    tget [] h.mesh.nodes (nodeRouter 7) = [meshPkt k] ∧ wholeIn [meshPkt k] (meshPkt k) = true ∧ k.ptype = 7 ∧ k.len = 4 ∧ h.partOf k = some (2, partOf false .opened) ∧
    h.part? 2 = some (partOf false .opened) ∧ (snapOffsetOf k).testBit 47 = false ∧ snapOffsetOf k % 2 ^ 47 + k.len ≤ (partOf false .opened).shardBytes 0 := by decide +kernel
theorem witness_snap_write_out : (partOf false .opened).shardBytes 0 < snapOffsetOf (snapWrite 0 4096) % 2 ^ 47 + 4 ∧ (snapOffsetOf (snapWrite 0x8000 0)).testBit 47 = true ∧
    (partOf true .opened).buddy = true ∧ snapOffsetOf (snapWrite 0x8000 0) % 2 ^ 47 + 4 ≤ recordArea (partOf true .opened).ranks ∧ hwRun.partOf (snapWrite 0 0) = none ∧
    (partOf false .sealed).state ≠ .opened := by decide +kernel
theorem witness_snap_read : let x : Part := { partOf false .sealed with checked := [(0, 0)] }
    let k := snapRead 4092
    k.ptype = 8 ∧ k.word 8 = 4 ∧ (atNode x k).partOf k = some (2, x) ∧ snapOffsetOf k % 2 ^ 47 + 4 ≤ x.shardBytes 0 ∧ [(0, 0)].any x.isFailed = false ∧
    [(0, 0)].any (x.checkChunks [(0, 0)]).isFailed = false ∧ [(0, 0)].any ({ x with failed := [(0, 0)] } : Part).isFailed = true ∧
    (List.range ((4092 + 4 - 1) / chunkBytes + 1 - 4092 / chunkBytes)).map (fun c => (0, 4092 / chunkBytes + c)) = [(0, 0)] ∧ (partOf false .incomplete).state ≠ .sealed := by decide +kernel
def closing (verify : Bool) : Closing := { ch := some 0, tick := 1, expected := 4096, deadline := 9, verify := verify }
theorem witness_closing : let x : Part := { partOf false .sealing with closing := some (closing false) }
    (hwPart false .opened).part? 2 = some (partOf false .opened) ∧ x.closing = some (closing false) ∧ x.state = .sealing ∧ (closing false).verify = false ∧ x.buddy = false ∧ x.mirror = none ∧
    (closing true).verify = true ∧ (partOf true .opened).received < (closing false).expected ∧ ({ partOf true .opened with received := 4096 } : Part).received = (closing false).expected ∧
    (closing false).deadline ≤ 9 := by decide +kernel

def echoReq (count : Nat) : Pkt := mkPkt [w32 (9 * 2 ^ 22 + 2 * 2 ^ 26), w32 (7 * 2 ^ 20), 0, w32 (2 ^ 19), 0, 0, w32 count] []
theorem witness_echo : let k := echoReq 1
    let r : EchoRegion := { stack := 0, mib := 1, entries := [{ gen := 0, chunk := 0, pkt := packet 3 }] }
    let h : Hw := { grouped group with mem := { echo := [(1, r)] }, mesh := { hwRun.mesh with nodes := [(nodeRouter 0, [meshPkt k])] } }
    k.ptype = 9 ∧ k.grp = 1 ∧ h.grp? 1 = some group ∧ tget? h.mem.echo 1 = some r ∧ k.word 6 = 1 ∧ (echoReq 0).word 6 = 0 ∧
    r.served.any (fun e => decide (e.1 = k.chunk ∧ h.time.tick ≤ e.2 + group.cfg.patience)) = false ∧
    (r.entries.find? (fun e => decide (e.chunk = k.chunk ∧ e.gen % 2 ^ 16 = k.gen))).isSome = true ∧
    ({ r with served := [(0, 0)] } : EchoRegion).served.any (fun e => decide (e.1 = k.chunk ∧ h.time.tick ≤ e.2 + group.cfg.patience)) = true ∧
    ({ r with entries := [] } : EchoRegion).entries = [] := by decide +kernel
theorem witness_wipe : let h : Hw := { hwRun with mem := { hbms := [(1, { wiping := [(0, 4096)] })] } }
    (h.stack 1).wiping = [(0, 4096)] ∧ (h.stack 0).wiping = [] ∧ (hwPart false .deleting).mem.parts = [(2, partOf false .deleting)] ∧ (partOf false .deleting).stack = 0 ∧
    (partOf false .deleting).state = .deleting := by decide +kernel
theorem witness_rollback_end : let h : Hw := { grouped group with jobs := [(7, { running := some (3, 2, [1]) })], time := { tick := 5 } }
    (h.job 7).running = some (3, 2, [1]) ∧ h.time.slot = 0 ∧ h.mesh.flipping = false ∧ 3 + 2 ≤ h.time.tick ∧ (∀ e ∈ h.groups, e.2.cfg.job = 7 → e.2.wipes = []) ∧ (h.job 7).flipping = false ∧ 1 ∉ (h.job 7).again ∧
    4 < 3 + 2 ∧ ({ group with wipes := [{ addr := 0, granules := 1, descs := 1 }] } : Group).wipes ≠ [] := by decide +kernel

/-! ### The collector, power, resets, the edges, pins -/

/-- A part whose fault state is f. -/
def faulty (f : Faults) : Hw := { hwRun with faults := f, time := { base := 16001 } }
theorem witness_force : (asking 0 (req 0x0B02 [0x1202])).Asks 0 0x0B02 (req 0x0B02 [0x1202]) ∧ sourceTop 0x999 = none ∧ fld [(0x203 : Word)] 0 12 12 = 0 ∧ 0x203 ∈ derivedSources ∧
    (sourceTop 0x202).isSome = true ∧ 0x202 ∉ derivedSources ∧ fld [(0x1203 : Word)] 0 12 12 = 1 ∧
    forceUnitOk 0x202 (unitNo 4 143) = true ∧ forceUnitOk 0x202 (unitNo 4 144) = false ∧ fld [(0x40202 : Word)] 0 18 16 = 4 ∧ fld [(0x10202 : Word)] 0 18 16 = 1 ∧ fld [(0x202 : Word)] 0 18 16 = 0 :=
  ⟨asks 0 _ _ rfl rfl (by decide), by decide +kernel⟩
theorem witness_readmit : (asking 15 (req 0x0B04 [0x4003])).Asks 15 0x0B04 (req 0x0B04 [0x4003]) ∧ fld [(0xFFF : Word)] 0 15 0 / 4096 = 0 ∧
    unitExists (unitNo 4 144) = false ∧ unitExists (unitNo 4 143) = true ∧ hwRun.isFenced (unitNo 4 3) = false ∧ (faulty { fenced := [unitNo 4 3] }).isFenced (unitNo 4 3) = true :=
  ⟨asks 15 _ _ rfl rfl (by decide), by decide +kernel⟩
theorem witness_test_done : let h := { asking 0 (req 0x0B04 [0x4003]) with faults := { tests := [{ unit := unitNo 4 3, ch := 0 }] } }
    h.faults.tests = [{ unit := unitNo 4 3, ch := 0 }] ∧ unitNo 4 3 / 4096 ≠ 10 ∧
    (let k := h.modMesh (fun m => { m with fenced := (List.range 4).map nodeRouter })
     (∀ n, n < 4 → k.routerOut (nodeRouter (4 * (unitNo 10 0 % 4096) + n)) = true) ∧ unitNo 10 0 / 4096 = 10) ∧ ({ unit := unitNo 4 3, ch := 0 } : BuiltinTest).passed = false ∧ (h.chan 0).cur = some (req 0x0B04 [0x4003]) := by decide +kernel
theorem witness_readmit_router : (hwRun.modMesh (fun m => { m with fenced := [9] })).isFenced (unitNo 5 9) = false ∧ unitNo 5 9 / 4096 = 5 ∧ unitNo 5 9 % 4096 = 9 := by decide +kernel
theorem witness_quiet : let h := faulty { state := .fault }
    h.time.slot = 0 ∧ h.faults.state = .fault ∧ h.quiet = true ∧ ({ h with time := { base := 15999 } } : Hw).quiet = false ∧ hwRun.faults.state ≠ .fault := by decide +kernel
theorem witness_safe : let h := faulty { state := .safe, rewriteDone := true }
    h.time.slot = 0 ∧ h.inLehr = false ∧ h.workingSetMissing = [] ∧ h.faults.state = .safe ∧ h.faults.missing = [] ∧ h.faults.railsOut = [] ∧ h.faults.rewriteDone = true ∧ h.quiet = true ∧ (faulty { state := .safe }).faults.rewriteDone = false ∧
    (faulty { state := .safe, missing := [18] }).faults.missing ≠ [] ∧ 2 ≤ (faulty { state := .safe, rewriteFails := 2 }).faults.rewriteFails := by decide +kernel
theorem witness_strike : let h := faulty { strikes := [(unitNo 4 3, 2)] }
    tget 0 h.faults.strikeBase (unitNo 4 3) + 160 * 128 * h.faults.quietMs ≤ h.quietNow ∧ (faulty { strikes := [(unitNo 4 3, 2)], strikeBase := [(unitNo 4 3, 16000 * 128)] }).strikesOf (unitNo 4 3) ≠ 0 := by
  decide +kernel
theorem witness_mp_lost : hwRun.powered = true ∧ hwRun.isFenced (unitNo 11 hwRun.ctl.activeMp) = false ∧ hwRun.ctl.phase ≠ .rom ∧ hwRun.ctl.phase ≠ .booting ∧
    (hwRun.modCtl (fun c => { c with phase := .booting })).ctl.phase = .booting ∧ hw0.powered = false := by decide +kernel
/-- Management processor 0 is lost while channel 0 holds a request that was due. -/
def mpGone : Hw :=
  { (asking 0 (req 0x0B04 [0x4003])).modChan 0 (fun x => { x with due := some { tick := 0 } }) with
    faults := { mpLost := true, fenced := [unitNo 11 0] }, time := { tick := 5 } }
theorem witness_takeover : mpGone.faults.mpLost = true ∧ mpGone.ctl.activeMp ≤ 1 ∧ mpGone.isFenced (unitNo 11 (1 - mpGone.ctl.activeMp)) = false ∧ mpGone.time.slot = 0 ∧ mpGone.faults.mpLostTick < mpGone.time.tick ∧ (mpGone.chan 0).reply = none ∧ (req 0x0B04 [0x4003]).opcode ≠ 0x0E03 ∧
    (mpGone.chan 0).cur = some (req 0x0B04 [0x4003]) ∧ ((mpGone.chan 0).due.elim 9 (·.tick)) ≤ mpGone.time.tick ∧ (req 0x0B04 [0x4003]).latched = false ∧ mpGone.ctl.activation = none ∧
    (let h := { mpGone with faults := { mpGone.faults with mpLostTick := 5 }, ctl := { mpGone.ctl with standbyReady := true } }
     h.ctl.standbyReady = true ∧ h.time.tick ≤ h.faults.mpLostTick) ∧ hwRun.faults.mpLost = false := by decide +kernel

/-- A part with the power state p. -/
def powering (p : Power) : Hw := { hwRun with power := p }
theorem witness_limiter : ({ window := [11500, 11500] } : Power).overLimit = true ∧ ({ window := [11500, 11500] } : Power).heavier = 0 ∧ ({} : Power).throttle.length = 2 ∧
    ({ window := [10000, 10000] } : Power).overLimit = false ∧ ({ window := [10000, 10000] } : Power).underLimit = true ∧ ({ window := [11000] } : Power).overLimit = false ∧
    ({ window := [11000] } : Power).underLimit = false ∧ (1 : Nat) ≠ ({} : Power).heavier := by decide +kernel
theorem witness_auto_clock : let h := powering { levels := [1, 3], clockNext := [(0, 0, true), (0, 1, false)] }
    h.time.slot = 0 ∧ h.faults.mpLost = false ∧ h.eventsOn = true ∧ h.inLehr = false ∧ h.faults.state ≠ .safe ∧ (0, 0, true) ∈ h.power.clockNext ∧ (0, 1, false) ∈ h.power.clockNext ∧
    nth h.power.levels 0 < 3 ∧ 3 ≤ nth h.power.levels 1 ∧ nth h.power.setLevels 1 < nth h.power.levels 1 ∧ h.power.levels.length = 2 ∧ h.power.persistTold = false ∧
    ((h.modPower (fun p => { p with clockNext := [(0, 1, false)] })).setLevel 0 2 true).fitFails = none ∧ hwRun.power.clockNext = [] := by decide +kernel
/-- After 64 throttled ticks the heavier half goes down at the next tick, after 1,024 free ones a half goes up (R514). -/
theorem test_auto_clock : (({ throttledRun := 64, window := [11500, 11500] } : Power).decide_ 9).clockNext = [(10, 0, true)] ∧ (({ throttledRun := 63 } : Power).decide_ 9).clockNext = [] ∧
    (({ clearRun := 1024, levels := [0, 2] } : Power).decide_ 9).clockNext = [(10, 1, false)] := by decide +kernel
/-- A context whose load does not fit a complex at the lowest clock. -/
def heavyGroup : Group := { group1 (gen0 none) with cfg := { groupCfg with perTick := 600, chunks := 600 } }
theorem witness_auto_clock_fit : let h : Hw := { grouped heavyGroup with power := { levels := [2, 0] } }
    nth h.power.levels 0 < 3 ∧ (h.setLevel 0 3 true).fitFails ≠ none := by decide +kernel
def temps (t : Int) : Power := { temps := List.replicate 18 t }
theorem witness_thermal : (95 : Int) ≤ (temps 95).temps.getD (16 + 1) 0 ∧ (temps 94).temps.getD (16 + 1) 0 < 95 ∧ (temps 89).temps.getD 16 0 < 90 ∧ (90 : Int) ≤ (temps 90).temps.getD 16 0 ∧
    3 ∉ (temps 105).hotDies ∧ ((temps 105).throttleC : Int) ≤ (temps 105).temps.getD 3 0 ∧ (temps 104).temps.getD 3 0 < (temps 104).throttleC := by decide +kernel
/-- Asleep since tick 9 with port 4 UP at entry and a wake tick; waking, with the wake command of channel 2 unanswered. -/
def asleep : Lehr := { phase := .asleep 9, told := false, onTick := true, wakeTick := 40, ports := [4], onSignal := true }
def wakingHw : Hw := { (asking 2 { req 0x0D02 [] with waiting := false }).modPort 4 (fun x => { x with lanes := { x.lanes with state := 2 } }) with
  power := { lehr := { phase := .waking 41, ports := [4, 5], signals := [4] } } }
theorem witness_lehr : asleep.phase = .asleep 9 ∧ asleep.told = false ∧ asleep.onTick = true ∧ (40 : Nat) ≤ 40 ∧ (39 : Nat) < asleep.wakeTick ∧ hwRun.time.slot = 0 ∧ 4 ∈ asleep.ports ∧ 4 ∉ asleep.signals ∧
    wakingHw.power.lehr.phase = .waking 41 ∧ wakingHw.isV16 4 = false ∧ (wakingHw.port 4).lanes.state = 2 ∧ 5 ∉ wakingHw.power.lehr.signals ∧ wakingHw.isV16 5 = false ∧
    (wakingHw.chan 2).cur = some { req 0x0D02 [] with waiting := false } ∧ (wakingHw.chan 2).reply = none ∧ (wakingHw.chan 2).due.isNone ∧ hwRun.power.lehr.phase = .awake := by decide +kernel
/-- Complex 3 is to be reset: its ports and its address have moved away. -/
def resetting : PartReset := { kind := 1, index := 3, force := false, begun := true }
def moved3 : Hw :=
  { powering { resets := [resetting] } with
    ports := (List.range 264).filterMap (fun p => if primaryHome p = 3 then some (p, { portInit p with atAlt := true }) else none)
    mesh := { hwRun.mesh with unmapped := [3] } }
theorem witness_reset : moved3.power.resets = [resetting] ∧ resetting.begun = true ∧ resetting.kind = 1 ∧ resetting.index = 3 ∧ moved3.time.slot = 0 ∧ resetting.applied = false ∧ (∀ p < 264, moved3.home p ≠ 3) ∧
    3 ∈ moved3.mesh.unmapped ∧ moved3.mesh.reasons.getLsbD 1 = false ∧ moved3.mesh.flipNext = none ∧ moved3.holdsSlot 3 = false ∧ (∃ p < 264, hwRun.home p = 3) ∧
    (grouped (group1 (gen0 (some chunk0)))).holdsSlot 3 = true ∧ 2 ≤ ({ resetting with outcome := 2 } : PartReset).outcome ∧
    (let r : PartReset := { kind := 3, index := 7, force := true, begun := true, applied := true }
     r.kind = 3 ∧ r.index < 8 ∧ r.applied = true ∧ ((powering { resets := [r] }).port 224).lanes.state = 0) := by decide +kernel

theorem witness_pins : hwRun.pins.resetLow = false ∧ hw0.pins.resetLow = true ∧ 10 ∉ hwRun.faults.railsOut ∧ 3 ∈ (faulty { railsOut := [3] }).faults.railsOut ∧ (faulty { railsOut := [3] }).faults.railsOut ≠ [] ∧
    hwRun.faults.railsOut = [] ∧ ([3] : List Nat).filter (· ≠ 3) = [] ∧ (powering { temps := List.replicate 20 125 }).powered = true ∧ (125 : Int) ≤ (powering { temps := List.replicate 20 125 }).power.temps.getD 19 0 ∧
    hwRun.power.temps.getD 19 0 < 125 := by decide +kernel
/-- Reset is released, with and without the strap that holds the part in its ROM. -/
def released (straps : Nat) : Hw := { hw0 with pins := { hw0.pins with resetLow := false, straps := straps }, ctl := { hw0.ctl with phase := .rom } }
theorem witness_boot : (released 1).powered = true ∧ (released 1).ctl.phase = .rom ∧ (released 1).bootPick {} = none ∧ (released 0).faults.recorded = [] ∧ (released 0).faults.mpFenced.all id = false := by
  decide +kernel
theorem witness_reset_control : let h := hwRun.modCtl (fun c => { c with resetKind := 1 })
    h.accessible = true ∧ h.ctl.resetKind = 1 ∧ (hwRun.modCtl (fun c => { c with resetKind := 2 })).ctl.resetKind = 2 ∧ hwRun.ctl.resetKind ≠ 1 ∧ hwRun.ctl.resetKind ≠ 2 := by decide +kernel
theorem witness_lc : let h := { hwRun with ctl := { hwRun.ctl with lcTarget := some .provisioned }, power := { hwRun.power with lcReset := true } }
    h.ctl.lcTarget = some .provisioned ∧ h.power.lcReset = true ∧ h.ctl.phase = .running ∧ hwRun.ctl.lcTarget = none := by decide +kernel
theorem witness_register_write : hwRun.accessible = true ∧ hw0.accessible = false ∧ (hwRun.chan 11).busy = false ∧ ((asking 11 (req 1 [])).chan 11).busy = true := by decide +kernel
/-- A word written to the end of the last host channel's request buffer lies there, and SCRATCH keeps what is written. -/
theorem test_register_write : after (exec (.registerWrite (0x10000 + 0x2000 * 11 + 4092) 4 7) (st hwRun)) (fun h => (tget 0 (h.chan 11).req 1023, (h.chan 11).busy)) = some (7, false) ∧
    after (exec (.registerWrite 0x14 4 0xAA55) (st hwRun)) (fun h => h.ctl.scratch) = some 0xAA55 := by decide +kernel

theorem witness_edge : hwRun.powered = true ∧ hwRun.time.slot < 127 ∧ 127 ≤ ({ hwRun with time := { slot := 127 } } : Hw).time.slot ∧ hw0.powered = false ∧ hwRun.time.stepTo = none ∧
    ({ hwRun with mesh := { hwRun.mesh with flipNext := some 1 } } : Hw).mesh.flipNext = some 1 ∧ hwRun.mesh.flipNext = none ∧
    ({ hwRun with mesh := { hwRun.mesh with flipNext := some 1 } } : Hw).mesh.flipAt ≤ hwRun.time.tick ∧ hwRun.time.tick < ({ hwRun with mesh := { hwRun.mesh with flipNext := some 1, flipAt := 7 } } : Hw).mesh.flipAt ∧
    (hwRun.modTime (fun t => { t with stepTo := some (some 77) })).time.stepTo = some (some 77) := by decide +kernel
theorem witness_edge_patience : let x := group1 (gen0 (some chunk0))
    let h := grouped x
    h.grp? 1 = some x ∧ h.counting x = true ∧ x.plan = none ∧ x.gen? 0 = some (gen0 (some chunk0)) ∧ tget? (gen0 (some chunk0)).open_ 0 = some chunk0 ∧ h.still chunk0 = false ∧ chunk0.ending = false ∧
    h.counting { x with state := .idle } = false ∧ tget? (onWord 0 { thread with state := .waitTick false }).progs.threads 0 = some { thread with state := .waitTick false } := by decide +kernel
/-- Queue 3 of port 5 with a committed shaper. -/
def shaped : Hw := hwRun.modPort 5 (fun x => { x with queues := [(3, { nextShaper := some { enable := true, rate := 8000, burst := 16384 } })] })
theorem witness_refill : (tget? (shaped.port 5).queues 3).isSome = true ∧ (tget? ((shaped.port 5).modQueue 3 (fun q => { q with nextShaper := none })).queues 3).any (·.nextShaper.isNone) = true := by
  decide +kernel
theorem witness_tap : hw0.pins.resetLow = true ∧ ¬ (hwRun.pins.resetLow = true ∨ ({ lc := .provisioned } : Fuses).lc = .manufacture) := by decide +kernel

/-! ### The queue of commands -/

theorem witness_front : let s : State := { State.reset with pending := [.refclkLoss, .bypass] }
    s.pending = .refclkLoss :: [.bypass] ∧ State.reset.pending = [] ∧ (Instr.refclkLoss).wf = true ∧ (264 : Nat) ≤ 264 := by decide +kernel
/-- A step takes the first command and leaves the second. -/
theorem test_step_order : (match step { State.reset with pending := [.idcode, .bypass] } with | .next t => (t.pending, t.hw.pins.tdo) | _ => ([], 1)) = ([Instr.bypass], 0x17020A3F) := by decide +kernel
theorem test_step_idle : step State.reset = .next State.reset := rfl

/-! ### What the outside reads -/

/-- BAR0 (R9, R43): the identity, zero between the regions, all ones for a read of two bytes and for one that is not aligned. -/
theorem test_bar0_read : hwRun.bar0Read {} 0 4 = 0x70201F3C ∧ hwRun.bar0Read {} 0x800 4 = 0 ∧ hwRun.bar0Read {} 0 2 = 0xFFFFFFFF ∧ hwRun.bar0Read {} 2 4 = 0xFFFFFFFF := by
  decide +kernel
/-- A message of 130 bytes leaves over I3C in units of 64, 64 and 2 bytes (R48). -/
theorem test_mctp_units : (mctpUnits 0 256 (List.replicate 130 0)).map List.length = [64, 64, 2] := by decide +kernel
/-- A control word that returns 3 flits on VC 5 has even parity; one that returns none fails the check (Table 6.1). -/
theorem test_control_word : controlOk (controlWord none (some (5, 3)) none) = true ∧ controlOk (controlWord none (some (5, 0)) none) = false := by decide +kernel

end Sys2Proof.Tests
end

section
/-!
Which tick a staging set commits at (R58, R64, R89).
-/

namespace Sys2Proof.Machine
open Sys2Proof

/-! ### Eligible ticks and alignment boundaries -/

/-- Eligible from R58's first eligible tick on: to come, and at least 8 slots after the request's slot. -/
theorem firstEligible_le_iff (h : Hw) (arrived t : Nat) : h.firstEligible arrived ≤ t ↔ h.time.tick < t ∧ arrived + 8 ≤ 128 * t := by
  unfold Hw.firstEligible cdiv
  omega

theorem le_nextBoundary (h : Hw) (t : Nat) : t ≤ h.nextBoundary t := by
  unfold Hw.nextBoundary
  cases (List.range 33).find? (fun k => h.boundaryTick (t + k)) with
  | none => exact Nat.le_refl t
  | some k => exact Nat.le_add_right t k

/-- No boundary from t on lies before the next one. -/
theorem nextBoundary_le {h : Hw} {t u : Nat} (htu : t ≤ u) (hu : h.boundaryTick u = true) : h.nextBoundary t ≤ u := by
  unfold Hw.nextBoundary
  cases hfind : (List.range 33).find? (fun k => h.boundaryTick (t + k)) with
  | none => exact htu
  | some k =>
    obtain ⟨-, -, hbefore⟩ := List.find?_range_eq_some.mp hfind
    have hk : k ≤ u - t := Nat.le_of_not_lt fun hlt => by
      have hno := hbefore (u - t) hlt
      simp [Nat.add_sub_cancel' htu, hu] at hno
    show t + k ≤ u
    omega

/-- Where the tick's length divides 32 and the base count, 33 ticks in a row hold a boundary: BASE_COUNT goes up by the length, so by 32 in 32 / length ticks. -/
theorem exists_boundaryTick {h : Hw} {t : Nat} (ht : h.time.tick ≤ t) (h32 : h.time.mult ∣ 32) (hbase : h.time.mult ∣ h.time.base) :
    ∃ k < 33, h.boundaryTick (t + k) = true := by
  obtain ⟨n, hn⟩ := h32
  obtain ⟨b, hb⟩ := hbase
  have hnpos : 0 < n := Nat.pos_of_ne_zero fun h0 => by simp [h0] at hn
  have hnle : n ≤ 32 := Nat.le_of_dvd (by decide) ⟨h.time.mult, by rw [hn, Nat.mul_comm]⟩
  let x := b + (t - h.time.tick)
  have hmod : x % n < n := Nat.mod_lt x hnpos
  have hround : x + (n - x % n) = n * (x / n + 1) := by
    have := Nat.div_add_mod x n
    rw [Nat.mul_succ]
    omega
  refine ⟨n - x % n, by omega, ?_⟩
  have hcount : h.time.base + (t + (n - x % n) - h.time.tick) * h.time.mult = 32 * (x / n + 1) := by
    calc h.time.base + (t + (n - x % n) - h.time.tick) * h.time.mult
        = h.time.mult * (x + (n - x % n)) := by
          rw [hb, Nat.sub_add_comm ht, Nat.mul_comm _ h.time.mult, ← Nat.mul_add, ← Nat.add_assoc]
      _ = 32 * (x / n + 1) := by rw [hround, ← Nat.mul_assoc, ← hn]
  simp [Hw.boundaryTick, hcount]

theorem nextBoundary_boundary {h : Hw} {t : Nat} (ht : h.time.tick ≤ t) (h32 : h.time.mult ∣ 32) (hbase : h.time.mult ∣ h.time.base) :
    h.boundaryTick (h.nextBoundary t) = true := by
  obtain ⟨k, hk, hboundary⟩ := exists_boundaryTick ht h32 hbase
  unfold Hw.nextBoundary
  cases hfind : (List.range 33).find? (fun k => h.boundaryTick (t + k)) with
  | none => exact absurd hboundary (List.find?_eq_none.mp hfind k (List.mem_range.mpr hk))
  | some j => exact List.find?_some (p := fun k => h.boundaryTick (t + k)) hfind

/-! ### The tick of a set -/

/-- The first tick from t on at which a set may take effect where no handover is set: a boundary for a set that changes the tick's length (R89). -/
def Hw.firstFrom (h : Hw) (bounded : Bool) (t : Nat) : Nat := if bounded then h.nextBoundary t else t

theorem le_firstFrom (h : Hw) (bounded : Bool) (t : Nat) : t ≤ h.firstFrom bounded t := by
  cases bounded
  · exact Nat.le_refl t
  · exact le_nextBoundary h t

theorem firstFrom_le {h : Hw} {bounded : Bool} {t u : Nat} (htu : t ≤ u) (hu : bounded = true → h.boundaryTick u = true) : h.firstFrom bounded t ≤ u := by
  cases bounded
  · exact htu
  · exact nextBoundary_le htu (hu rfl)

/-- The tick a set without a target commits at: the first, or the first after it where that is a firmware handover's (R64). -/
def Hw.firstCommit (h : Hw) (bounded : Bool) (arrived : Nat) : Nat :=
  let t := h.firstFrom bounded (h.firstEligible arrived)
  if h.handoverTick = some t then h.firstFrom bounded (t + 1) else t

/-- It is the first tick from an eligible one on. -/
theorem firstCommit_eq_firstFrom (h : Hw) (bounded : Bool) (arrived : Nat) :
    ∃ u, h.firstEligible arrived ≤ u ∧ h.firstCommit bounded arrived = h.firstFrom bounded u := by
  unfold Hw.firstCommit
  dsimp only
  split
  · exact ⟨_, Nat.le_succ_of_le (le_firstFrom h bounded _), rfl⟩
  · exact ⟨_, Nat.le_refl _, rfl⟩

theorem firstEligible_le_firstCommit (h : Hw) (bounded : Bool) (arrived : Nat) : h.firstEligible arrived ≤ h.firstCommit bounded arrived := by
  obtain ⟨u, hu, heq⟩ := firstCommit_eq_firstFrom h bounded arrived
  exact heq ▸ hu.trans (le_firstFrom h bounded u)

theorem firstCommit_boundary {h : Hw} (arrived : Nat) (h32 : h.time.mult ∣ 32) (hbase : h.time.mult ∣ h.time.base) :
    h.boundaryTick (h.firstCommit true arrived) = true := by
  obtain ⟨u, hu, heq⟩ := firstCommit_eq_firstFrom h true arrived
  obtain ⟨hcoming, -⟩ := (firstEligible_le_iff h arrived u).mp hu
  exact heq ▸ nextBoundary_boundary (Nat.le_of_lt hcoming) h32 hbase

theorem handoverTick_ne_firstCommit (h : Hw) (bounded : Bool) (arrived : Nat) : h.handoverTick ≠ some (h.firstCommit bounded arrived) := by
  unfold Hw.firstCommit
  dsimp only
  split
  · next hhand =>
    rw [hhand]
    have hafter := le_firstFrom h bounded (h.firstFrom bounded (h.firstEligible arrived) + 1)
    exact fun heq => by injection heq; omega
  · next hhand => exact hhand

/-- No tick that the set could commit at lies before it. -/
theorem firstCommit_le {h : Hw} {bounded : Bool} {arrived u : Nat} (hu : h.firstEligible arrived ≤ u) (hhand : h.handoverTick ≠ some u)
    (hboundary : bounded = true → h.boundaryTick u = true) : h.firstCommit bounded arrived ≤ u := by
  have hfirst := firstFrom_le hu hboundary
  unfold Hw.firstCommit
  dsimp only
  split
  · next htaken =>
    have hne : h.firstFrom bounded (h.firstEligible arrived) ≠ u := fun heq => hhand (heq ▸ htaken)
    exact firstFrom_le (Nat.lt_of_le_of_ne hfirst hne) hboundary
  · exact hfirst

/-- Whether a set changes the tick's length (TICK_CONFIG_SET, R89). -/
def setsTick (set : List Staged) : Bool := set.any (fun q => decide (q.opcode = 0x0101))

theorem commitTick_untargeted (h : Hw) (arrived : Nat) (set : List Staged) : h.commitTick arrived 0 set = .inl (h.firstCommit (setsTick set) arrived) := by
  show (if h.handoverTick = some _ then _ else _) = _
  unfold Hw.firstCommit
  exact (apply_ite Sum.inl _ _ _).symm

/-- How far ahead of the current tick a target lies, modulo 2^32. -/
def Hw.ahead (h : Hw) (target : Nat) : Nat := (target + 2 ^ 32 - h.time.tick % 2 ^ 32) % 2 ^ 32

/-- A set with a target commits at it when it is eligible, at most 2^24 ticks ahead, a boundary where that is needed, and no handover's. -/
theorem commitTick_targeted {h : Hw} {arrived target t : Nat} {set : List Staged} (htarget : target ≠ 0) (ht : h.commitTick arrived target set = .inl t) :
    t = h.time.tick + h.ahead target ∧ h.firstEligible arrived ≤ t ∧ h.ahead target ≤ 2 ^ 24 ∧
      (setsTick set = true → h.boundaryTick t = true) ∧ h.handoverTick ≠ some t := by
  unfold Hw.commitTick at ht
  rw [if_neg htarget] at ht
  change (if _ then _ else if _ then _ else if _ then _ else _) = _ at ht
  split at ht
  · contradiction
  · next htime =>
    split at ht
    · contradiction
    · next hbound =>
      split at ht
      · contradiction
      · next hhand =>
        obtain rfl : h.time.tick + h.ahead target = t := Sum.inl.inj ht
        obtain ⟨hfirst, hfar⟩ := not_or.mp htime
        exact ⟨rfl, Nat.le_of_not_lt hfirst, Nat.le_of_not_lt hfar, fun hset => by_contra fun hno => hbound ⟨hset, hno⟩, hhand⟩

/-- A target that is not eligible, or lies more than 2^24 ticks ahead, has passed. -/
theorem commitTick_passed {h : Hw} {arrived target : Nat} {set : List Staged} (htarget : target ≠ 0)
    (hpassed : h.ahead target = 0 ∨ 128 * (h.time.tick + h.ahead target) < arrived + 8 ∨ 2 ^ 24 < h.ahead target) :
    h.commitTick arrived target set = .inr (stTickPassed, 0) := by
  have hlate : h.time.tick + h.ahead target < h.firstEligible arrived ∨ 2 ^ 24 < h.ahead target := by
    rw [← not_le, firstEligible_le_iff]
    omega
  unfold Hw.commitTick
  rw [if_neg htarget]
  exact if_pos hlate

theorem answered_staging (h : Hw) (c st d : Nat) (r : Request) (out : List Word) : ((h.answered c r st d out).chan c).staging = (h.chan c).staging := by
  simp [Hw.answered]

/-- A COMMIT of a set for which no tick can be chosen is answered with the failure. -/
theorem execCommit_of_fails {s : State} {c st d : Nat} {r : Request} (hc : c < 16) (ha : s.hw.Asks c 0x0002 r) (hset : (s.hw.chan c).staging ≠ [])
    (hfail : s.hw.commitTick r.arrived r.target (s.hw.chan c).staging = .inr (st, d)) :
    execCommit c s = .next (s.withHw (s.hw.answered c r st d [])) := by
  obtain ⟨-, hcur, -⟩ := id ha
  unfold execCommit
  rw [atUnit_in hc, onHw_next, withRequest_asks ha]
  simp only [if_neg hset, hfail, reply_eq hcur]

/-- Settles O24: the first commit tick without a target, and the conditions of one with a target and of TICK_PASSED. -/
theorem commitTickChosen : Obligations.CommitTickChosen := by
  unfold Obligations.CommitTickChosen
  refine ⟨fun h arrived target set t ht => ?_, fun s c r hc ha hset htarget hpassed => ?_⟩
  · by_cases htarget : target = 0
    · subst htarget
      rw [commitTick_untargeted] at ht
      obtain rfl := Sum.inl.inj ht
      obtain ⟨hcoming, height⟩ := (firstEligible_le_iff h arrived _).mp (firstEligible_le_firstCommit h (setsTick set) arrived)
      exact ⟨hcoming, height, handoverTick_ne_firstCommit h _ arrived,
        fun _ u hu hu8 hhand hboundary => firstCommit_le ((firstEligible_le_iff h arrived u).mpr ⟨hu, hu8⟩) hhand hboundary,
        fun _ hbounded h32 hbase => by rw [show setsTick set = true from hbounded]; exact firstCommit_boundary arrived h32 hbase,
        fun hne => absurd rfl hne⟩
    · obtain ⟨rfl, heligible, hfar, hboundary, hhand⟩ := commitTick_targeted htarget ht
      obtain ⟨hcoming, height⟩ := (firstEligible_le_iff h arrived _).mp heligible
      exact ⟨hcoming, height, hhand, fun h0 => absurd h0 htarget, fun h0 => absurd h0 htarget,
        fun _ => ⟨by unfold Hw.ahead; omega, by omega, hboundary⟩⟩
  · exact ⟨execCommit_of_fails hc ha hset (commitTick_passed htarget hpassed), answered_staging s.hw c _ _ r _⟩

end Sys2Proof.Machine
end

section
/-!
Which commands can change the fuses, and by what (R62, R66, R69): every meaning but two is made of the hardware's liftings alone.
-/

namespace Sys2Proof.Machine
open Sys2Proof

/-! ### Meanings that change the hardware alone -/

/-- An outcome in which nothing but the hardware differs: what `onHw` and `atEdge` give, or what `atUnit` makes of such an outcome. -/
inductive HwOutcome (s : State) : Out → Prop where
  | next (h : Hw) : HwOutcome s (.next (s.withHw h))
  | atUnit (n bound : Nat) {m : State → Out} (hm : HwOutcome s (m s)) : HwOutcome s (atUnit n bound m s)

theorem HwOutcome.fuses_eq {s t : State} {o : Out} (ho : HwOutcome s o) (h : o = .next t) : t.fuses = s.fuses := by
  induction ho with
  | next g => cases h; rfl
  | atUnit n bound _ ih =>
    obtain ⟨-, hrun⟩ | ⟨-, hfault⟩ := atUnit_cases h
    · exact ih hrun
    · contradiction

/-- Every command but the two that are lifted by `onFuses`; the shape of each meaning is read off its definition. -/
theorem exec_hwOutcome {i : Instr} (hroll : ∀ c, i ≠ .antiRollbackAdvance c) (hlc : i ≠ .lcTransitionDone) (s : State) : HwOutcome s (exec i s) := by
  cases i with
  | antiRollbackAdvance c => exact absurd rfl (hroll c)
  | lcTransitionDone => exact absurd rfl hlc
  | _ => repeat constructor

/-! ### The two commands of the fuses -/

theorem onFuses_next (f : Fuses → Hw → Fuses × Hw) (s : State) :
    onFuses f s = .next { s with fuses := (f s.fuses s.hw).1, hw := (f s.fuses s.hw).2 } := rfl

/-- A command that is asked and changes nothing but its channel makes its response. -/
theorem answer_here_asks {h : Hw} {c op : Nat} {r : Request} (ha : h.Asks c op r) (st d : Nat) (out : List Word) :
    h.answer c op (fun _ => (h, st, d, out)) = h.answered c r st d out := by
  obtain ⟨-, hcur, -⟩ := id ha
  exact answer_asks ha rfl hcur

/-- What ANTI_ROLLBACK_ADVANCE asks of a value above the field: neither the running image's SECURITY_VERSION nor a valid other slot's lies below it,
and the field has that many bits. -/
def State.MayAdvance (s : State) (new : Nat) : Prop :=
  new ≤ s.hw.ctl.secVersion ∧ new ≤ 64 ∧ s.hw.imageCheck s.fuses (1 - s.hw.ctl.runningSlot) = 0 ∧ new ≤ (s.hw.imageFacts (1 - s.hw.ctl.runningSlot)).2.1

/-- The field after an ANTI_ROLLBACK_ADVANCE that is asked, and the answer it gives. -/
theorem execAntiRollbackAdvance_of_asks {s : State} {c : Nat} {r : Request} (hc : c < 16) (ha : s.hw.Asks c 0x0E07 r) {new : Nat} (hnew : new = wnat r.payload 0) :
    (s.fuses.antiRoll < new → s.MayAdvance new → execAntiRollbackAdvance c s = .next { s with
      fuses := { s.fuses with antiRoll := new }, hw := s.hw.answered c r stOk 0 [w32 new] }) ∧
    (new ≤ s.fuses.antiRoll → execAntiRollbackAdvance c s = .next (s.withHw (s.hw.answered c r stOk 0 [w32 s.fuses.antiRoll]))) ∧
    (s.fuses.antiRoll < new → ¬ s.MayAdvance new → execAntiRollbackAdvance c s = .next (s.withHw (s.hw.answered c r stRollback s.fuses.antiRoll []))) := by
  have hans := answer_here_asks ha
  obtain ⟨hmp, hcur, hwait, hlatch, hop⟩ := ha
  unfold State.MayAdvance execAntiRollbackAdvance State.withHw
  rw [atUnit_in hc, onFuses_next]
  subst hnew
  refine ⟨fun hlt hmay => ?_, fun hle => ?_, fun hlt hmay => ?_⟩
  · simp [hcur, hwait, hlatch, hop, hmp, hlt, hmay, hans, Nat.not_le.mpr hlt]
  · simp [hcur, hans, hle, Nat.not_lt.mpr hle]
  · simp [hcur, hans, hlt, hmay, Nat.not_le.mpr hlt, Hw.refuse]

/-- Asked or not, ANTI_ROLLBACK_ADVANCE leaves the fuses or raises the field, to 64 at most. -/
theorem execAntiRollbackAdvance_fuses {s t : State} {c : Nat} (h : execAntiRollbackAdvance c s = .next t) :
    t.fuses = s.fuses ∨ ∃ new, s.fuses.antiRoll < new ∧ new ≤ 64 ∧ t.fuses = { s.fuses with antiRoll := new } := by
  obtain ⟨-, hrun⟩ | ⟨-, hfault⟩ := atUnit_cases h
  · rw [onFuses_next] at hrun
    cases hrun
    cases hcur : (s.hw.chan c).cur with
    | none => exact .inl rfl
    | some r =>
      dsimp only
      split
      · next hblow =>
        simp only [decide_eq_true_eq] at hblow
        obtain ⟨-, hlt, -, h64, -⟩ := hblow
        exact .inr ⟨_, hlt, h64, rfl⟩
      · exact .inl rfl
  · contradiction

/-- LC_TRANSITION_DONE leaves the fuses, or takes the life-cycle state to its transition's target, with the device keys and, on entry to IN_SERVICE, the owner-key hash. -/
theorem execLcTransitionDone_fuses {s t : State} (h : execLcTransitionDone s = .next t) :
    t.fuses = s.fuses ∨ s.hw.ctl.lcTarget = some t.fuses.lc ∧
      t.fuses = { s.fuses with lc := t.fuses.lc, deviceKeys := t.fuses.deviceKeys, ownerHash := t.fuses.ownerHash } ∧
      (t.fuses.ownerHash ≠ s.fuses.ownerHash → s.fuses.lc = .provisioned ∧ t.fuses.lc = .inService) := by
  unfold execLcTransitionDone at h
  rw [onFuses_next] at h
  cases h
  cases htarget : s.hw.ctl.lcTarget with
  | none => exact .inl rfl
  | some target =>
    dsimp only
    split
    · exact .inl rfl
    · exact .inr ⟨rfl, rfl, fun hhash => of_not_not fun hne => hhash (if_neg hne)⟩

/-- Settles O31: the command's three answers, and a split of the dispatch by whether a meaning is lifted to the fuses at all. -/
theorem antiRollbackFuses : Obligations.AntiRollbackFuses := by
  unfold Obligations.AntiRollbackFuses
  refine ⟨fun s c r hc ha => execAntiRollbackAdvance_of_asks hc ha rfl, fun i s t h hne => ?_⟩
  by_cases hroll : ∃ c, i = .antiRollbackAdvance c
  · obtain ⟨c, rfl⟩ := hroll
    obtain hsame | ⟨new, hlt, h64, hfuses⟩ := execAntiRollbackAdvance_fuses h
    · exact absurd hsame hne
    · exact .inl ⟨c, rfl, by simp [hfuses, hlt], by simp [hfuses, h64], by simp [hfuses]⟩
  · by_cases hlc : i = .lcTransitionDone
    · subst hlc
      exact .inr ⟨rfl, (execLcTransitionDone_fuses h).resolve_left hne⟩
    · exact absurd ((exec_hwOutcome (not_exists.mp hroll) hlc s).fuses_eq h) hne

end Sys2Proof.Machine
end

section
/-!
A combine instruction run from its command, the numbers of its operands as bit vectors, and words whose fields encode nothing (R349 to R356).
-/

namespace Sys2Proof.Machine
open Sys2Proof

/-! ### From the command to the thread's instruction -/

/-- A command whose instruction ends within its cycles leaves what `retire` says. -/
theorem next_of_done {s : State} {h' : Hw} {t maj func busy : Nat} {c : Ctx} {th : Thread} {ctr : Counters} {f : Hw → Ctx → IRes}
    (hr : s.hw.Runs t maj func c) (ha : c.Affords busy) (hf : f s.hw { c with th := c.after } = .done h' th ctr busy) :
    onHw (fun _ h => h.isa t (2048 * maj + func) f) s = .next (s.withHw (h'.retire c th ctr busy)) := by
  rw [onHw_next, isa_done hr ha hf]

/-- A command whose instruction traps leaves the trap alone. -/
theorem next_of_trap {s : State} {t maj func cause win off : Nat} {c : Ctx} {f : Hw → Ctx → IRes}
    (hr : s.hw.Runs t maj func c) (hf : f s.hw { c with th := c.after } = .trap cause win off) :
    onHw (fun _ h => h.isa t (2048 * maj + func) f) s = .next (s.withHw (s.hw.trap t cause win off)) := by
  rw [onHw_next, isa_trap hr hf]

/-! ### Registers after PC has moved on -/

@[simp] theorem after_sr (c : Ctx) (r : Nat) : c.after.sr r = c.th.sr r := rfl
@[simp] theorem after_pr (c : Ctx) (r : Nat) : c.after.pr r = c.th.pr r := rfl
@[simp] theorem after_win (c : Ctx) (r : Nat) : c.after.win r = c.th.win r := rfl

@[simp] theorem fld_withTh (c : Ctx) (th : Thread) (hi lo : Nat) : ({ c with th := th } : Ctx).fld hi lo = c.fld hi lo := rfl
@[simp] theorem sx_withTh (c : Ctx) (th : Thread) (hi lo : Nat) : ({ c with th := th } : Ctx).sx hi lo = c.sx hi lo := rfl

theorem after_grants {c : Ctx} {r off len align : Nat} {rd wr : Bool} (hg : c.th.Grants r rd wr off len align) :
    c.after.Grants r rd wr off len align := hg

/-! ### Signed numbers and immediate fields -/

theorem toSigned_mod (n v : Nat) : toSigned n (v % 2 ^ n) = (BitVec.ofNat n v).toInt := by
  have hmsb : (v % 2 ^ n).testBit (n - 1) = (BitVec.ofNat n v).msb := by
    rw [BitVec.msb_eq_getLsbD_last, ← BitVec.testBit_toNat, BitVec.toNat_ofNat]
  rw [toSigned, hmsb, BitVec.toInt_eq_msb_cond, BitVec.toNat_ofNat]
  norm_cast

theorem ofSigned_eq_toNat (n : Nat) (z : Int) : ofSigned n z = (BitVec.ofInt n z).toNat := by
  rw [BitVec.toNat_ofInt, ofSigned]
  norm_cast

@[simp] theorem s64_toNat (a : Dword) : s64 a.toNat = a.toInt := by
  have h := toSigned_mod 64 a.toNat
  rwa [Nat.mod_eq_of_lt a.isLt, BitVec.ofNat_toNat, BitVec.setWidth_eq] at h

@[simp] theorem ofNat_u64 (z : Int) : BitVec.ofNat 64 (u64 z) = BitVec.ofInt 64 z := by
  rw [u64, ofSigned_eq_toNat, BitVec.ofNat_toNat, BitVec.setWidth_eq]

/-- The bits from bit 0 up, as a bit vector. -/
theorem fld_low (c : Ctx) (hi : Nat) : c.fld hi 0 = (BitVec.ofNat (hi + 1) c.w).toNat := by
  rw [Ctx.fld, bits, Nat.shiftRight_zero, Nat.sub_zero, BitVec.toNat_ofNat]

/-- A signed field from bit 0 up is that bit vector's sign extension. -/
theorem sx_low (c : Ctx) (hi : Nat) : c.sx hi 0 = ((BitVec.ofNat (hi + 1) c.w).signExtend 64).toNat := by
  rw [Ctx.sx, bits, Nat.shiftRight_zero, Nat.sub_zero, toSigned_mod, ofSigned_eq_toNat, BitVec.signExtend]

/-! ### Words that encode nothing -/

theorem opKey_eq_none_iff (w : Nat) : opKey w = none ↔ ¬ legal w = true := by
  unfold opKey
  split <;> simp_all

end Sys2Proof.Machine
end

section
/-!
Integer instructions (Table 12.4, R357): one lemma for each of the three forms, and each row's arithmetic on bit vectors.
-/

namespace Sys2Proof.Machine
open Sys2Proof

/-! ### The three forms -/

/-- A register-form instruction that computes `val` on numbers writes what `res` says on bit vectors. -/
theorem alu_ends {func busy : Nat} {val : Nat → Nat → Nat} {res : Dword → Dword → Dword}
    (hval : ∀ a b : Dword, BitVec.ofNat 64 (val a.toNat b.toNat) = res a b) (s : State) (t : Nat) (c : Ctx) (hr : s.hw.Runs t 0x01 func c) (ha : c.Affords busy) :
    onHw (fun _ h => h.alu t func busy (fun a b => some (val a b))) s = .next (s.withHw (s.hw.retire c
      (c.after.write (c.fld 25 21) (res (c.th.reg (c.fld 20 16)) (c.th.reg (c.fld 15 11)))) {} busy)) := by
  refine next_of_done hr ha ?_
  rw [← hval, reg_toNat, reg_toNat]
  rfl

/-- A division ends as other instructions do, and traps where the divisor is zero. -/
theorem alu_divides {func busy : Nat} {val : Nat → Nat → Nat} {res : Dword → Dword → Dword}
    (hval : ∀ a b : Dword, BitVec.ofNat 64 (val a.toNat b.toNat) = res a b) (s : State) (t : Nat) (c : Ctx) (hr : s.hw.Runs t 0x01 func c) :
    (c.th.reg (c.fld 15 11) ≠ 0 → c.Affords busy →
      onHw (fun _ h => h.alu t func busy (fun a b => if b = 0 then none else some (val a b))) s = .next (s.withHw (s.hw.retire c
        (c.after.write (c.fld 25 21) (res (c.th.reg (c.fld 20 16)) (c.th.reg (c.fld 15 11)))) {} busy))) ∧
    (c.th.reg (c.fld 15 11) = 0 →
      onHw (fun _ h => h.alu t func busy (fun a b => if b = 0 then none else some (val a b))) s = .next (s.withHw (s.hw.trap t 9 0 0))) := by
  have hzero : c.th.reg (c.fld 15 11) = 0 ↔ c.th.sr (c.fld 15 11) = 0 := by rw [← BitVec.toNat_inj, reg_toNat]; rfl
  refine ⟨fun hb ha => next_of_done hr ha ?_, fun hb => next_of_trap hr ?_⟩
  · simp only [fld_withTh, after_sr, mt hzero.mpr hb, ↓reduceIte]
    rw [← hval, reg_toNat, reg_toNat]
    rfl
  · simp only [fld_withTh, after_sr, hzero.mp hb, ↓reduceIte]

/-- An immediate-form instruction that computes `val` on IMM16 and its sign extension writes what `res` says on bit vectors. -/
theorem aluImm_ends {maj : Nat} {val : Nat → Nat → Nat → Nat} {res : Dword → BitVec 16 → Dword}
    (hval : ∀ (a : Dword) (i : BitVec 16), BitVec.ofNat 64 (val a.toNat i.toNat (i.signExtend 64).toNat) = res a i)
    (s : State) (t : Nat) (c : Ctx) (hr : s.hw.Runs t maj 0 c) (ha : c.Affords 1) :
    onHw (fun _ h => h.aluImm t maj val) s = .next (s.withHw (s.hw.retire c
      (c.after.write (c.fld 25 21) (res (c.th.reg (c.fld 20 16)) (BitVec.ofNat 16 c.w))) {} 1)) := by
  refine next_of_done hr ha ?_
  rw [← hval, reg_toNat, ← fld_low c 15, ← sx_low c 15]
  rfl

/-! ### The arithmetic of the rows -/

section
variable (a b : Dword) (i : BitVec 16) (k : Nat)

theorem ofNat_sub_wrap : BitVec.ofNat 64 (a.toNat + 2 ^ 64 - b.toNat) = a - b := by
  rw [BitVec.sub_def, Nat.add_comm, Nat.sub_add_comm b.isLt.le]

theorem ofNat_ushiftRight : BitVec.ofNat 64 (a.toNat >>> k) = a >>> k := by
  rw [← BitVec.toNat_ushiftRight, BitVec.ofNat_toNat, BitVec.setWidth_eq]

theorem ofNat_ror {k : Nat} (hk : k < 64) : BitVec.ofNat 64 (a.toNat >>> k ||| a.toNat <<< (64 - k)) = a.rotateRight k := by
  rw [BitVec.ofNat_or, ofNat_ushiftRight, BitVec.rotateRight_def, Nat.mod_eq_of_lt hk]
  rfl

theorem ofNat_sra : BitVec.ofNat 64 (u64 (s64 a.toNat / 2 ^ k)) = a.sshiftRight k := by
  rw [s64_toNat, ofNat_u64, BitVec.sshiftRight, Int.shiftRight_eq_div_pow, Nat.cast_pow, Nat.cast_ofNat]

theorem ofNat_b2n (p : Bool) : BitVec.ofNat 64 (b2n p) = if p then 1 else 0 := by
  cases p <;> rfl

theorem ofNat_slt : BitVec.ofNat 64 (b2n (decide (s64 a.toNat < s64 b.toNat))) = if a.slt b then 1 else 0 := by
  rw [ofNat_b2n, s64_toNat, s64_toNat, BitVec.slt]

theorem ofNat_ult : BitVec.ofNat 64 (b2n (decide (a.toNat < b.toNat))) = if a.ult b then 1 else 0 := by
  rw [ofNat_b2n, BitVec.ult]

theorem ofNat_min : BitVec.ofNat 64 (u64 (min (s64 a.toNat) (s64 b.toNat))) = if b.slt a then b else a := by
  rw [min_comm, min_def_lt, ofNat_u64, apply_ite (BitVec.ofInt 64)]
  simp [BitVec.slt]

theorem ofNat_max : BitVec.ofNat 64 (u64 (max (s64 a.toNat) (s64 b.toNat))) = if a.slt b then b else a := by
  rw [max_def_lt, ofNat_u64, apply_ite (BitVec.ofInt 64)]
  simp [BitVec.slt]

theorem ofNat_minu : BitVec.ofNat 64 (min a.toNat b.toNat) = if b.ult a then b else a := by
  rw [min_comm, min_def_lt, apply_ite (BitVec.ofNat 64)]
  simp [BitVec.ult]

theorem ofNat_maxu : BitVec.ofNat 64 (max a.toNat b.toNat) = if a.ult b then b else a := by
  rw [max_def_lt, apply_ite (BitVec.ofNat 64)]
  simp [BitVec.ult]

theorem ofNat_mulh : BitVec.ofNat 64 (u64 (s64 a.toNat * s64 b.toNat / 2 ^ 64)) = BitVec.ofInt 64 (a.toInt * b.toInt / 2 ^ 64) := by
  rw [ofNat_u64, s64_toNat, s64_toNat]

theorem ofNat_div : BitVec.ofNat 64 (u64 ((s64 a.toNat).tdiv (s64 b.toNat))) = a.sdiv b := by
  rw [s64_toNat, s64_toNat, ofNat_u64, ← BitVec.toInt_inj, BitVec.toInt_sdiv, BitVec.toInt_ofInt]

theorem ofNat_rem : BitVec.ofNat 64 (u64 ((s64 a.toNat).tmod (s64 b.toNat))) = a.srem b := by
  rw [s64_toNat, s64_toNat, ofNat_u64, ← BitVec.toInt_srem, BitVec.ofInt_toInt]

theorem ofNat_divu : BitVec.ofNat 64 (a.toNat / b.toNat) = a / b := by
  rw [← BitVec.toNat_udiv, BitVec.ofNat_toNat, BitVec.setWidth_eq]

theorem ofNat_remu : BitVec.ofNat 64 (a.toNat % b.toNat) = a % b := by
  rw [← BitVec.toNat_umod, BitVec.ofNat_toNat, BitVec.setWidth_eq]

theorem ofNat_clz64 : BitVec.ofNat 64 (clz64 a.toNat) = BitVec.ofNat 64 (if a = 0 then 64 else 63 - Nat.log2 a.toNat) := by
  simp [clz64, BitVec.toNat_eq_nat]

theorem ofNat_popc64 : BitVec.ofNat 64 (popc64 a.toNat) = BitVec.ofNat 64 ((List.range 64).countP a.getLsbD) := by
  rw [popc64, natsWhere, ← List.countP_eq_length_filter]
  rfl

theorem ofNat_shiftImm : BitVec.ofNat 64 (shiftImm a.toNat i.toNat) = match (i.extractLsb' 6 2).toNat with
    | 0 => a <<< (i.extractLsb' 0 6).toNat
    | 1 => a >>> (i.extractLsb' 0 6).toNat
    | 2 => a.sshiftRight (i.extractLsb' 0 6).toNat
    | _ => a.rotateRight (i.extractLsb' 0 6).toNat := by
  have hamount : (i.extractLsb' 0 6).toNat = i.toNat % 64 := by rw [BitVec.extractLsb'_toNat, Nat.shiftRight_zero]
  have hselect : bits i.toNat 7 6 = (i.extractLsb' 6 2).toNat := by rw [bits, BitVec.extractLsb'_toNat]
  rw [hamount, shiftImm, hselect]
  generalize (i.extractLsb' 6 2).toNat = sel
  have hlt : i.toNat % 64 < 64 := Nat.mod_lt _ (by decide)
  match sel with
  | 0 => rfl
  | 1 => exact ofNat_ushiftRight a _
  | 2 => exact ofNat_sra a _
  | _ + 3 => exact ofNat_ror a hlt
end

/-- Settles O1: each row is its form's lemma at the row's arithmetic. -/
theorem integerInstructions : Obligations.IntegerInstructions := by
  unfold Obligations.IntegerInstructions
  refine ⟨List.forall_iff_forall_mem.1 ⟨alu_ends fun _ _ => rfl, alu_ends ofNat_sub_wrap, alu_ends (by simp), alu_ends (by simp), alu_ends (by simp),
      alu_ends fun _ _ => rfl, alu_ends fun a _ => ofNat_ushiftRight a _, alu_ends fun a _ => ofNat_sra a _, alu_ends ofNat_slt, alu_ends ofNat_ult,
      alu_ends ofNat_min, alu_ends ofNat_max, alu_ends ofNat_minu, alu_ends ofNat_maxu, alu_ends fun _ _ => rfl, alu_ends fun _ _ => rfl, alu_ends ofNat_mulh,
      alu_ends fun a _ => ofNat_clz64 a, alu_ends fun a _ => ofNat_popc64 a⟩,
    List.forall_iff_forall_mem.1 ⟨alu_divides ofNat_div, alu_divides ofNat_divu, alu_divides ofNat_rem, alu_divides ofNat_remu⟩,
    List.forall_iff_forall_mem.1 ⟨aluImm_ends fun _ _ => rfl, aluImm_ends (by simp), aluImm_ends (by simp), aluImm_ends (by simp),
      aluImm_ends fun a _ => ofNat_slt a _, aluImm_ends fun a _ => ofNat_ult a _, aluImm_ends ofNat_shiftImm, aluImm_ends fun _ _ => rfl⟩,
    fun w hmaj hne => ?_, fun w hmaj hne => ?_⟩
  · rw [opKey_eq_none_iff]; simp [legal, major, hmaj, hne]
  · rw [opKey_eq_none_iff]; simp [legal, major, hmaj, hne]

end Sys2Proof.Machine
end

section
/-!
ATOM (Table 12.6, R359): the value stored, and the bytes of a number cut to the access's width.
-/

namespace Sys2Proof.Machine
open Sys2Proof

theorem cutFields_mod (w n v : Nat) : cutFields w n (v % 2 ^ (w * n)) = cutFields w n v := by
  induction n generalizing v with
  | zero => rfl
  | succ n ih =>
    have hhead : v % 2 ^ (w * (n + 1)) % 2 ^ w = v % 2 ^ w := Nat.mod_mod_of_dvd _ (Nat.pow_dvd_pow 2 (Nat.le_mul_of_pos_right w n.succ_pos))
    have htail : v % 2 ^ (w * (n + 1)) / 2 ^ w = v / 2 ^ w % 2 ^ (w * n) := by
      rw [Nat.mul_succ, Nat.add_comm, Nat.pow_add, Nat.mod_mul_right_div_self]
    rw [cutFields, cutFields, hhead, htail, ih]

/-- The bytes stored are those of the number modulo the access's width. -/
theorem leBytesN_mod (n v : Nat) : leBytesN n (v % 2 ^ (8 * n)) = leBytesN n v := by
  rw [leBytesN, leBytesN, cutFields_mod]

/-- The bytes that SIZE selects: 4, or 8. -/
theorem atom_size (c : Ctx) : 4 + 4 * c.fld 7 7 = if c.fld 7 7 = 1 then 8 else 4 := by
  have hlt : c.fld 7 7 < 2 := Nat.mod_lt _ (by decide)
  split <;> omega

/-- Settles O5: a granted access does not fail, and of the operations only the sum can leave the access's width. -/
theorem atomResult : Obligations.AtomResult := by
  unfold Obligations.AtomResult
  refine ⟨?_, fun w hmaj hop => ?_⟩
  · intro s t c hr ha n r o m old b new hg
    have hnew : leBytesN n (atomNew (c.fld 6 4) old b (c.th.sr (c.fld 25 21) % m)) = leBytesN n new := by
      simp only [new]
      split
      · next hop => rw [hop, leBytesN_mod, atomNew]
      all_goals simp only [atomNew, *]
    refine next_of_done hr ha ?_
    have hsize : 4 + 4 * c.fld 7 7 = n := atom_size c
    simp only [fld_withTh, hsize, after_sr, after_win]
    rw [access_of_grants (after_grants hg), ← hnew]
    rfl
  · rw [opKey_eq_none_iff]; simp [legal, major, hmaj, hop]

end Sys2Proof.Machine
end

section
/-!
Branches, jumps and the fetch traps (R351, R374): PC is a number of 16 bits, to which a signed offset is added modulo 2^16.
-/

namespace Sys2Proof.Machine
open Sys2Proof

/-! ### Offsets of PC -/

/-- The PC of an instruction's own word, from the PC that has moved on by one word. -/
theorem own_pc (pc : Nat) : ((pc + 1) % 2 ^ 16 + 2 ^ 16 - 1) % 2 ^ 16 = pc % 2 ^ 16 := by omega

/-- A signed field that holds bits 15 to 0 adds those bits modulo 2^16, whatever its width. -/
theorem sx_mod (c : Ctx) {hi : Nat} (h15 : 15 ≤ hi) : c.sx hi 0 % 2 ^ 16 = c.w % 2 ^ 16 := by
  have hcut : ((BitVec.ofNat (hi + 1) c.w).signExtend 64).setWidth 16 = BitVec.ofNat 16 c.w := by
    refine BitVec.eq_of_getLsbD_eq fun j hj => ?_
    have hin : j < hi + 1 := by omega
    have h64 : j < 64 := by omega
    simp only [BitVec.getLsbD_setWidth, BitVec.getLsbD_signExtend, BitVec.getLsbD_ofNat, hj, hin, h64, decide_true, Bool.true_and, ↓reduceIte]
  rw [sx_low, ← BitVec.toNat_setWidth, hcut, BitVec.toNat_ofNat]

/-- A jump from an instruction's own word by a signed field. -/
theorem jump_pc (c : Ctx) {hi : Nat} (h15 : 15 ≤ hi) :
    (((c.th.pc + 1) % 2 ^ 16 + 2 ^ 16 - 1) % 2 ^ 16 + c.sx hi 0) % 2 ^ 16 = (BitVec.ofNat 16 c.th.pc + BitVec.ofNat 16 c.w).toNat := by
  rw [own_pc, Nat.mod_add_mod, BitVec.toNat_add, BitVec.toNat_ofNat, BitVec.toNat_ofNat, ← Nat.add_mod, Nat.add_mod, sx_mod c h15, ← Nat.add_mod]

/-! ### Branches -/

/-- A branch that compares as `q` does on bit vectors goes to its target or to the next word. -/
theorem branch_ends {maj : Nat} {p : Nat → Nat → Bool} {q : Dword → Dword → Bool} (hpq : ∀ a b : Dword, p a.toNat b.toNat = q a b)
    (s : State) (t : Nat) (c : Ctx) (hr : s.hw.Runs t maj 0 c) (ha : c.Affords 1) :
    onHw (fun _ h => h.branch t maj p) s = .next (s.withHw (s.hw.retire c { c.th with
      pc := if q (c.th.reg (c.fld 25 21)) (c.th.reg (c.fld 20 16)) then (BitVec.ofNat 16 c.th.pc + BitVec.ofNat 16 c.w).toNat
        else (c.th.pc + 1) % 2 ^ 16 } {} 1)) := by
  refine next_of_done hr ha ?_
  rw [← hpq, reg_toNat, reg_toNat, ← jump_pc c (le_refl 15)]
  simp only [fld_withTh, sx_withTh, after_sr]
  by_cases htaken : p (c.th.sr (c.fld 25 21)) (c.th.sr (c.fld 20 16)) = true <;> simp only [htaken, ↓reduceIte] <;> rfl

theorem decide_toNat_eq (a b : Dword) : decide (a.toNat = b.toNat) = (a == b) :=
  decide_eq_decide.mpr BitVec.toNat_inj

theorem decide_s64_lt (a b : Dword) : decide (s64 a.toNat < s64 b.toNat) = a.slt b := by
  rw [s64_toNat, s64_toNat, BitVec.slt]

theorem decide_s64_le (a b : Dword) : decide (s64 b.toNat ≤ s64 a.toNat) = ! a.slt b := by
  rw [← decide_s64_lt, ← decide_not, decide_eq_decide, not_lt]

theorem decide_toNat_le (a b : Dword) : decide (b.toNat ≤ a.toNat) = ! a.ult b := by
  rw [BitVec.ult, ← decide_not, decide_eq_decide, not_lt]

/-! ### Jumps -/

/-- A write of a register and a change of PC, in either order. -/
theorem setS_after_pc (c : Ctx) (r v pc : Nat) : { c.after.setS r v with pc := pc } = { c.th.write r (BitVec.ofNat 64 v) with pc := pc } := by
  rw [setS_write]
  unfold Thread.write
  split <;> rfl

theorem execJal_ends {s : State} {t : Nat} {c : Ctx} (hr : s.hw.Runs t 0x36 0 c) (ha : c.Affords 1) :
    execJal t s = .next (s.withHw (s.hw.retire c { c.th.write (c.fld 25 21) (BitVec.ofNat 64 ((c.th.pc + 1) % 2 ^ 16)) with
      pc := (BitVec.ofNat 16 c.th.pc + BitVec.ofNat 16 c.w).toNat } {} 1)) := by
  refine next_of_done hr ha ?_
  rw [← setS_after_pc, ← jump_pc c (by decide : 15 ≤ 20)]
  rfl

theorem execJr_ends {s : State} {t : Nat} {c : Ctx} (hr : s.hw.Runs t 0x37 0 c) (ha : c.Affords 1) :
    execJr t s = .next (s.withHw (s.hw.retire c { c.th.write (c.fld 25 21) (BitVec.ofNat 64 ((c.th.pc + 1) % 2 ^ 16)) with
      pc := (c.th.reg (c.fld 20 16)).toNat % 2 ^ 16 } {} 1)) := by
  refine next_of_done hr ha ?_
  rw [← setS_after_pc, reg_toNat]
  rfl

/-! ### Fetches that trap -/

theorem execIllegalInstruction_of_none {s : State} {t : Nat} {c : Ctx} (hc : s.hw.ctx t = some (c, true)) (hk : opKey c.w = none) :
    execIllegalInstruction t s = .next (s.withHw (s.hw.trap t 4 0 0)) := by
  simp [execIllegalInstruction, onHw_next, hc, hk]

theorem execCodeBounds_of_outside {s : State} {t : Nat} {c : Ctx} (hc : s.hw.ctx t = some (c, false)) :
    execCodeBounds t s = .next (s.withHw (s.hw.trap t 5 0 0)) := by
  simp [execCodeBounds, onHw_next, hc]

/-- Settles O6: the branches by their compares, the two jumps, the two traps of a fetch, and JR's reserved fields. -/
theorem controlFlowAndFetch : Obligations.ControlFlowAndFetch := by
  unfold Obligations.ControlFlowAndFetch
  refine ⟨⟨List.forall_iff_forall_mem.1 ⟨branch_ends decide_toNat_eq, branch_ends fun a b => ?_, branch_ends decide_s64_lt, branch_ends decide_s64_le,
      branch_ends fun _ _ => rfl, branch_ends decide_toNat_le⟩, fun s t c ha => ⟨fun hr => execJal_ends hr ha, fun hr => execJr_ends hr ha⟩⟩,
    fun s t c => ⟨execIllegalInstruction_of_none, execCodeBounds_of_outside⟩, fun w hmaj hne => ?_⟩
  · rw [decide_not, decide_toNat_eq]
    rfl
  · rw [opKey_eq_none_iff]; simp [legal, major, hmaj, hne]

end Sys2Proof.Machine
end

section
/-!
Predicate instructions (R363).
-/

namespace Sys2Proof.Machine
open Sys2Proof

theorem pr_eq_toNat (th : Thread) (r : Nat) : th.pr r = (th.p.getD r 0).toNat := rfl

/-- A predicate instruction that computes `val` on numbers writes the bit vector of the same bits. -/
theorem predOp_ends {func : Nat} {val : Nat → Nat → Nat → Nat} {q : Dword} {s : State} {t : Nat} {c : Ctx}
    (hval : BitVec.ofNat 64 (val (c.th.p.getD (c.fld 22 20) 0).toNat (c.th.p.getD (c.fld 19 17) 0).toNat (c.th.reg (c.fld 16 12)).toNat) = q)
    (ha : c.Affords 1) (hr : s.hw.Runs t 0x17 func c) :
    onHw (fun _ h => h.predOp t func val) s = .next (s.withHw (s.hw.retire c { c.after with p := c.th.p.set (c.fld 25 23) q } {} 1)) := by
  refine next_of_done hr ha ?_
  rw [← hval, reg_toNat]
  rfl

theorem ofNat_not64 (a : Dword) : BitVec.ofNat 64 (not64 a.toNat) = ~~~ a := by
  rw [not64, ← BitVec.toNat_not, BitVec.ofNat_toNat, BitVec.setWidth_eq]

theorem ofNat_andn (a b : Dword) : BitVec.ofNat 64 (a.toNat &&& not64 b.toNat) = a &&& ~~~ b := by
  rw [BitVec.ofNat_and, ofNat_not64, BitVec.ofNat_toNat, BitVec.setWidth_eq]

/-- PLANES sets the first min(n, 64) bits. -/
theorem getLsbD_planes (n : Nat) {j : Nat} (hj : j < 64) : (BitVec.ofNat 64 (2 ^ min n 64 - 1)).getLsbD j = decide (j < n) := by
  rw [BitVec.getLsbD_ofNat, Nat.testBit_two_pow_sub_one]
  simp [hj]

theorem execPget_ends {s : State} {t : Nat} {c : Ctx} (ha : c.Affords 1) (hr : s.hw.Runs t 0x17 6 c) :
    execPget t s = .next (s.withHw (s.hw.retire c (c.after.write (c.fld 16 12) (c.th.p.getD (c.fld 22 20) 0)) {} 1)) := by
  refine next_of_done hr ha ?_
  simp only [fld_withTh, after_pr]
  rw [setS_write, pr_eq_toNat, BitVec.ofNat_toNat, BitVec.setWidth_eq]
  rfl

theorem fields_of_legal_predicate {w : Nat} (hmaj : bits w 31 26 = 0x17) (hl : legal w = true) :
    bits w 3 0 ≤ 7 ∧ (bits w 3 0 ≤ 4 → bits w 16 12 = 0) ∧ (4 ≤ bits w 3 0 → bits w 19 17 = 0) ∧
      (bits w 3 0 = 5 ∨ bits w 3 0 = 7 → bits w 22 20 = 0) ∧ (bits w 3 0 = 6 → bits w 25 23 = 0) := by
  simp only [legal, major, funcOf, hmaj, Bool.and_eq_true, decide_eq_true_eq] at hl
  obtain ⟨⟨hfn, -⟩, hfields⟩ := hl
  generalize bits w 3 0 = fn at hfn hfields ⊢
  interval_cases fn <;> simp_all

end Sys2Proof.Machine
end

section
/-!
Vector reductions (R229, R362): the active lanes of the register, and the pick that a maximum or minimum makes of them.
-/

namespace Sys2Proof.Machine
open Sys2Proof

/-! ### Signed lanes -/

theorem laneBits_cases (ty : Nat) : laneBits ty = 8 ∨ laneBits ty = 16 ∨ laneBits ty = 32 ∨ laneBits ty = 64 := by
  unfold laneBits
  split <;> simp

theorem sLane_lane (ty v k : Nat) : sLane ty (lane (laneBits ty) v k) = (BitVec.ofNat (laneBits ty) (v / 2 ^ (laneBits ty * k))).toInt :=
  toSigned_mod _ _

/-- A signed lane is a signed number of 64 bits. -/
theorem toInt_sLane (ty v k : Nat) : (BitVec.ofInt 64 (sLane ty (lane (laneBits ty) v k))).toInt = sLane ty (lane (laneBits ty) v k) := by
  have hle : laneBits ty ≤ 64 := by have := laneBits_cases ty; omega
  rw [sLane_lane, ← BitVec.signExtend, BitVec.toInt_signExtend_of_le hle]

/-! ### The active lanes -/

/-- The numbers of the lanes that act. -/
def Ctx.acting (c : Ctx) : List Nat :=
  (List.range (laneCount (c.fld 8 6))).filter (fun k => c.th.active (c.fld 11 9) (laneBits (c.fld 8 6)) k)

/-- Lane k of the register. -/
def Ctx.vxLane (c : Ctx) (k : Nat) : Nat := lane (laneBits (c.fld 8 6)) (c.th.vr (c.fld 25 22)) k

theorem vxLanes_eq (c : Ctx) : c.vxLanes = c.acting.map (fun k => (k, c.vxLane k)) := rfl

/-! ### Sums -/

theorem execVredsum_int {s : State} {t : Nat} {c : Ctx} (ha : c.Affords 2) (hr : s.hw.Runs t 0x16 3 c) (hty : 3 ≤ c.fld 8 6) :
    execVredsum t s = .next (s.withHw (s.hw.retire c
      (c.after.write (c.fld 21 17) (BitVec.ofInt 64 (c.acting.map (fun k => sLane (c.fld 8 6) (c.vxLane k))).sum)) {} 2)) := by
  refine next_of_done hr ha ?_
  have hfloat : ¬ c.fld 8 6 ≤ 2 := by omega
  have hlanes : ({ c with th := c.after } : Ctx).vxLanes.map (fun x => sLane (c.fld 8 6) x.2) = c.acting.map (fun k => sLane (c.fld 8 6) (c.vxLane k)) :=
    List.map_map
  simp only [fld_withTh, hfloat, ↓reduceIte, hlanes]
  rw [setS_write, ofNat_u64]
  rfl

/-- One step of the sum of float lanes. -/
def Ctx.addLane (c : Ctx) (acc : Nat × Counters) (k : Nat) : Nat × Counters :=
  let o := fpOp 0 (fltOf (c.fld 8 6)) (c.th.idx + k) c.v.ev.rank acc.1 (c.vxLane k) 0
  (o.1, acc.2.join o.2)

theorem execVredsum_float {s : State} {t : Nat} {c : Ctx} (ha : c.Affords 2) (hr : s.hw.Runs t 0x16 3 c) (hty : c.fld 8 6 ≤ 2) :
    let r := c.acting.foldl c.addLane (withSign (fltOf (c.fld 8 6)) true 0, {})
    execVredsum t s = .next (s.withHw (s.hw.retire c (c.after.write (c.fld 21 17) (BitVec.ofNat 64 (widen (c.fld 8 6) r.1))) r.2 2)) := by
  refine next_of_done hr ha ?_
  simp only [fld_withTh, hty, ↓reduceIte]
  rw [vxLanes_eq, List.foldl_map]
  rfl

/-! ### Picking among integer lanes -/

/-- y does not pass v: it is not above a maximum, not below a minimum. -/
def Within (max_ : Bool) (y v : Int) : Prop := if max_ then y ≤ v else v ≤ y

theorem Within.refl (max_ : Bool) (v : Int) : Within max_ v v := by
  cases max_ <;> exact le_refl v

theorem Within.trans {max_ : Bool} {x y z : Int} (hxy : Within max_ x y) (hyz : Within max_ y z) : Within max_ x z := by
  cases max_
  · exact le_trans (α := Int) hyz hxy
  · exact le_trans (α := Int) hxy hyz

theorem pickLane_cases {ty : Nat} (hty : 3 ≤ ty) (max_ : Bool) (a b : Nat) :
    (pickLane max_ ty a b = a ∧ Within max_ (sLane ty b) (sLane ty a)) ∨ (pickLane max_ ty a b = b ∧ Within max_ (sLane ty a) (sLane ty b)) := by
  have hfloat : ¬ ty ≤ 2 := by omega
  unfold pickLane Within
  cases max_ <;> simp [hfloat] <;> omega

/-- Picking along a list gives one of its lanes, which none passes. -/
theorem foldl_pickLane {ty : Nat} (hty : 3 ≤ ty) (max_ : Bool) (x : Nat) (l : List Nat) :
    l.foldl (pickLane max_ ty) x ∈ x :: l ∧ ∀ y ∈ x :: l, Within max_ (sLane ty y) (sLane ty (l.foldl (pickLane max_ ty) x)) := by
  induction l generalizing x with
  | nil => simp [Within.refl]
  | cons z l ih =>
    obtain ⟨hmem, hall⟩ := ih (pickLane max_ ty x z)
    obtain ⟨hbest, hrest⟩ := List.forall_mem_cons.mp hall
    rw [List.foldl_cons, List.forall_mem_cons, List.forall_mem_cons]
    obtain ⟨hpick, hle⟩ | ⟨hpick, hle⟩ := pickLane_cases hty max_ x z
    · rw [hpick] at hmem hbest hrest ⊢
      exact ⟨List.mem_cons.mpr ((List.mem_cons.mp hmem).imp_right (List.mem_cons_of_mem z)), hbest, hle.trans hbest, hrest⟩
    · rw [hpick] at hmem hbest hrest ⊢
      exact ⟨List.mem_cons_of_mem x hmem, hle.trans hbest, hbest, hrest⟩

/-! ### Maximum and minimum -/

/-- What a maximum or minimum of lanes leaves in the scalar register. -/
def pickResult (max_ : Bool) (ty : Nat) : List Nat → Nat
  | [] => if ty ≤ 2 then (if max_ then 0xFF800000 else 0x7F800000)
    else u64 (if max_ then -(2 ^ (laneBits ty - 1)) else 2 ^ (laneBits ty - 1) - 1)
  | x :: rest =>
    let v := rest.foldl (pickLane max_ ty) (pickLane max_ ty x x)
    if ty ≤ 2 then widen ty v else u64 (sLane ty v)

theorem vredPick_ends {func : Nat} {max_ : Bool} {s : State} {t : Nat} {c : Ctx} (ha : c.Affords 2) (hr : s.hw.Runs t 0x16 func c) :
    onHw (fun _ h => h.vredPick t func max_) s = .next (s.withHw (s.hw.retire c
      (c.after.write (c.fld 21 17) (BitVec.ofNat 64 (pickResult max_ (c.fld 8 6) (c.acting.map c.vxLane)))) {} 2)) := by
  refine next_of_done hr ha ?_
  have hlanes : ({ c with th := c.after } : Ctx).vxLanes.map (·.2) = c.acting.map c.vxLane := List.map_map
  simp only [fld_withTh, hlanes]
  cases c.acting.map c.vxLane <;> rfl

/-- Of integer lanes it is an active one that no active lane passes. -/
theorem pickResult_int {c : Ctx} (hty : 3 ≤ c.fld 8 6) (max_ : Bool) (hact : c.acting ≠ []) :
    let r := BitVec.ofNat 64 (pickResult max_ (c.fld 8 6) (c.acting.map c.vxLane))
    (∃ k ∈ c.acting, r = BitVec.ofInt 64 (sLane (c.fld 8 6) (c.vxLane k))) ∧
      ∀ k ∈ c.acting, Within max_ (sLane (c.fld 8 6) (c.vxLane k)) r.toInt := by
  have hfloat : ¬ c.fld 8 6 ≤ 2 := by omega
  obtain ⟨k, rest, hlist⟩ := List.exists_cons_of_ne_nil hact
  have hself : pickLane max_ (c.fld 8 6) (c.vxLane k) (c.vxLane k) = c.vxLane k := by simp [pickLane, hfloat]
  obtain ⟨hmem, hall⟩ := foldl_pickLane hty max_ (c.vxLane k) (rest.map c.vxLane)
  rw [← List.map_cons, ← hlist] at hmem hall
  obtain ⟨j, hj, hbest⟩ := List.mem_map.mp hmem
  have hr : BitVec.ofNat 64 (pickResult max_ (c.fld 8 6) (c.acting.map c.vxLane)) = BitVec.ofInt 64 (sLane (c.fld 8 6) (c.vxLane j)) := by
    rw [hlist, List.map_cons]
    simp only [pickResult, hself, hfloat, ↓reduceIte, ofNat_u64, hbest]
  refine ⟨⟨j, hj, hr⟩, fun i hi => ?_⟩
  rw [hr, Ctx.vxLane, Ctx.vxLane, toInt_sLane]
  have hwithin := hall _ (List.mem_map_of_mem hi)
  rwa [← hbest] at hwithin

/-- Of float lanes it is what R229 picks from the lowest upward. -/
theorem pickResult_float {c : Ctx} (hty : c.fld 8 6 ≤ 2) (max_ : Bool) {k : Nat} {rest : List Nat} (hlist : c.acting = k :: rest) :
    pickResult max_ (c.fld 8 6) (c.acting.map c.vxLane) = widen (c.fld 8 6)
      (rest.foldl (fun a j => fpPick (fltOf (c.fld 8 6)) max_ a (c.vxLane j)) (fpPick (fltOf (c.fld 8 6)) max_ (c.vxLane k) (c.vxLane k))) := by
  have hpick : pickLane max_ (c.fld 8 6) = fpPick (fltOf (c.fld 8 6)) max_ := by funext a b; simp [pickLane, hty]
  rw [hlist, List.map_cons]
  simp only [pickResult, hty, ↓reduceIte, hpick, List.foldl_map]

/-- The four cases of a maximum or minimum: integer or float lanes, some active or none. -/
theorem pickResult_spec (c : Ctx) (max_ : Bool) :
    let r := BitVec.ofNat 64 (pickResult max_ (c.fld 8 6) (c.acting.map c.vxLane))
    (3 ≤ c.fld 8 6 → c.acting ≠ [] → (∃ k ∈ c.acting, r = BitVec.ofInt 64 (sLane (c.fld 8 6) (c.vxLane k))) ∧
      ∀ k ∈ c.acting, Within max_ (sLane (c.fld 8 6) (c.vxLane k)) r.toInt) ∧
    (3 ≤ c.fld 8 6 → c.acting = [] →
      r = BitVec.ofInt 64 (if max_ then -(2 ^ (laneBits (c.fld 8 6) - 1)) else 2 ^ (laneBits (c.fld 8 6) - 1) - 1)) ∧
    (c.fld 8 6 ≤ 2 → c.acting = [] → r = if max_ then 0xFF800000 else 0x7F800000) ∧
    (c.fld 8 6 ≤ 2 → ∀ k rest, c.acting = k :: rest → r = BitVec.ofNat 64 (widen (c.fld 8 6)
      (rest.foldl (fun a j => fpPick (fltOf (c.fld 8 6)) max_ a (c.vxLane j)) (fpPick (fltOf (c.fld 8 6)) max_ (c.vxLane k) (c.vxLane k))))) := by
  refine ⟨fun hty hact => pickResult_int hty max_ hact, fun hty hnone => ?_, fun hty hnone => ?_, fun hty k rest hlist => ?_⟩
  · have hfloat : ¬ c.fld 8 6 ≤ 2 := by omega
    simp only [hnone, List.map_nil, pickResult, hfloat, ↓reduceIte, ofNat_u64]
  · simp only [hnone, List.map_nil, pickResult, hty, ↓reduceIte]
    cases max_ <;> rfl
  · rw [pickResult_float hty max_ hlist]

/-- Settles O9: the predicate rows by their bits, the sums and the picks over the active lanes, and the fields that a FUNC leaves zero. -/
theorem predicatesAndReductions : Obligations.PredicatesAndReductions := by
  unfold Obligations.PredicatesAndReductions
  refine ⟨fun s t c ha => ⟨List.forall_iff_forall_mem.1 ⟨predOp_ends (by simp) ha, predOp_ends (by simp) ha, predOp_ends (by simp) ha,
      predOp_ends (ofNat_andn _ _) ha, predOp_ends (ofNat_not64 _) ha, predOp_ends (by simp) ha⟩,
      fun hr => ⟨_, fun _ hj => getLsbD_planes _ hj, predOp_ends rfl ha hr⟩, execPget_ends ha⟩,
    fun s t c ha => ⟨execVredsum_int ha, execVredsum_float ha, List.forall_iff_forall_mem.1
      ⟨fun hr => ⟨_, vredPick_ends ha hr, pickResult_spec c true⟩, fun hr => ⟨_, vredPick_ends ha hr, pickResult_spec c false⟩⟩⟩,
    fun w hmaj hbad => (opKey_eq_none_iff w).mpr fun hl => ?_⟩
  have hfields := fields_of_legal_predicate hmaj hl
  omega

end Sys2Proof.Machine
end

section
/-!
Stream instructions of nothing, LFIN and SCOPY (R368, R370, R371).
-/

namespace Sys2Proof.Machine
open Sys2Proof

/-! ### The operands of the S format after PC has moved on -/

@[simp] theorem sbv_after (c : Ctx) : ({ c with th := c.after } : Ctx).sbv = c.sbv := rfl
@[simp] theorem sav_after (c : Ctx) : ({ c with th := c.after } : Ctx).sav = c.sav := rfl
@[simp] theorem sdv_after (c : Ctx) : ({ c with th := c.after } : Ctx).sdv = c.sdv := rfl
@[simp] theorem ws_after (c : Ctx) : ({ c with th := c.after } : Ctx).ws = c.ws := rfl
@[simp] theorem wd_after (c : Ctx) : ({ c with th := c.after } : Ctx).wd = c.wd := rfl
@[simp] theorem fmt_after (c : Ctx) : ({ c with th := c.after } : Ctx).fmt = c.fmt := rfl

/-! ### A count of zero -/

theorem accumulate_nothing {maj w rate narrow : Nat} {add : Ctx → Nat → Nat → Nat × Nat → Nat × Counters} (s : State) (t : Nat) (c : Ctx)
    (hr : s.hw.Runs t maj 0 c) (hn : c.sbv % 2 ^ 32 = 0) (ha : c.Affords 1) :
    onHw (fun _ h => h.accumulate t maj w rate narrow add) s = .next (s.withHw (s.hw.retire c c.after {} 1)) :=
  next_of_done hr ha (if_pos hn)

theorem lfin_nothing {maj w : Nat} (s : State) (t : Nat) (c : Ctx) (hr : s.hw.Runs t maj 0 c) (hn : c.sbv % 2 ^ 32 = 0) (ha : c.Affords 1) :
    onHw (fun _ h => h.lfin t maj w) s = .next (s.withHw (s.hw.retire c c.after {} 1)) :=
  next_of_done hr ha (if_pos hn)

theorem execScopy_nothing (s : State) (t : Nat) (c : Ctx) (hr : s.hw.Runs t 0x26 0 c) (hn : c.sbv % 2 ^ 32 = 0) (ha : c.Affords 1) :
    execScopy t s = .next (s.withHw (s.hw.retire c c.after {} 1)) :=
  next_of_done hr ha (if_pos hn)

/-! ### LFIN -/

theorem cutWords_length (w n : Nat) (l : List Byte) : (cutWords w n l).length = n := by
  induction n generalizing l with
  | zero => rfl
  | succ n ih => rw [cutWords, List.length_cons, ih]

theorem zip_range_eq_map {n : Nat} {l : List Nat} (hl : l.length = n) : (List.range n).zip l = (List.range n).map (fun j => (j, nth l j)) := by
  subst hl
  refine List.ext_getElem (by simp) fun j hj _ => ?_
  have hlt : j < l.length := by simpa using hj
  simp [nth, hlt]

/-- LFIN of granted ranges stores the finished words and counts what their finish counts. -/
theorem lfin_ends {maj w : Nat} {s : State} {t : Nat} {c : Ctx} (hr : s.hw.Runs t maj 0 c) (hn : c.sbv % 2 ^ 32 ≠ 0)
    (hsrc : c.th.Grants c.ws true false (c.sav * w) (c.sbv % 2 ^ 32 * w) 1)
    (hdst : c.th.Grants c.wd false true c.sdv (c.sbv % 2 ^ 32 * (fmtBits c.fmt / 8)) (fmtBits c.fmt / 8)) (ha : c.Affords (1 + cdiv (c.sbv % 2 ^ 32) 16)) :
    let n := c.sbv % 2 ^ 32
    let c' : Ctx := { c with th := c.after }
    let old := cutWords w n (s.hw.winRead c' (c.th.win c.ws) (c.sav * w) (n * w))
    let new (j : Nat) := c'.lfinWord w (nth old j) (c.sav + j)
    onHw (fun _ h => h.lfin t maj w) s = .next (s.withHw
      ((s.hw.winWrite c' (c.th.win c.wd) c.sdv ((List.range n).flatMap (fun j => leBytesN (fmtBits c.fmt / 8) (new j).1))).retire c
        c.after ((List.range n).foldl (fun a j => a.join (new j).2) {}) (1 + cdiv n 16))) := by
  refine next_of_done hr ha ?_
  simp only [sbv_after, sav_after, sdv_after, ws_after, wd_after, fmt_after, after_win, hn, ↓reduceIte]
  rw [access_of_grants₂ (after_grants hsrc) (after_grants hdst), zip_range_eq_map (cutWords_length _ _ _)]
  simp only [List.map_map, List.flatMap_map, List.foldl_map, Function.comp_apply]

/-! ### SCOPY -/

theorem execScopy_ends {s : State} {t : Nat} {c : Ctx} (hr : s.hw.Runs t 0x26 0 c) (hn : c.sbv % 2 ^ 32 ≠ 0) (h4 : c.sbv % 2 ^ 32 % 4 = 0)
    (hsrc : c.th.Grants c.ws true false c.sav (c.sbv % 2 ^ 32) 4) (hdst : c.th.Grants c.wd false true c.sdv (c.sbv % 2 ^ 32) 4)
    (ha : c.Affords (1 + cdiv (c.sbv % 2 ^ 32) 64)) :
    let c' : Ctx := { c with th := c.after }
    execScopy t s = .next (s.withHw ((s.hw.winWrite c' (c.th.win c.wd) c.sdv (s.hw.winRead c' (c.th.win c.ws) c.sav (c.sbv % 2 ^ 32))).retire c
      c.after {} (1 + cdiv (c.sbv % 2 ^ 32) 64))) := by
  refine next_of_done hr ha ?_
  simp only [sbv_after, sav_after, sdv_after, ws_after, wd_after, after_win, hn, ↓reduceIte]
  rw [access_of_grants₂ (after_grants hsrc) (after_grants hdst)]
  exact if_neg (not_not.mpr h4)

/-- Accesses with their rights and bounds can fail by their alignment alone (R377). -/
theorem accessFails_of_granted {th : Thread} {l : List Access} (hg : ∀ a ∈ l, th.Grants a.r a.rd a.wr a.off a.len 1) :
    th.accessFails l = (l.find? (fun a => decide (a.off % a.align ≠ 0))).map (fun a => .trap 3 a.r a.off) := by
  have hrights : l.find? (fun a => decide ((th.win a.r).kind = 0) || (a.rd && ! (th.win a.r).rd) || (a.wr && ! (th.win a.r).wr)) = none :=
    List.find?_eq_none.mpr fun a ha => by
      obtain ⟨hkind, hrd, hwr, -⟩ := hg a ha
      simpa [hkind] using ⟨hrd, hwr⟩
  have hbounds : l.find? (fun a => decide ((th.win a.r).len < a.off + a.len)) = none :=
    List.find?_eq_none.mpr fun a ha => by
      obtain ⟨-, -, -, hlen, -⟩ := hg a ha
      simpa using hlen
  simp only [Thread.accessFails, hrights, hbounds]
  rfl

/-- One of them off its alignment traps with MISALIGNED, whatever the access would do. -/
theorem access_misaligned {th : Thread} {l : List Access} (hg : ∀ a ∈ l, th.Grants a.r a.rd a.wr a.off a.len 1)
    (hoff : ∃ a ∈ l, a.off % a.align ≠ 0) : ∃ win off, ∀ k, th.access l k = .trap 3 win off := by
  obtain ⟨b, hb⟩ : ∃ b, l.find? (fun a => decide (a.off % a.align ≠ 0)) = some b := by
    rw [← Option.isSome_iff_exists, List.find?_isSome]
    simpa using hoff
  exact ⟨b.r, b.off, fun k => by rw [Thread.access, accessFails_of_granted hg, hb]; rfl⟩

theorem grants_align {th : Thread} {r off len align align' : Nat} {rd wr : Bool} (hg : th.Grants r rd wr off len align) (hoff : off % align' = 0) :
    th.Grants r rd wr off len align' := by
  obtain ⟨hkind, hrd, hwr, hlen, -⟩ := hg
  exact ⟨hkind, hrd, hwr, hlen, hoff⟩

theorem execScopy_misaligned {s : State} {t : Nat} {c : Ctx} (hr : s.hw.Runs t 0x26 0 c) (hn : c.sbv % 2 ^ 32 ≠ 0)
    (h4 : c.sbv % 2 ^ 32 % 4 ≠ 0 ∨ c.sav % 4 ≠ 0 ∨ c.sdv % 4 ≠ 0) (hsrc : c.th.Grants c.ws true false c.sav (c.sbv % 2 ^ 32) 1)
    (hdst : c.th.Grants c.wd false true c.sdv (c.sbv % 2 ^ 32) 1) : ∃ win off, execScopy t s = .next (s.withHw (s.hw.trap t 3 win off)) := by
  by_cases hoff : c.sav % 4 = 0 ∧ c.sdv % 4 = 0
  · obtain ⟨hsav, hsdv⟩ := hoff
    have hcount : c.sbv % 2 ^ 32 % 4 ≠ 0 := by omega
    refine ⟨c.ws, c.sav, next_of_trap hr ?_⟩
    simp only [sbv_after, sav_after, sdv_after, ws_after, wd_after, hn, ↓reduceIte]
    rw [access_of_grants₂ (after_grants (grants_align hsrc hsav)) (after_grants (grants_align hdst hsdv))]
    exact if_pos hcount
  · obtain ⟨win, off, htrap⟩ := access_misaligned (th := c.after)
      (l := [{ r := c.ws, rd := true, off := c.sav, len := c.sbv % 2 ^ 32, align := 4 }, { r := c.wd, wr := true, off := c.sdv, len := c.sbv % 2 ^ 32, align := 4 }])
      (by simpa using ⟨hsrc, hdst⟩) (by simpa using not_and_or.mp hoff)
    exact ⟨win, off, next_of_trap hr ((if_neg hn).trans (htrap _))⟩

/-- Settles O12: LFIN and SCOPY of granted ranges, each row with a count of zero, SCOPY's alignment, and its reserved fields. -/
theorem streamFinishAndCopy : Obligations.StreamFinishAndCopy := by
  unfold Obligations.StreamFinishAndCopy
  refine ⟨fun s t c => ⟨List.forall_iff_forall_mem.1 ⟨lfin_ends, lfin_ends⟩, execScopy_ends⟩,
    List.forall_iff_forall_mem.1 ⟨accumulate_nothing, accumulate_nothing, accumulate_nothing, accumulate_nothing, lfin_nothing, lfin_nothing,
      execScopy_nothing⟩,
    fun s t c => execScopy_misaligned, fun w hmaj hne => ?_⟩
  rw [opKey_eq_none_iff]
  simp [legal, major, hmaj, hne]

end Sys2Proof.Machine
end

section
/-!
System instructions, waits and EXIT (R325, R348, R373, R375).
-/

namespace Sys2Proof.Machine
open Sys2Proof

/-! ### The thread before and after an instruction -/

/-- The context of a thread carries its number. -/
theorem ctx_t {h : Hw} {t : Nat} {c : Ctx} {inside : Bool} (hc : h.ctx t = some (c, inside)) : c.t = t := by
  unfold Hw.ctx at hc
  split at hc
  · contradiction
  · split at hc
    · split at hc
      · contradiction
      · obtain ⟨x, -, hx⟩ := Option.map_eq_some_iff.mp hc
        cases hx
        rfl
    · contradiction

@[simp] theorem addCounts_none (h : Hw) (c : Ctx) : h.addCounts c {} = h := if_pos rfl

@[simp] theorem drawnStale_progs (h : Hw) (th : Thread) : (h.drawnStale th).progs = h.progs := by
  unfold Hw.drawnStale
  split <;> rfl

theorem retire_thread (h : Hw) (c : Ctx) (th : Thread) (busy : Nat) :
    tget? (h.retire c th {} busy).progs.threads c.t = some { th with busy := (c.th.busy + busy) % 2 ^ 32 } := by
  simp [Hw.retire, Hw.putThread, Hw.spendCycles]

/-! ### RDSYS -/

theorem rdsys_after (h : Hw) (c : Ctx) (i : Nat) : rdsys h { c with th := c.after } i = rdsys h c i := by
  unfold rdsys
  split <;> rfl

/-- The location's three fields do not overlap. -/
theorem rdsys_location (h : Hw) {c : Ctx} (ht : c.t < 20736) : rdsys h c 4 = (c.t / 144 ||| (c.t / 16 % 9) <<< 8 ||| (c.t % 16) <<< 12) := by
  have hcx : c.t / 144 < 2 ^ 8 := by omega
  have hlow : (c.t / 16 % 9) <<< 8 + c.t / 144 < 2 ^ 12 := by omega
  rw [Nat.or_comm (c.t / 144), ← Nat.shiftLeft_add_eq_or_of_lt hcx, Nat.or_comm, ← Nat.shiftLeft_add_eq_or_of_lt hlow, Nat.shiftLeft_eq, Nat.shiftLeft_eq]
  show c.t / 144 + c.t / 16 % 9 * 2 ^ 8 + c.t % 16 * 2 ^ 12 = _
  omega

theorem rdsys_counted (h : Hw) (c : Ctx) : rdsys h c 7 = match c.ch with | some k => k.counted.length | none => 0 := by
  unfold rdsys
  cases c.ch <;> rfl

/-- RDSYS writes the value that its IMM8 selects. -/
theorem execRdsys_ends {i : Nat} {val : Hw → Ctx → Nat} (hval : ∀ (h : Hw) (c : Ctx), c.t < 20736 → rdsys h c i = val h c)
    (s : State) (t : Nat) (c : Ctx) (hr : s.hw.Runs t 0x2A 4 c) (ha : c.Affords 1) (hi : c.fld 15 8 = i) (ht : t < 20736) :
    execRdsys t s = .next (s.withHw (s.hw.retire c (c.after.write (c.fld 25 21) (BitVec.ofNat 64 (val s.hw c))) {} 1)) := by
  refine next_of_done hr ha ?_
  rw [← hval _ _ (ctx_t hr.1 ▸ ht), ← hi, ← rdsys_after]
  rfl

/-! ### EXIT -/

/-- A thread that ends within its cycles has been charged for EXIT, by which EXIT tells it from one that CYCLE_LIMIT stopped. -/
theorem exit_charged {h : Hw} {t : Nat} {c : Ctx} (hc : h.ctx t = some (c, true)) (hbusy : c.th.busy + 1 < 2 ^ 32) (th : Thread) :
    (tget? (h.retire c th {} 1).progs.threads t).any (fun th => th.busy = c.th.busy) = false := by
  rw [← ctx_t hc, retire_thread, Nat.mod_eq_of_lt hbusy]
  simp

/-! ### Fields that a FUNC does not use -/

theorem fields_of_legal_system {w : Nat} (hmaj : bits w 31 26 = 0x2A) (hl : legal w = true) :
    bits w 7 0 ≤ 4 ∧ (bits w 7 0 ≤ 2 → bits w 25 8 = 0) ∧ (bits w 7 0 = 3 → bits w 25 21 = 0 ∧ bits w 15 8 = 0) ∧
      (bits w 7 0 = 4 → bits w 20 16 = 0 ∧ bits w 15 8 ≤ 7) := by
  simp only [legal, major, funcOf, hmaj] at hl
  generalize bits w 7 0 = fn at hl ⊢
  split at hl <;> simp at hl <;> omega

/-- Settles O14: the waits and NOP end as they say, RDSYS by its table, EXIT by the charge that tells an end from a trap, and the fields of the MAJOR. -/
theorem systemAndExit : Obligations.SystemAndExit := by
  unfold Obligations.SystemAndExit
  refine ⟨⟨fun s t c ha => ⟨fun hr => next_of_done hr ha rfl, fun hr => next_of_done hr ha rfl, fun hr => next_of_done hr ha ?_,
      fun hr => next_of_done hr ha rfl, fun hr => next_of_done hr ha rfl⟩,
    List.forall_iff_forall_mem.1 ⟨execRdsys_ends fun _ _ _ => rfl, execRdsys_ends fun _ _ _ => rfl, execRdsys_ends fun _ _ _ => rfl,
      execRdsys_ends fun _ _ _ => rfl, execRdsys_ends fun h _ ht => rdsys_location h ht, execRdsys_ends fun _ _ _ => rfl,
      execRdsys_ends fun _ _ _ => rfl, execRdsys_ends fun h c _ => rdsys_counted h c⟩⟩, ?_, ?_⟩
  · rw [BitVec.toNat_setWidth, reg_toNat]
    rfl
  · intro s t c hr ha hbusy
    have hended : s.hw.isa t (2048 * 0x2A + 1) (fun h c => ends h { c.th with state := .stopped }) =
        s.hw.retire c { c.after with state := .stopped } {} 1 := isa_done hr ha rfl
    have hs1 : (c.th.sr 1).testBit 0 = (c.th.reg 1).getLsbD 0 := by rw [← reg_toNat, BitVec.testBit_toNat]
    obtain ⟨hc, hk⟩ := hr
    have hcharged := exit_charged hc hbusy { c.after with state := .stopped }
    simp only [exec_exit, execExit, onHw_next, hended, hc, hk, hs1, hcharged]
    rfl
  · intro w hmaj hbad
    refine (opKey_eq_none_iff w).mpr fun hl => ?_
    have hfields := fields_of_legal_system hmaj hl
    omega

end Sys2Proof.Machine
end

section
/-!
What a step and a command do to the fuses and the queue, and that every command of units that exist completes (R62, R66, R69).
-/

namespace Sys2Proof.Machine
open Sys2Proof

/-! ### The fuses over a step -/

/-- Any command leaves the fuses, or raises the anti-rollback field to 64 at most, or changes none of it and no revoke bit. -/
theorem exec_fuses {i : Instr} {s t : State} (h : exec i s = .next t) :
    s.fuses.antiRoll ≤ t.fuses.antiRoll ∧ (t.fuses.antiRoll = s.fuses.antiRoll ∨ t.fuses.antiRoll ≤ 64) ∧ t.fuses.revoked = s.fuses.revoked := by
  by_cases hroll : ∃ c, i = .antiRollbackAdvance c
  · obtain ⟨c, rfl⟩ := hroll
    obtain hsame | ⟨new, hlt, h64, hfuses⟩ := execAntiRollbackAdvance_fuses h
    · simp [hsame]
    · simp [hfuses, h64, hlt.le]
  · by_cases hlc : i = .lcTransitionDone
    · subst hlc
      obtain hsame | ⟨-, hfuses, -⟩ := execLcTransitionDone_fuses h
      · simp [hsame]
      · rw [hfuses]
        simp
    · simp [(exec_hwOutcome (not_exists.mp hroll) hlc s).fuses_eq h]

theorem FusesLegal_of_exec {i : Instr} {s t : State} (hs : s.FusesLegal) (h : exec i s = .next t) : t.FusesLegal := by
  obtain ⟨h64, h4⟩ := hs
  obtain ⟨-, hroll, hrevoked⟩ := exec_fuses h
  exact ⟨hroll.elim (fun heq => heq ▸ h64) id, hrevoked ▸ h4⟩

/-! ### One step -/

theorem step_cons {s : State} {c : Instr} {rest : List Instr} (h : s.pending = c :: rest) : step s = exec c { s with pending := rest } := by
  unfold step
  rw [h]

theorem step_nil {s : State} (h : s.pending = []) : step s = .next s := by
  unfold step
  rw [h]

/-- Settles O33: an idle step keeps everything, and a command keeps what the fuses can hold. -/
theorem fusesStayLegal : Obligations.FusesStayLegal := by
  unfold Obligations.FusesStayLegal
  intro s t hs h
  cases hp : s.pending with
  | nil =>
    rw [step_nil hp] at h
    cases h
    exact ⟨hs, le_refl _, rfl⟩
  | cons c rest =>
    rw [step_cons hp] at h
    obtain ⟨hle, -, hrevoked⟩ := exec_fuses h
    exact ⟨FusesLegal_of_exec (s := { s with pending := rest }) hs h, hle, hrevoked⟩

/-! ### The queue -/

theorem HwOutcome.pending_eq {s t : State} {o : Out} (ho : HwOutcome s o) (h : o = .next t) : t.pending = s.pending := by
  induction ho with
  | next g => cases h; rfl
  | atUnit n bound _ ih =>
    obtain ⟨-, hrun⟩ | ⟨-, hfault⟩ := atUnit_cases h
    · exact ih hrun
    · contradiction

theorem onFuses_pending {f : Fuses → Hw → Fuses × Hw} {s t : State} (h : onFuses f s = .next t) : t.pending = s.pending := by
  rw [onFuses_next] at h
  cases h
  rfl

theorem exec_pending {i : Instr} {s t : State} (h : exec i s = .next t) : t.pending = s.pending := by
  by_cases hroll : ∃ c, i = .antiRollbackAdvance c
  · obtain ⟨c, rfl⟩ := hroll
    obtain ⟨-, hrun⟩ | ⟨-, hfault⟩ := atUnit_cases (m := onFuses _) h
    · exact onFuses_pending hrun
    · contradiction
  · by_cases hlc : i = .lcTransitionDone
    · subst hlc
      rw [exec_lcTransitionDone, execLcTransitionDone] at h
      exact onFuses_pending h
    · exact (exec_hwOutcome (not_exists.mp hroll) hlc s).pending_eq h

/-- Settles O58: the step by its queue, the table's words that spell nothing, and the frame of a command. -/
theorem stepRunsFrontCommand : Obligations.StepRunsFrontCommand := by
  unfold Obligations.StepRunsFrontCommand
  exact ⟨fun s c rest => step_cons, fun s => step_nil, fun s nbits w => ⟨rfl, rfl⟩, fun s t c => exec_pending⟩

/-! ### Completion -/

/-- An outcome that is a next state, or is one where the command's units exist and the fault of a missing unit where they do not. -/
inductive Completes : Bool → Out → Prop where
  | next (ok : Bool) (t : State) : Completes ok (.next t)
  | atUnit (n bound : Nat) (m : State → Out) (s t : State) (hm : m s = .next t) : Completes (decide (n < bound)) (atUnit n bound m s)

theorem Completes.cases {ok : Bool} {o : Out} (h : Completes ok o) : (∃ t, o = .next t) ∨ (ok = false ∧ ∃ n, o = .fault (.noSuchUnit n)) := by
  cases h with
  | next _ t => exact .inl ⟨t, rfl⟩
  | atUnit n bound m s t hm =>
    by_cases hn : n < bound
    · exact .inl ⟨t, (atUnit_in hn m s).trans hm⟩
    · exact .inr ⟨decide_eq_false hn, n, atUnit_out (Nat.not_lt.mp hn) m s⟩

/-- Every command; the shape of each meaning and the units it names are read off its definition. -/
theorem exec_completes (i : Instr) (s : State) : Completes i.wf (exec i s) := by
  cases i with
  | _ => repeat constructor

/-- Settles O59: a command completes, or names a unit that is not there and faults. -/
theorem everyCommandCompletes : Obligations.EveryCommandCompletes := by
  unfold Obligations.EveryCommandCompletes
  refine ⟨fun s c hwf => ?_, fun s c r hr => ?_, fun s c f hf => ?_, fun s p k hp => atUnit_out hp _ s⟩
  · obtain hnext | ⟨hno, -⟩ := (exec_completes c s).cases
    · exact hnext
    · simp [hwf] at hno
  · obtain ⟨t, ht⟩ | ⟨-, n, hn⟩ := (exec_completes c s).cases
    · simp [ht] at hr
    · simp [hn] at hr
  · obtain ⟨t, ht⟩ | ⟨hno, n, hn⟩ := (exec_completes c s).cases
    · simp [ht] at hf
    · exact ⟨hno, n, by rw [hn] at hf; cases hf; rfl⟩

end Sys2Proof.Machine
end

section
/-!
The test access port (R532), and the state after a cold reset (Tables 5.12, 5.13, 7.4, 18.9).
-/

namespace Sys2Proof.Machine
open Sys2Proof

/-! ### The test access port -/

theorem jtagActs_iff (fz : Fuses) (h : Hw) : jtagActs fz h = true ↔ h.pins.resetLow = true ∨ fz.lc = .manufacture := by
  simp [jtagActs]

/-- An instruction that acts only in reset or in MANUFACTURE, and is BYPASS elsewhere. -/
def drivesBalls (f : Pins → Pins) : State → Out :=
  onHw (fun fz h => if jtagActs fz h then h.modPins f else h.jtagBypass)

theorem drivesBalls_acts (f : Pins → Pins) {s : State} (h : s.hw.pins.resetLow = true ∨ s.fuses.lc = .manufacture) :
    drivesBalls f s = .next (s.withHw { s.hw with pins := f s.hw.pins }) := by
  rw [drivesBalls, onHw_next, if_pos ((jtagActs_iff _ _).mpr h)]
  rfl

theorem drivesBalls_idle (f : Pins → Pins) {s : State} (h : ¬ (s.hw.pins.resetLow = true ∨ s.fuses.lc = .manufacture)) :
    drivesBalls f s = .next (s.withHw s.hw.jtagBypass) := by
  rw [drivesBalls, onHw_next, if_neg (mt (jtagActs_iff _ _).mp h)]

/-- Settles O57: three instructions that always act, and three that are BYPASS outside reset and MANUFACTURE. -/
theorem testAccessPort : Obligations.TestAccessPort := by
  unfold Obligations.TestAccessPort
  exact fun s l => ⟨rfl, rfl, rfl, fun ha => ⟨drivesBalls_acts _ ha, drivesBalls_acts _ ha, drivesBalls_acts _ ha⟩,
    fun hn => ⟨drivesBalls_idle _ hn, drivesBalls_idle _ hn, drivesBalls_idle _ hn⟩⟩

/-! ### After a cold reset -/

theorem reset_port (p : Nat) : State.reset.hw.port p = portInit p := rfl
theorem reset_cx (c : Nat) : State.reset.hw.cx c = cxInit c := rfl
theorem portInit_queue (p q : Nat) : (portInit p).queue q = queueInit q := rfl

/-- TC3 queues, from number 48 on, are shaped; no other is. -/
theorem queueInit_spec (q : Nat) : (queueInit q).maxDepth = 2048 ∧ (queueInit q).ecnEnable = false ∧ (queueInit q).entries = [] ∧
    (if 48 ≤ q then (queueInit q).shaper.enable = true ∧ (queueInit q).shaper.rate = 8000 ∧ (queueInit q).shaper.burst = 16384
     else (queueInit q).shaper.enable = false ∧ (queueInit q).shaper.rate = 0 ∧ (queueInit q).shaper.burst = 0) := by
  unfold queueInit
  by_cases hq : 48 ≤ q <;> simp [hq]

/-- Optical ports and electrical ports have limits of their own kind. -/
theorem limitsInit_spec (p : Nat) : (limitsInit p).credit = (if p < 256 then [656, 656, 64, 16] else [256, 256, 32, 8]) ∧
    (limitsInit p).moved = (if p < 256 then [328, 328, 32, 8] else [128, 128, 16, 8]) := by
  unfold limitsInit
  by_cases hp : p < 256 <;> simp [hp]

/-- Settles O60: every table after reset is empty, so each unit reads as its own initial value. -/
theorem resetValues : Obligations.ResetValues := by
  unfold Obligations.ResetValues
  refine ⟨rfl, ⟨Nat.zero_le 64, rfl⟩, fun p _ => ⟨fun q _ => ?_, ?_, ?_, fun _ => rfl, fun _ => rfl, fun _ => rfl, rfl, fun _ => rfl⟩,
    fun c _ => ⟨rfl, rfl, rfl⟩, fun _ _ => rfl, rfl, fun _ => ⟨rfl, rfl, rfl⟩, rfl, rfl, rfl, rfl, rfl, rfl, rfl, rfl, rfl, rfl, rfl, rfl, rfl, rfl, rfl,
    rfl, rfl⟩
  · rw [reset_port, portInit_queue]
    exact queueInit_spec q
  · exact (limitsInit_spec p).1
  · exact (limitsInit_spec p).2

end Sys2Proof.Machine
end

section
/-!
Scalar FP32 instructions (R358, R364): one lemma for the form, and the rows' arithmetic.
-/

namespace Sys2Proof.Machine
open Sys2Proof

/-- The low word of a scalar register. -/
theorem reg_low (th : Thread) (r : Nat) : ((th.reg r).setWidth 32).toNat = th.sr r % 2 ^ 32 := by
  rw [BitVec.toNat_setWidth, reg_toNat]

/-- A scalar FP32 instruction that computes `op` writes and counts what `res` says. -/
theorem fps_ends {func busy : Nat} {op res : Nat → Nat → Nat → Nat → Nat × Counters} (hop : ∀ i k a b, op i k a b = res i k a b)
    (s : State) (t : Nat) (c : Ctx) (hr : s.hw.Runs t 0x0A func c) (ha : c.Affords busy) :
    let r := res c.th.idx c.v.ev.rank ((c.th.reg (c.fld 20 16)).setWidth 32).toNat ((c.th.reg (c.fld 15 11)).setWidth 32).toNat
    onHw (fun _ h => h.fps t func busy op) s = .next (s.withHw (s.hw.retire c (c.after.write (c.fld 25 21) (BitVec.ofNat 64 r.1)) r.2 busy)) := by
  refine next_of_done hr ha ?_
  rw [reg_low, reg_low, ← hop]
  rfl

/-! ### The sign of a float -/

/-- A value with its sign changed; a NaN has none. -/
def Val.flipped (v : Val) : Val :=
  match v with
  | .inf n => .inf (! n)
  | .fin n m e => .fin (! n) m e
  | .nan => .nan

theorem bits_xor_above (b : Nat) {hi lo k : Nat} (hk : hi < k) (hlo : lo ≤ hi) : bits (b ^^^ 2 ^ k) hi lo = bits b hi lo := by
  have hzero : 2 ^ k >>> lo % 2 ^ (hi + 1 - lo) = 0 := by
    rw [Nat.shiftRight_eq_div_pow, Nat.pow_div (by omega) (by decide)]
    exact Nat.mod_eq_zero_of_dvd (Nat.pow_dvd_pow 2 (by omega))
  rw [bits, bits, Nat.shiftRight_xor_distrib, Nat.xor_mod_two_pow, hzero, Nat.xor_zero]

/-- Changing bit 31 changes the sign alone. -/
theorem f32_flip_sign (b : Nat) : f32 (b ^^^ 2 ^ 31) = (f32 b).flipped := by
  have hsign : (b ^^^ 2 ^ 31).testBit 31 = ! b.testBit 31 := by
    rw [Nat.testBit_xor, Nat.testBit_two_pow_self, Bool.xor_true]
  have hex : bits (b ^^^ 2 ^ 31) 30 23 = bits b 30 23 := bits_xor_above b (by decide) (by decide)
  have hman : (b ^^^ 2 ^ 31) % 2 ^ 23 = b % 2 ^ 23 := by
    simpa [bits] using bits_xor_above b (hi := 22) (lo := 0) (k := 31) (by decide) (by decide)
  simp only [f32, decodeFlt, fp32, hsign, hex, hman, Nat.reduceAdd, Nat.reduceSub]
  split_ifs <;> simp only [*, if_true, if_false, Val.flipped]

/-- Subtraction adds the value of the second operand with its sign bit changed. -/
theorem fpOp_sub (i k a b : Nat) :
    fpOp 1 fp32 i k a b 0 = fpResult fp32 i k ((f32 a).add (f32 (b ^^^ 2 ^ 31))) 1 (addInvalid (f32 a) (f32 (b ^^^ 2 ^ 31))) false := by
  rw [f32_flip_sign]
  cases hb : f32 b <;> simp only [f32] at hb <;> simp only [fpOp, hb, f32, Val.flipped]

/-- FCVT.S.L rounds the whole signed source. -/
theorem execFcvtSL_ends {s : State} {t : Nat} {c : Ctx} (hr : s.hw.Runs t 0x0A 0x0C c) (ha : c.Affords 1) :
    let k := (c.th.reg (c.fld 20 16)).toInt
    execFcvtSL t s = .next (s.withHw (s.hw.retire c
      (c.after.write (c.fld 25 21) (BitVec.ofNat 64 (encodeFlt fp32 .rne false (.fin (decide (k < 0)) k.natAbs 0) 1).1)) {} 1)) := by
  refine next_of_done hr ha ?_
  rw [← s64_toNat, reg_toNat]
  rfl

/-- Settles O2: each row is the form's lemma at the row's arithmetic. -/
theorem scalarFloatResult : Obligations.ScalarFloatResult := by
  unfold Obligations.ScalarFloatResult
  exact ⟨List.forall_iff_forall_mem.1 ⟨fps_ends fun _ _ _ _ => rfl, fps_ends fpOp_sub, fps_ends fun _ _ _ _ => rfl, fps_ends fun _ _ _ _ => rfl,
    fps_ends fun _ _ _ _ => rfl, fps_ends fun _ _ _ _ => rfl, fps_ends fun _ _ _ _ => rfl, fps_ends fun _ _ _ _ => rfl, fps_ends fun _ _ _ _ => rfl,
    fps_ends fun _ _ _ _ => rfl, fps_ends fun _ _ _ _ => rfl⟩, fun s t c => execFcvtSL_ends⟩

end Sys2Proof.Machine
end

section
/-!
Bytes and lanes: a lane of joined fields, the fields cut from a number, the size of a number that bytes spell, and a vector register made lane by lane
(R353, R354).
-/

namespace Sys2Proof.Machine
open Sys2Proof

/-! ### Joined and cut fields -/

theorem joinFields_lt (b : Nat) (l : List Nat) : joinFields b l < 2 ^ (b * l.length) := by
  induction l with
  | nil => simp [joinFields]
  | cons x l ih =>
    have hx : x % 2 ^ b < 2 ^ b := Nat.mod_lt _ (by positivity)
    rw [joinFields, List.length_cons, Nat.mul_succ, Nat.add_comm (b * l.length) b, Nat.pow_add]
    calc x % 2 ^ b + 2 ^ b * joinFields b l < 2 ^ b + 2 ^ b * joinFields b l := Nat.add_lt_add_right hx _
      _ = 2 ^ b * (joinFields b l + 1) := by rw [Nat.mul_succ, Nat.add_comm]
      _ ≤ 2 ^ b * 2 ^ (b * l.length) := Nat.mul_le_mul_left _ ih

/-- A lane of joined fields is the field cut to its bits; zero beyond the last. -/
theorem lane_joinFields (b : Nat) (l : List Nat) (k : Nat) : lane b (joinFields b l) k = nth l k % 2 ^ b := by
  induction l generalizing k with
  | nil => simp [joinFields, lane, nth]
  | cons x l ih =>
    have hx : x % 2 ^ b < 2 ^ b := Nat.mod_lt _ (by positivity)
    cases k with
    | zero => simp [joinFields, lane, nth, Nat.add_mul_mod_self_left]
    | succ k =>
      have htail : (x % 2 ^ b + 2 ^ b * joinFields b l) / 2 ^ b = joinFields b l := by
        rw [Nat.add_mul_div_left _ _ (by positivity), Nat.div_eq_of_lt hx, Nat.zero_add]
      rw [lane, joinFields, Nat.mul_succ, Nat.add_comm (b * k) b, Nat.pow_add, ← Nat.div_div_eq_div_mul, htail]
      exact ih k

theorem lane_lt (b v k : Nat) : lane b v k < 2 ^ b := Nat.mod_lt _ (by positivity)

theorem lane_mod (b v k : Nat) : lane b v k % 2 ^ b = lane b v k := Nat.mod_eq_of_lt (lane_lt b v k)

/-- A lane inside a cut number is that of the whole number. -/
theorem lane_mod_two_pow {b v k n : Nat} (hk : b * (k + 1) ≤ n) : lane b (v % 2 ^ n) k = lane b v k := by
  obtain ⟨m, rfl⟩ := Nat.exists_eq_add_of_le hk
  have hsplit : b * (k + 1) + m = b * k + (b + m) := by rw [Nat.mul_succ]; omega
  rw [lane, lane, hsplit, Nat.pow_add 2 (b * k), Nat.mod_mul_right_div_self, Nat.mod_mod_of_dvd _ (Nat.pow_dvd_pow 2 (Nat.le_add_right b m))]

/-- The fields cut from a number are its lanes. -/
theorem cutFields_eq_lanes (w n v : Nat) : cutFields w n v = (List.range n).map (lane w v) := by
  induction n generalizing v with
  | zero => rfl
  | succ n ih =>
    rw [cutFields, ih, List.range_succ_eq_map, List.map_cons, List.map_map]
    congr 1
    · simp [lane]
    · refine List.map_congr_left fun k _ => ?_
      rw [lane, Nat.div_div_eq_div_mul, ← Nat.pow_add]
      simp [lane, Nat.mul_succ, Nat.add_comm]

theorem nth_map_range {n : Nat} (f : Nat → Nat) {k : Nat} (hk : k < n) : nth ((List.range n).map f) k = f k := by
  simp [nth, List.getD, hk]

/-! ### The number that bytes spell -/

theorem leNat_cons (x : Byte) (l : List Byte) : leNat (x :: l) = leNat l * 256 + x.toNat := by
  simp [leNat, beNat, List.foldl_append]

theorem leNat_lt (l : List Byte) : leNat l < 2 ^ (8 * l.length) := by
  induction l with
  | nil => simp [leNat, beNat]
  | cons x l ih =>
    have hx : x.toNat < 256 := x.isLt
    have hpow : 2 ^ (8 * (x :: l).length) = 2 ^ (8 * l.length) * 256 := by rw [List.length_cons, Nat.mul_succ, Nat.pow_add]
    rw [leNat_cons, hpow]
    omega

theorem winRead_length (h : Hw) (c : Ctx) (w : Win) (o n : Nat) : (h.winRead c w o n).length = n := by
  unfold Hw.winRead
  generalize List.drop _ _ = m
  rw [List.length_append, List.length_take, List.length_replicate]
  omega

/-- The bytes of a number, least significant first, as the bytes of a register. -/
theorem leBytesN_eq_bytes (n : Nat) (v : Dword) : leBytesN n v.toNat = (List.range n).map (fun i => (v >>> (8 * i)).setWidth 8) := by
  rw [leBytesN, cutFields_eq_lanes, List.map_map]
  refine List.map_congr_left fun i _ => ?_
  apply BitVec.eq_of_toNat_eq
  simp [lane, Nat.shiftRight_eq_div_pow]

/-! ### A vector register made lane by lane -/

theorem laneBits_mul_laneCount (ty : Nat) : laneBits ty * laneCount ty = 512 := by
  unfold laneCount
  rcases laneBits_cases ty with h | h | h | h <;> rw [h]

theorem setV_toNat (th : Thread) (r v : Nat) : th.setV r (BitVec.ofNat 512 v).toNat = th.setV r v := by
  rw [Thread.setV, Thread.setV, BitVec.ofNat_toNat, BitVec.setWidth_eq]

/-- Fields joined into a vector register have as lanes the fields cut to their bits. -/
theorem lane_register {b n : Nat} {f : Nat → Nat} {k : Nat} (hbits : b * n ≤ 512) (hk : k < n) :
    lane b (BitVec.ofNat 512 (joinFields b ((List.range n).map f))).toNat k = f k % 2 ^ b := by
  have hlane : b * (k + 1) ≤ 512 := le_trans (Nat.mul_le_mul_left b hk) hbits
  rw [BitVec.toNat_ofNat, lane_mod_two_pow (n := 512) hlane, lane_joinFields, nth_map_range f hk]

/-- The register that `mapLanes` makes has the lanes that its function gives. -/
theorem mapLanes_lane (ty : Nat) (f : Nat → Nat × Counters) {k : Nat} (hk : k < laneCount ty) :
    lane (laneBits ty) (BitVec.ofNat 512 (mapLanes ty f).1).toNat k = (f k).1 % 2 ^ laneBits ty := by
  rw [mapLanes, List.map_map]
  exact lane_register (f := fun i => (f i).1) (laneBits_mul_laneCount ty).le hk

/-- The counts of `mapLanes` are those of its lanes joined in lane order. -/
theorem mapLanes_counts (ty : Nat) (f : Nat → Nat × Counters) :
    (mapLanes ty f).2 = (List.range (laneCount ty)).foldl (fun a k => a.join (f k).2) {} := by
  rw [mapLanes, List.foldl_map]

end Sys2Proof.Machine
end

section
/-!
Window access (Table 12.6, R353, R359, R377): the offset, what one access does, LD, ST, VLD, VST, WNARROW and WINFO.
-/

namespace Sys2Proof.Machine
open Sys2Proof

/-- The offset of an access, after PC has moved on. -/
theorem offset_after (c : Ctx) (n : Nat) :
    ({ c with th := c.after } : Ctx).offset n = (c.th.reg (c.fld 20 16) + (BitVec.ofNat 10 c.w).signExtend 64 * BitVec.ofNat 64 n).toNat := by
  have hsx : ({ c with th := c.after } : Ctx).sx 9 0 = ((BitVec.ofNat 10 c.w).signExtend 64).toNat := sx_low c 9
  rw [Ctx.offset, hsx]
  simp only [BitVec.toNat_add, BitVec.toNat_mul, BitVec.toNat_ofNat, reg_toNat, Nat.mul_mod_mod, Nat.add_mod_mod]
  rfl

/-- One access traps by the first failure in the order of R377, or is done. -/
theorem access_one (th : Thread) (a : Access) (k : IRes) :
    th.access [a] k =
      if (th.win a.r).kind = 0 ∨ (a.rd = true ∧ (th.win a.r).rd = false) ∨ (a.wr = true ∧ (th.win a.r).wr = false) then .trap 2 a.r a.off
      else if (th.win a.r).len < a.off + a.len then .trap 1 a.r a.off
      else if a.off % a.align ≠ 0 then .trap 3 a.r a.off
      else k := by
  by_cases hright : (th.win a.r).kind = 0 ∨ (a.rd = true ∧ (th.win a.r).rd = false) ∨ (a.wr = true ∧ (th.win a.r).wr = false)
  · have hbad : (decide ((th.win a.r).kind = 0) || (a.rd && ! (th.win a.r).rd) || (a.wr && ! (th.win a.r).wr)) = true := by
      simpa [or_assoc] using hright
    simp [Thread.access, Thread.accessFails, List.find?, hbad, hright]
  · have hbad : (decide ((th.win a.r).kind = 0) || (a.rd && ! (th.win a.r).rd) || (a.wr && ! (th.win a.r).wr)) = false := by
      rw [Bool.eq_false_iff]; simpa [or_assoc] using hright
    rw [if_neg hright]
    by_cases hlen : (th.win a.r).len < a.off + a.len
    · simp [Thread.access, Thread.accessFails, List.find?, hbad, hlen]
    · by_cases halign : a.off % a.align = 0 <;> simp [Thread.access, Thread.accessFails, List.find?, hbad, hlen, halign]

section
variable {s : State} {t : Nat} {c : Ctx}

theorem execLd_ends (hr : s.hw.Runs t 0x0C 0 c) (ha : c.Affords 1) :
    let n := 2 ^ c.fld 12 11
    let r := c.fld 15 13
    let o := (c.th.reg (c.fld 20 16) + (BitVec.ofNat 10 c.w).signExtend 64 * BitVec.ofNat 64 n).toNat
    let v := BitVec.ofNat 64 (leNat (s.hw.winRead { c with th := c.after } (c.th.win r) o n))
    c.th.Grants r true false o n n →
      execLd t s = .next (s.withHw (s.hw.retire c
        (c.after.write (c.fld 25 21) (if c.fld 10 10 = 1 then BitVec.ofInt 64 (toSigned (8 * n) v.toNat) else v)) {} 1)) := by
  intro n r o v hg
  have hn : n ≤ 2 ^ 3 := Nat.pow_le_pow_right (by decide) (Nat.le_of_lt_succ (Nat.mod_lt _ (by decide)))
  have hv : v.toNat = leNat (s.hw.winRead { c with th := c.after } (c.th.win r) o n) := by
    refine Nat.mod_eq_of_lt (lt_of_lt_of_le (leNat_lt _) (Nat.pow_le_pow_right (by decide) ?_))
    rw [winRead_length]
    omega
  refine next_of_done hr ha ?_
  simp only [fld_withTh, offset_after, after_win]
  rw [access_of_grants (after_grants hg), ends, setS_write, ← hv]
  simp only [apply_ite (BitVec.ofNat 64), ofNat_u64]
  congr 2
  split
  · rfl
  · simp

theorem execSt_ends (hr : s.hw.Runs t 0x0D 0 c) (ha : c.Affords 1) :
    let n := 2 ^ c.fld 12 11
    let r := c.fld 15 13
    let o := (c.th.reg (c.fld 20 16) + (BitVec.ofNat 10 c.w).signExtend 64 * BitVec.ofNat 64 n).toNat
    c.th.Grants r false true o n n →
      execSt t s = .next (s.withHw ((s.hw.winWrite { c with th := c.after } (c.th.win r) o
        ((List.range n).map (fun i => ((c.th.reg (c.fld 25 21)) >>> (8 * i)).setWidth 8))).retire c c.after {} 1)) := by
  intro n r o hg
  refine next_of_done hr ha ?_
  simp only [fld_withTh, offset_after, after_win, after_sr]
  rw [access_of_grants (after_grants hg), ← leBytesN_eq_bytes, reg_toNat]
  rfl

theorem execVld_ends (hr : s.hw.Runs t 0x0E 0 c) (ha : c.Affords 1) :
    let r := c.fld 15 13
    let o := (c.th.reg (c.fld 20 16) + (BitVec.ofNat 10 c.w).signExtend 64 * 64).toNat
    let v := c.th.vr (c.fld 25 22)
    c.th.Grants r true false o 64 64 →
      ∃ z : BitVec 512, (∀ k < 64, lane 8 z.toNat k =
          if c.th.active (c.fld 12 10) 8 k then ((s.hw.winRead { c with th := c.after } (c.th.win r) o 64).getD k 0).toNat else lane 8 v k) ∧
        execVld t s = .next (s.withHw (s.hw.retire c (c.after.setV (c.fld 25 22) z.toNat) {} 1)) := by
  intro r o v hg
  let f (k : Nat) : Nat := if c.th.active (c.fld 12 10) 8 k then ((s.hw.winRead { c with th := c.after } (c.th.win r) o 64).getD k 0).toNat else lane 8 v k
  refine ⟨BitVec.ofNat 512 (joinFields 8 ((List.range 64).map f)), fun k hk => ?_, next_of_done hr ha ?_⟩
  · rw [lane_register (by decide) hk, Nat.mod_eq_of_lt]
    simp only [f]
    split
    · exact BitVec.isLt _
    · exact lane_lt _ _ _
  · simp only [fld_withTh, offset_after, after_win]
    refine (access_of_grants (after_grants hg)).trans ?_
    rw [setV_toNat]
    rfl

theorem execVst_ends (hr : s.hw.Runs t 0x0F 0 c) (ha : c.Affords 1) :
    let r := c.fld 15 13
    let o := (c.th.reg (c.fld 20 16) + (BitVec.ofNat 10 c.w).signExtend 64 * 64).toNat
    let v := c.th.vr (c.fld 25 22)
    c.th.Grants r false true o 64 64 →
      execVst t s = .next (s.withHw (((List.range 64).foldl (fun h k => if c.th.active (c.fld 12 10) 8 k
        then h.winWrite { c with th := c.after } (c.th.win r) (o + k) [BitVec.ofNat 8 (v >>> (8 * k))] else h) s.hw).retire c c.after {} 1)) := by
  intro r o v hg
  have hbyte (k : Nat) : BitVec.ofNat 8 (lane 8 v k) = BitVec.ofNat 8 (v >>> (8 * k)) := by
    apply BitVec.eq_of_toNat_eq
    simp [lane, Nat.shiftRight_eq_div_pow]
  refine next_of_done hr ha ?_
  simp only [fld_withTh, offset_after, after_win]
  refine (access_of_grants (after_grants hg)).trans ?_
  simp only [← hbyte]
  rfl
end

/-- Settles O3. -/
theorem windowLoadsAndStores : Obligations.WindowLoadsAndStores := by
  unfold Obligations.WindowLoadsAndStores
  exact ⟨fun s t c => ⟨fun hr ha => execLd_ends hr ha, fun hr ha => execSt_ends hr ha⟩,
    fun s t c ha => ⟨fun hr => execVld_ends hr ha, fun hr => execVst_ends hr ha⟩⟩

/-! ### Traps, WNARROW and WINFO -/

/-- An instruction that is one window access traps as the access does. -/
theorem access_traps {s : State} {t maj : Nat} {c : Ctx} {rd : Bool} {n : Nat} {f : Hw → Ctx → IRes} (hr : s.hw.Runs t maj 0 c) (k : IRes)
    (hf : f s.hw { c with th := c.after } =
      c.after.access [{ r := c.fld 15 13, rd := rd, wr := ! rd, off := ({ c with th := c.after } : Ctx).offset n, len := n, align := n }] k) :
    let r := c.fld 15 13
    let o := (c.th.reg (c.fld 20 16) + (BitVec.ofNat 10 c.w).signExtend 64 * BitVec.ofNat 64 n).toNat
    let w := c.th.win r
    let right := w.kind ≠ 0 ∧ (if rd then w.rd else w.wr) = true
    (¬ right → onHw (fun _ h => h.isa t (2048 * maj) f) s = .next (s.withHw (s.hw.trap t 2 r o))) ∧
    (right → w.len < o + n → onHw (fun _ h => h.isa t (2048 * maj) f) s = .next (s.withHw (s.hw.trap t 1 r o))) ∧
    (right → o + n ≤ w.len → o % n ≠ 0 → onHw (fun _ h => h.isa t (2048 * maj) f) s = .next (s.withHw (s.hw.trap t 3 r o))) := by
  intro r o w right
  have hright : ¬ right ↔ w.kind = 0 ∨ (rd = true ∧ w.rd = false) ∨ ((! rd) = true ∧ w.wr = false) := by
    cases rd <;> simp [right, imp_iff_not_or]
  rw [access_one, offset_after] at hf
  change f s.hw { c with th := c.after } = if w.kind = 0 ∨ (rd = true ∧ w.rd = false) ∨ ((! rd) = true ∧ w.wr = false) then _ else _ at hf
  rw [← if_congr hright rfl rfl] at hf
  refine ⟨fun hno => next_of_trap hr ?_, fun hyes hlen => next_of_trap hr ?_, fun hyes hlen halign => next_of_trap hr ?_⟩
  · rw [hf, if_pos hno]
  · exact hf.trans ((if_neg (not_not.2 hyes)).trans (if_pos hlen))
  · exact hf.trans ((if_neg (not_not.2 hyes)).trans ((if_neg (not_lt.2 hlen)).trans (if_pos halign)))

section
variable {s : State} {t : Nat} {c : Ctx}

theorem execWnarrow_ends (hr : s.hw.Runs t 0x11 0 c) (ha : c.Affords 1) :
    let w := c.th.win (c.fld 22 20)
    let o := c.th.sr (c.fld 19 15)
    let n := c.th.sr (c.fld 14 10)
    let rd := decide (c.fld 9 9 = 1)
    let wr := decide (c.fld 8 8 = 1)
    (rd = true → w.rd = true) → (wr = true → w.wr = true) → o + n ≤ w.len → o % 4 = 0 →
      execWnarrow t s = .next (s.withHw (s.hw.retire c (c.after.setW (c.fld 25 23)
        (if n = 0 then {} else { kind := 7, rd := rd, wr := wr, len := n, under := w.under, off := w.off + o })) {} 1)) := by
  intro w o n rd wr hrd hwr hlen halign
  refine next_of_done hr ha ?_
  have hright : ¬ ((rd = true ∧ ¬ w.rd = true) ∨ (wr = true ∧ ¬ w.wr = true)) := by
    rintro (⟨hasks, hlacks⟩ | ⟨hasks, hlacks⟩)
    exacts [hlacks (hrd hasks), hlacks (hwr hasks)]
  exact (if_neg hright).trans ((if_neg (not_lt.2 hlen)).trans (if_neg (not_not.2 halign)))

theorem execWinfo_ends (hr : s.hw.Runs t 0x11 1 c) (ha : c.Affords 1) :
    let w := c.th.win (c.fld 22 20)
    execWinfo t s = .next (s.withHw (s.hw.retire c (c.after.write (c.fld 19 15)
      (BitVec.ofNat 64 (w.kind + (if w.rd then 16 else 0) + (if w.wr then 32 else 0) + 256 * w.len))) {} 1)) := by
  intro w
  have hread : w.read = w.kind + (if w.rd then 16 else 0) + (if w.wr then 32 else 0) + 256 * w.len := by
    rw [Win.read]
    cases w.rd <;> cases w.wr <;> simp [b2n, Nat.mul_comm]
  refine next_of_done hr ha ?_
  rw [← hread, ← setS_write]
  rfl
end

/-- Settles O4. -/
theorem windowTrapsAndNarrowing : Obligations.WindowTrapsAndNarrowing := by
  unfold Obligations.WindowTrapsAndNarrowing
  refine ⟨List.forall_iff_forall_mem.1 ⟨fun s t c hr => ?_, fun s t c hr => ?_, fun s t c hr => ?_, fun s t c hr => ?_⟩,
    fun s t c => ⟨fun hr ha => execWnarrow_ends hr ha, fun hr ha => execWinfo_ends hr ha⟩⟩
  all_goals
    exact access_traps hr _ rfl

end Sys2Proof.Machine
end

section
/-!
Lane operations (Table 12.8, R229, R354, R364, R365): what a word that names an instruction is, one lemma for the form of a lane operation, one for each
of its two kinds of row, and the rows' arithmetic.
-/

namespace Sys2Proof.Machine
open Sys2Proof

/-! ### The word of an instruction -/

theorem bits_lt (w hi lo : Nat) : bits w hi lo < 2 ^ (hi + 1 - lo) := Nat.mod_lt _ (by positivity)

theorem funcOf_lt (w : Nat) : funcOf w < 2048 := by
  unfold funcOf
  split
  iterate 2 exact bits_lt w 10 0
  iterate 3 exact (bits_lt w 3 0).trans (by decide)
  iterate 3 exact (bits_lt w 7 0).trans (by decide)
  · exact (bits_lt w 5 3).trans (by decide)
  · decide

/-- The word of an instruction that runs is legal, and has its MAJOR and FUNC. -/
theorem legal_of_runs {h : Hw} {t maj func : Nat} {c : Ctx} (hr : h.Runs t maj func c) (hfunc : func < 2048) :
    legal c.w = true ∧ major c.w = maj ∧ funcOf c.w = func := by
  obtain ⟨_, hkey⟩ := hr
  have hlt := funcOf_lt c.w
  unfold opKey at hkey
  split at hkey
  · next hl =>
    injection hkey with hkey
    exact ⟨hl, by omega, by omega⟩
  · cases hkey

theorem vecTypes_of_runs {h : Hw} {t func : Nat} {c : Ctx} (hr : h.Runs t 0x14 func c) (hfunc : func < 2048) : vecTypes func (c.fld 10 8) = true := by
  obtain ⟨hl, hmaj, hfn⟩ := legal_of_runs hr hfunc
  simp only [legal, hmaj, hfn, Bool.and_eq_true] at hl
  exact hl.1

/-! ### The form of a lane operation -/

section
variable {s : State} {t func : Nat} {c : Ctx}

/-- What a lane of the result is before it is cut to its bits, and what it counts. -/
def Ctx.vecLane (c : Ctx) (op : Nat → Nat → Nat → Nat → Nat → Nat → Nat × Counters) (k : Nat) : Nat × Counters :=
  let b := laneBits (c.fld 10 8)
  let d := lane b (c.th.vr (c.fld 25 22)) k
  if c.th.active (c.fld 13 11) b k then
    op (c.fld 10 8) (c.th.idx + k) c.v.ev.rank (lane b (c.th.vr (c.fld 21 18)) k) (lane b (c.th.vr (c.fld 17 14)) k) d
  else (d, {})

theorem vec_ends {busy : Nat → Nat} {op : Nat → Nat → Nat → Nat → Nat → Nat → Nat × Counters} (hr : s.hw.Runs t 0x14 func c)
    (ha : c.Affords (busy (c.fld 10 8))) :
    ∃ v : BitVec 512, (∀ k < laneCount (c.fld 10 8), lane (laneBits (c.fld 10 8)) v.toNat k = (c.vecLane op k).1 % 2 ^ laneBits (c.fld 10 8)) ∧
      onHw (fun _ h => h.vec t func busy op) s = .next (s.withHw (s.hw.retire c (c.after.setV (c.fld 25 22) v.toNat)
        ((List.range (laneCount (c.fld 10 8))).foldl (fun a k => a.join (c.vecLane op k).2) {}) (busy (c.fld 10 8)))) := by
  refine ⟨BitVec.ofNat 512 (mapLanes (c.fld 10 8) (c.vecLane op)).1, fun k hk => mapLanes_lane _ _ hk, next_of_done hr ha ?_⟩
  rw [setV_toNat, ← mapLanes_counts]
  rfl

/-- Lane arithmetic: a float operation for the float TYPEs, an integer one modulo the lane for the others. -/
theorem arith_ends {fop : Nat} {busy : Nat → Nat} {iop : Nat → Nat → Nat → Nat → Nat} {op : Nat → Nat → Nat → Nat → Nat → Nat → Nat × Counters}
    (hfunc : func < 2048) (hbusy : ∀ ty, busy ty = if func = 4 ∨ func = 5 then 4 else if ty = 1 ∨ ty = 2 then 2 else 1)
    (hop : ∀ ty idx rank x y d, vecTypes func ty = true → x < 2 ^ laneBits ty → y < 2 ^ laneBits ty →
      op ty idx rank x y d = if ty ≤ 2 then fpOp fop (fltOf ty) idx rank x y d else (iop (laneBits ty) x y d % 2 ^ laneBits ty, {}))
    (s : State) (t : Nat) (c : Ctx) :
    let ty := c.fld 10 8
    let b := laneBits ty
    let busy' := if func = 4 ∨ func = 5 then 4 else if ty = 1 ∨ ty = 2 then 2 else 1
    let old := c.th.vr (c.fld 25 22)
    let res (k : Nat) : Nat × Counters :=
      let x := lane b (c.th.vr (c.fld 21 18)) k
      let y := lane b (c.th.vr (c.fld 17 14)) k
      if ¬ c.th.active (c.fld 13 11) b k then (lane b old k, {})
      else if ty ≤ 2 then fpOp fop (fltOf ty) (c.th.idx + k) c.v.ev.rank x y (lane b old k)
      else (iop b x y (lane b old k) % 2 ^ b, {})
    s.hw.Runs t 0x14 func c → c.Affords busy' →
      ∃ v : BitVec 512, (∀ k < laneCount ty, lane b v.toNat k = (res k).1 % 2 ^ b) ∧
        onHw (fun _ h => h.vec t func busy op) s = .next (s.withHw (s.hw.retire c (c.after.setV (c.fld 25 22) v.toNat)
          ((List.range (laneCount ty)).foldl (fun a k => a.join (res k).2) {}) busy')) := by
  intro ty b busy' old res hr ha
  have hres (k : Nat) : c.vecLane op k = res k := by
    unfold Ctx.vecLane
    simp only [res, ite_not]
    rw [hop _ _ _ _ _ _ (vecTypes_of_runs hr hfunc) (lane_lt _ _ _) (lane_lt _ _ _)]
  have hcycles : busy ty = busy' := hbusy ty
  obtain ⟨v, hv, hend⟩ := vec_ends (op := op) hr (hcycles.symm ▸ ha)
  simp only [hres] at hv hend
  exact ⟨v, hv, hcycles ▸ hend⟩

/-- Whether a saturating operation's exact result lies outside INT32. -/
def outsideInt32 (z : Int) : Bool := decide (z < -(2 ^ 31) ∨ 2 ^ 31 ≤ z)

/-- Whether VADDS or VSUBS of two lanes counts SATURATED. -/
def laneSaturates (func ty x y : Nat) : Bool :=
  decide (ty = 5) && ((decide (func = 0x16) && outsideInt32 (sLane ty x + sLane ty y)) || (decide (func = 0x17) && outsideInt32 (sLane ty x - sLane ty y)))

/-- A lane operation that counts at most the saturation of VADDS and VSUBS. -/
theorem lanewise_ends {busy : Nat → Nat} {val : Nat → Nat → Nat → Nat} {op : Nat → Nat → Nat → Nat → Nat → Nat → Nat × Counters}
    (hbusy : ∀ ty, busy ty = if (func = 6 ∨ func = 7) ∧ (ty = 1 ∨ ty = 2) then 2 else 1)
    (hval : ∀ ty idx rank x y d, x < 2 ^ laneBits ty → (op ty idx rank x y d).1 % 2 ^ laneBits ty = val ty x y % 2 ^ laneBits ty)
    (hctr : ∀ ty idx rank x y d, (op ty idx rank x y d).2 = { sat := b2n (laneSaturates func ty x y) }) (s : State) (t : Nat) (c : Ctx) :
    let ty := c.fld 10 8
    let b := laneBits ty
    let busy' := if (func = 6 ∨ func = 7) ∧ (ty = 1 ∨ ty = 2) then 2 else 1
    let x (k : Nat) := lane b (c.th.vr (c.fld 21 18)) k
    let y (k : Nat) := lane b (c.th.vr (c.fld 17 14)) k
    let out (z : Int) : Bool := decide (z < -(2 ^ 31) ∨ 2 ^ 31 ≤ z)
    let sat (k : Nat) : Bool := decide (ty = 5) && c.th.active (c.fld 13 11) b k &&
      ((decide (func = 0x16) && out (sLane ty (x k) + sLane ty (y k))) || (decide (func = 0x17) && out (sLane ty (x k) - sLane ty (y k))))
    s.hw.Runs t 0x14 func c → c.Affords busy' →
      ∃ v : BitVec 512, (∀ k < laneCount ty, lane b v.toNat k =
          if c.th.active (c.fld 13 11) b k then val ty (x k) (y k) % 2 ^ b else lane b (c.th.vr (c.fld 25 22)) k) ∧
        onHw (fun _ h => h.vec t func busy op) s = .next (s.withHw (s.hw.retire c (c.after.setV (c.fld 25 22) v.toNat)
          ((List.range (laneCount ty)).foldl (fun a k => a.join { sat := b2n (sat k) }) {}) busy')) := by
  intro ty b busy' x y out sat hr ha
  have hcycles : busy ty = busy' := hbusy ty
  have hone (k : Nat) : (c.vecLane op k).1 % 2 ^ b = if c.th.active (c.fld 13 11) b k then val ty (x k) (y k) % 2 ^ b else lane b (c.th.vr (c.fld 25 22)) k := by
    unfold Ctx.vecLane
    simp only [apply_ite Prod.fst, apply_ite (· % 2 ^ b)]
    exact if_congr Iff.rfl (hval _ _ _ _ _ _ (lane_lt _ _ _)) (lane_mod _ _ _)
  have htwo (k : Nat) : (c.vecLane op k).2 = { sat := b2n (sat k) } := by
    unfold Ctx.vecLane
    simp only [apply_ite Prod.snd, hctr, sat]
    split
    · next hact =>
      rw [hact, Bool.and_true]
      rfl
    · next hact =>
      rw [Bool.not_eq_true] at hact
      rw [hact, Bool.and_false, Bool.false_and]
      rfl
  obtain ⟨v, hv, hend⟩ := vec_ends (op := op) hr (hcycles.symm ▸ ha)
  simp only [htwo] at hend
  exact ⟨v, fun k hk => (hv k hk).trans (hone k), hcycles ▸ hend⟩
end

/-! ### The rows' arithmetic -/

/-- A signed result cut to a lane, where it agrees with a number modulo the lane. -/
theorem ofSigned_of_emod {b : Nat} {z : Int} {n : Nat} (h : z % 2 ^ b = (n : Int) % 2 ^ b) : ofSigned b z = n % 2 ^ b := by
  have hcast : (n : Int) % 2 ^ b = ((n % 2 ^ b : Nat) : Int) := by push_cast; rfl
  rw [ofSigned, h, hcast, Int.toNat_natCast]

theorem ofSigned_natCast (b n : Nat) : ofSigned b n = n % 2 ^ b := ofSigned_of_emod rfl

theorem ofSigned_mod (b : Nat) (z : Int) : ofSigned b z % 2 ^ b = ofSigned b z := by
  rw [ofSigned_eq_toNat]
  exact Nat.mod_eq_of_lt (BitVec.isLt _)

/-- A difference modulo the lane. -/
theorem ofSigned_sub {b x y : Nat} (hy : y < 2 ^ b) : ofSigned b ((x : Int) - y) = (x + (2 ^ b - y)) % 2 ^ b := by
  refine ofSigned_of_emod ?_
  have hcast : ((x + (2 ^ b - y) : Nat) : Int) = (x : Int) - y + 2 ^ b := by
    rw [Nat.cast_add, Nat.cast_sub hy.le]; push_cast; ring
  rw [hcast, Int.add_emod_right]

theorem ofSigned_neg {b x : Nat} (hx : x < 2 ^ b) : ofSigned b (-(x : Int)) = (2 ^ b - x) % 2 ^ b := by
  have h := ofSigned_sub (x := 0) hx
  rwa [Nat.cast_zero, zero_sub, zero_add] at h

theorem natAbs_toSigned {b x : Nat} (hx : x < 2 ^ b) : (toSigned b x).natAbs = if x.testBit (b - 1) then 2 ^ b - x else x := by
  unfold toSigned
  split
  · have hcast : (x : Int) - 2 ^ b = -((2 ^ b - x : Nat) : Int) := by
      rw [Nat.cast_sub hx.le]; push_cast; ring
    rw [hcast, Int.natAbs_neg, Int.natAbs_natCast]
  · rfl

/-- Lane arithmetic whose integer meaning is a number modulo the lane. -/
theorem eitherOp_mod {fop : Nat} {iop : Nat → Nat → Nat → Int} {n ty idx rank x y d : Nat} (h : ofSigned (laneBits ty) (iop x y d) = n % 2 ^ laneBits ty) :
    eitherOp fop iop ty idx rank x y d = if ty ≤ 2 then fpOp fop (fltOf ty) idx rank x y d else (n % 2 ^ laneBits ty, {}) := by
  rw [eitherOp, h]

/-- An operation of FP32 alone is the float operation of every TYPE it may have. -/
theorem fp32_only {fop func : Nat} (hfunc : func = 4 ∨ func = 5) {ty : Nat} (hty : vecTypes func ty = true) (idx rank x y d : Nat) (n : Nat × Counters) :
    fpOp fop fp32 idx rank x y d = if ty ≤ 2 then fpOp fop (fltOf ty) idx rank x y d else n := by
  have hzero : ty = 0 := by rcases hfunc with rfl | rfl <;> simpa [vecTypes] using hty
  subst hzero
  rfl

theorem satInt_eq_clamp (lo hi v : Int) (hle : lo ≤ hi) : (satInt lo hi v).1 = max lo (min hi v) := by
  unfold satInt
  split_ifs <;> omega

theorem satInt_saturates (lo hi v : Int) : (satInt lo hi v).2 = decide (v < lo ∨ hi < v) := by
  unfold satInt
  split_ifs <;> simp_all

theorem satLane_val (ty : Nat) (v : Int) : (satLane ty v).1 = ofSigned (laneBits ty) (max (-(2 ^ (laneBits ty - 1))) (min (2 ^ (laneBits ty - 1) - 1) v)) := by
  have hpos : (0 : Int) < 2 ^ (laneBits ty - 1) := by positivity
  rw [← satInt_eq_clamp _ _ _ (by omega)]
  rfl

theorem satLane_counts (ty : Nat) (v : Int) : (satLane ty v).2 = { sat := b2n (decide (ty = 5) && outsideInt32 v) } := by
  have hcounts : (satLane ty v).2 = { sat := b2n ((satInt (-(2 ^ (laneBits ty - 1))) (2 ^ (laneBits ty - 1) - 1) v).2 && decide (ty = 5)) } := rfl
  rw [hcounts, satInt_saturates, Bool.and_comm]
  by_cases hty : ty = 5
  · subst hty
    have hiff : (v < -(2 ^ (laneBits 5 - 1)) ∨ 2 ^ (laneBits 5 - 1) - 1 < v) ↔ (v < -(2 ^ 31) ∨ 2 ^ 31 ≤ v) := by
      simp only [laneBits]; omega
    rw [outsideInt32, decide_eq_decide.2 hiff]
  · simp [hty]

theorem ofSigned_sra {b x : Nat} (hx : x < 2 ^ b) (n : Nat) : ofSigned b (toSigned b x / 2 ^ n) = ((BitVec.ofNat b x).sshiftRight n).toNat := by
  have hval : toSigned b x = (BitVec.ofNat b x).toInt := by rw [← toSigned_mod, Nat.mod_eq_of_lt hx]
  rw [hval, ofSigned_eq_toNat, BitVec.sshiftRight, Int.shiftRight_eq_div_pow]
  push_cast
  rfl

/-- An operation other than VADDS and VSUBS saturates nothing. -/
theorem uncounted {func : Nat} (hfunc : func ≠ 0x16 ∧ func ≠ 0x17) (ty _idx _rank x y _d : Nat) :
    ({} : Counters) = { sat := b2n (laneSaturates func ty x y) } := by
  simp [laneSaturates, hfunc, b2n]

/-- Settles O7: each row is its kind's lemma at the row's arithmetic. -/
theorem vectorLaneOperations : Obligations.VectorLaneOperations := by
  unfold Obligations.VectorLaneOperations
  refine ⟨List.forall_iff_forall_mem.1 ⟨?_, ?_, ?_, ?_, ?_, ?_, ?_, ?_⟩, List.forall_iff_forall_mem.1 ⟨?_, ?_, ?_, ?_, ?_, ?_, ?_, ?_, ?_, ?_, ?_⟩⟩
  · exact arith_ends (by decide) (fun _ => rfl) fun ty _ _ x y _ _ _ _ => eitherOp_mod (ofSigned_natCast _ (x + y))
  · exact arith_ends (by decide) (fun _ => rfl) fun ty _ _ x y _ _ _ hy => eitherOp_mod (ofSigned_sub hy)
  · exact arith_ends (by decide) (fun _ => rfl) fun ty _ _ x y _ _ _ _ => eitherOp_mod (ofSigned_natCast _ (x * y))
  · exact arith_ends (by decide) (fun _ => rfl) fun ty _ _ x y d _ _ _ => eitherOp_mod (ofSigned_natCast _ (x * y + d))
  · exact arith_ends (by decide) (fun _ => rfl) fun ty i r x y d hty _ _ => fp32_only (.inl rfl) hty i r x y d _
  · exact arith_ends (by decide) (fun _ => rfl) fun ty i r x y d hty _ _ => fp32_only (.inr rfl) hty i r x y d _
  · refine arith_ends (by decide) (fun _ => rfl) fun ty _ _ x y _ _ hx _ => eitherOp_mod ?_
    rw [sLane, ofSigned_natCast, natAbs_toSigned hx]
  · exact arith_ends (by decide) (fun _ => rfl) fun ty _ _ x y _ _ hx _ => eitherOp_mod (ofSigned_neg hx)
  · exact lanewise_ends (fun _ => by simp [vecBusy]) (fun _ _ _ _ _ _ _ => rfl) (uncounted (by decide))
  · exact lanewise_ends (fun _ => by simp [vecBusy]) (fun _ _ _ _ _ _ _ => rfl) (uncounted (by decide))
  · exact lanewise_ends (fun _ => rfl) (fun _ _ _ _ _ _ _ => rfl) (uncounted (by decide))
  · exact lanewise_ends (fun _ => rfl) (fun _ _ _ _ _ _ _ => rfl) (uncounted (by decide))
  · exact lanewise_ends (fun _ => rfl) (fun _ _ _ _ _ _ _ => rfl) (uncounted (by decide))
  · exact lanewise_ends (fun _ => rfl) (fun _ _ _ _ _ _ _ => rfl) (uncounted (by decide))
  · exact lanewise_ends (fun _ => rfl) (fun _ _ _ _ _ _ _ => rfl) (uncounted (by decide))
  · exact lanewise_ends (fun _ => rfl) (fun _ _ _ _ _ _ hx => congrArg (· % _) (ofSigned_sra hx _)) (uncounted (by decide))
  · exact lanewise_ends (fun _ => rfl) (fun ty _ _ _ _ _ _ => congrArg (· % _) (satLane_val ty _)) fun ty _ _ x y _ =>
      (satLane_counts ty _).trans (by simp [laneSaturates])
  · exact lanewise_ends (fun _ => rfl) (fun ty _ _ _ _ _ _ => congrArg (· % _) (satLane_val ty _)) fun ty _ _ x y _ =>
      (satLane_counts ty _).trans (by simp [laneSaturates])
  · exact lanewise_ends (fun _ => rfl) (fun _ _ _ _ _ _ _ => rfl) (uncounted (by decide))

end Sys2Proof.Machine
end

section
/-!
Moves between lanes, predicates and scalars (Table 12.8, R354, R361, R362): VSEL, VCMP, VSPLAT, VINS and VEXT.
-/

namespace Sys2Proof.Machine
open Sys2Proof

/-! ### The bits of joined fields -/

theorem testBit_lane {b i : Nat} (hi : i < b) (v k : Nat) : (lane b v k).testBit i = v.testBit (b * k + i) := by
  rw [lane, Nat.testBit_mod_two_pow, Nat.testBit_div_two_pow]
  simp [hi, Nat.add_comm]

/-- A bit of joined fields is a bit of the field that covers it. -/
theorem testBit_joinFields {b : Nat} (hb : 0 < b) (l : List Nat) (j : Nat) : (joinFields b l).testBit j = (nth l (j / b)).testBit (j % b) := by
  have hmod : j % b < b := Nat.mod_lt _ hb
  have hfield : (lane b (joinFields b l) (j / b)).testBit (j % b) = (joinFields b l).testBit j := by
    rw [testBit_lane hmod, Nat.div_add_mod]
  rw [← hfield, lane_joinFields, Nat.testBit_mod_two_pow]
  simp [hmod]

theorem setP_toNat (th : Thread) (r v : Nat) : th.setP r (BitVec.ofNat 64 v).toNat = th.setP r v := by
  rw [Thread.setP, Thread.setP, BitVec.ofNat_toNat, BitVec.setWidth_eq]

theorem laneBytes_mul_laneCount (ty : Nat) : laneBits ty / 8 * laneCount ty = 64 := by
  unfold laneCount
  rcases laneBits_cases ty with h | h | h | h <;> rw [h]

section
variable {s : State} {t : Nat} {c : Ctx}

/-- An instruction that writes a register lane by lane and counts nothing. -/
theorem lanes_written {maj func : Nat} (ty r : Nat) (f : Nat → Nat) (hr : s.hw.Runs t maj func c) (ha : c.Affords 1) :
    ∃ v : BitVec 512, (∀ k < laneCount ty, lane (laneBits ty) v.toNat k = f k % 2 ^ laneBits ty) ∧ ∀ g : Hw → Ctx → IRes,
      g s.hw { c with th := c.after } = ends s.hw (c.after.setV r (mapLanes ty (fun i => (f i, {}))).1) →
      onHw (fun _ h => h.isa t (2048 * maj + func) g) s = .next (s.withHw (s.hw.retire c (c.after.setV r v.toNat) {} 1)) := by
  refine ⟨_, fun k hk => mapLanes_lane ty (fun i => (f i, {})) hk, fun g hg => next_of_done hr ha ?_⟩
  rw [setV_toNat, hg]
  rfl

theorem execVsel_ends (ha : c.Affords 1) (hr : s.hw.Runs t 0x14 0x19 c) :
    let b := laneBits (c.fld 10 8)
    ∃ v : BitVec 512, (∀ k < laneCount (c.fld 10 8), lane b v.toNat k =
        lane b (c.th.vr (if c.th.active (c.fld 13 11) b k then c.fld 21 18 else c.fld 17 14)) k) ∧
      execVsel t s = .next (s.withHw (s.hw.retire c (c.after.setV (c.fld 25 22) v.toNat) {} 1)) := by
  intro b
  obtain ⟨v, hv, hend⟩ := lanes_written (c.fld 10 8) (c.fld 25 22)
    (fun k => lane b (c.th.vr (if c.th.active (c.fld 13 11) b k then c.fld 21 18 else c.fld 17 14)) k) hr ha
  exact ⟨v, fun k hk => (hv k hk).trans (lane_mod _ _ _), hend _ rfl⟩

theorem execVsplat_ends (ha : c.Affords 1) (hr : s.hw.Runs t 0x16 0 c) :
    let b := laneBits (c.fld 8 6)
    ∃ v : BitVec 512, (∀ k < laneCount (c.fld 8 6), lane b v.toNat k =
        if c.th.active (c.fld 11 9) b k then c.th.sr (c.fld 21 17) % 2 ^ b else lane b (c.th.vr (c.fld 25 22)) k) ∧
      execVsplat t s = .next (s.withHw (s.hw.retire c (c.after.setV (c.fld 25 22) v.toNat) {} 1)) := by
  intro b
  obtain ⟨v, hv, hend⟩ := lanes_written (c.fld 8 6) (c.fld 25 22)
    (fun k => if c.th.active (c.fld 11 9) b k then c.th.sr (c.fld 21 17) else lane b (c.th.vr (c.fld 25 22)) k) hr ha
  refine ⟨v, fun k hk => (hv k hk).trans ?_, hend _ rfl⟩
  rw [apply_ite (· % 2 ^ laneBits (c.fld 8 6)), lane_mod]

theorem execVins_ends (ha : c.Affords 1) (hr : s.hw.Runs t 0x16 2 c) :
    let b := laneBits (c.fld 8 6)
    c.th.sr (c.fld 16 12) < laneCount (c.fld 8 6) →
    ∃ v : BitVec 512, (∀ k < laneCount (c.fld 8 6), lane b v.toNat k =
        if k = c.th.sr (c.fld 16 12) then c.th.sr (c.fld 21 17) % 2 ^ b else lane b (c.th.vr (c.fld 25 22)) k) ∧
      execVins t s = .next (s.withHw (s.hw.retire c (c.after.setV (c.fld 25 22) v.toNat) {} 1)) := by
  intro b hlt
  obtain ⟨v, hv, hend⟩ := lanes_written (c.fld 8 6) (c.fld 25 22)
    (fun k => if k = c.th.sr (c.fld 16 12) then c.th.sr (c.fld 21 17) else lane b (c.th.vr (c.fld 25 22)) k) hr ha
  refine ⟨v, fun k hk => (hv k hk).trans ?_, hend _ (if_neg (not_le.2 hlt))⟩
  rw [apply_ite (· % 2 ^ laneBits (c.fld 8 6)), lane_mod]

theorem execVext_ends (ha : c.Affords 1) (hr : s.hw.Runs t 0x16 1 c) :
    let x := lane (laneBits (c.fld 8 6)) (c.th.vr (c.fld 25 22)) (c.th.sr (c.fld 16 12))
    c.th.sr (c.fld 16 12) < laneCount (c.fld 8 6) →
      execVext t s = .next (s.withHw (s.hw.retire c (c.after.write (c.fld 21 17) (BitVec.ofNat 64
        (if c.fld 8 6 = 1 ∨ c.fld 8 6 = 2 then (encodeFlt fp32 .rne false (decodeFlt (fltOf (c.fld 8 6)) x) 1).1 else x))) {} 1)) := by
  intro x hlt
  refine next_of_done hr ha ?_
  rw [← setS_write]
  exact if_neg (not_le.2 hlt)

theorem execVcmp_ends (ha : c.Affords 1) (hr : s.hw.Runs t 0x15 0 c) :
    let b := laneBits (c.fld 10 8)
    ∃ p : Dword, (∀ j < 64, p.getLsbD j = (c.th.active (c.fld 13 11) b (j / (b / 8)) && cmpLane (c.fld 10 8) (c.fld 7 4)
          (lane b (c.th.vr (c.fld 21 18)) (j / (b / 8))) (lane b (c.th.vr (c.fld 17 14)) (j / (b / 8))))) ∧
      execVcmp t s = .next (s.withHw (s.hw.retire c (c.after.setP (c.fld 25 23) p.toNat) {} 1)) := by
  intro b
  let holds (k : Nat) : Bool := c.th.active (c.fld 13 11) b k && cmpLane (c.fld 10 8) (c.fld 7 4) (lane b (c.th.vr (c.fld 21 18)) k) (lane b (c.th.vr (c.fld 17 14)) k)
  have hbytes : b / 8 * laneCount (c.fld 10 8) = 64 := laneBytes_mul_laneCount _
  have hpos : 0 < b / 8 := Nat.pos_of_mul_pos_right (hbytes ▸ by decide : 0 < b / 8 * laneCount (c.fld 10 8))
  refine ⟨BitVec.ofNat 64 (joinFields (b / 8) ((List.range (laneCount (c.fld 10 8))).map (fun i => if holds i then 2 ^ (b / 8) - 1 else 0))),
    fun j hj => ?_, next_of_done hr ha ?_⟩
  · have hk : j / (b / 8) < laneCount (c.fld 10 8) := Nat.div_lt_of_lt_mul (hbytes.symm ▸ hj)
    have hmod : j % (b / 8) < b / 8 := Nat.mod_lt _ hpos
    rw [BitVec.getLsbD_ofNat, testBit_joinFields hpos, nth_map_range _ hk]
    change _ = holds (j / (b / 8))
    cases holds (j / (b / 8)) <;> simp [hj, hmod, Nat.testBit_two_pow_sub_one]
  · rw [setP_toNat]
    rfl

/-- VEXT and VINS of a lane that TYPE lacks trap. -/
theorem lane_outside_traps {func : Nat} {g : Hw → Ctx → IRes} {k : IRes} (hr : s.hw.Runs t 0x16 func c)
    (hout : laneCount (c.fld 8 6) ≤ c.th.sr (c.fld 16 12))
    (hg : g s.hw { c with th := c.after } = if laneCount (c.fld 8 6) ≤ c.th.sr (c.fld 16 12) then .trap 9 0 0 else k) :
    onHw (fun _ h => h.isa t (2048 * 0x16 + func) g) s = .next (s.withHw (s.hw.trap t 9 0 0)) :=
  next_of_trap hr (hg.trans (if_pos hout))
end

/-- Settles O8. -/
theorem vectorMoves : Obligations.VectorMoves := by
  unfold Obligations.VectorMoves
  exact ⟨List.forall_iff_forall_mem.1 ⟨fun s t c hr hout => lane_outside_traps hr hout rfl, fun s t c hr hout => lane_outside_traps hr hout rfl⟩,
    fun s t c ha => ⟨execVsel_ends ha, execVcmp_ends ha, execVsplat_ends ha, execVins_ends ha, execVext_ends ha⟩⟩

end Sys2Proof.Machine
end

section
/-!
Conversions (R237, R366, R367): the bits of a field put into a register, VCVT, and the blocks of MXQ and MXD.
-/

namespace Sys2Proof.Machine
open Sys2Proof

/-! ### Fields put into a register -/

/-- A number with the n bits from bit lo upward replaced. -/
def putBits (d lo n x : Nat) : Nat := d - d / 2 ^ lo % 2 ^ n * 2 ^ lo + x * 2 ^ lo

theorem putBits_eq (d lo n x : Nat) :
    putBits d lo n x = 2 ^ (lo + n) * (d / 2 ^ (lo + n)) + (2 ^ lo * x + d % 2 ^ lo) := by
  have hlow : d = 2 ^ lo * (d / 2 ^ lo) + d % 2 ^ lo := (Nat.div_add_mod _ _).symm
  have hhigh : d / 2 ^ lo = 2 ^ n * (d / 2 ^ (lo + n)) + d / 2 ^ lo % 2 ^ n := by
    rw [Nat.pow_add, ← Nat.div_div_eq_div_mul, Nat.div_add_mod]
  unfold putBits
  generalize d / 2 ^ lo % 2 ^ n = mid at hhigh ⊢
  generalize d % 2 ^ lo = low at hlow ⊢
  generalize d / 2 ^ (lo + n) = high at hhigh ⊢
  have hd : d = 2 ^ (lo + n) * high + mid * 2 ^ lo + low := by
    rw [hlow, hhigh, Nat.pow_add]; ring
  rw [hd, Nat.mul_comm x]
  omega

theorem testBit_putBits {n x : Nat} (d lo j : Nat) (hx : x < 2 ^ n) :
    (putBits d lo n x).testBit j = if lo ≤ j ∧ j < lo + n then x.testBit (j - lo) else d.testBit j := by
  have hlow : d % 2 ^ lo < 2 ^ lo := Nat.mod_lt _ (by positivity)
  have hfit : 2 ^ lo * x + d % 2 ^ lo < 2 ^ (lo + n) := by
    calc 2 ^ lo * x + d % 2 ^ lo < 2 ^ lo * x + 2 ^ lo := Nat.add_lt_add_left hlow _
      _ = 2 ^ lo * (x + 1) := by ring
      _ ≤ 2 ^ lo * 2 ^ n := Nat.mul_le_mul_left _ hx
      _ = 2 ^ (lo + n) := (Nat.pow_add 2 lo n).symm
  rw [putBits_eq, Nat.testBit_two_pow_mul_add _ hfit, Nat.testBit_two_pow_mul_add _ hlow, Nat.testBit_mod_two_pow, Nat.testBit_div_two_pow]
  rcases lt_or_ge j lo with hbelow | hlo
  · have hin : j < lo + n := by omega
    simp [hin, hbelow, Nat.not_le.2 hbelow]
  rcases lt_or_ge j (lo + n) with hin | habove
  · simp [hin, hlo, Nat.not_lt.2 hlo]
  · simp [Nat.not_lt.2 habove, Nat.sub_add_cancel habove]

/-! ### VCVT -/

@[simp] theorem after_vr (c : Ctx) (r : Nat) : c.after.vr r = c.th.vr r := rfl
@[simp] theorem after_idx (c : Ctx) : c.after.idx = c.th.idx := rfl
@[simp] theorem rnd_after (c : Ctx) (i : Nat) : ({ c with th := c.after } : Ctx).rnd i = c.rnd i := rfl

section
variable {s : State} {t : Nat} {c : Ctx}

/-- Element k of a VCVT's source. -/
def Ctx.cvtSource (c : Ctx) (k : Nat) : Val :=
  let n := cvtCount (c.fld 12 9) (c.fld 8 5)
  let bs := fmtBits (c.fld 12 9)
  cvtDecode (c.fld 12 9) (toSigned 8 (c.th.sr (c.fld 17 13) % 256)) (lane bs (c.th.vr (c.fld 21 18)) ((if bs < fmtBits (c.fld 8 5) then c.fld 4 2 * n else 0) + k))

/-- What a VCVT makes of element k, where the open values are drawn from a number on. -/
def Ctx.cvtResult (c : Ctx) (fresh k : Nat) : Nat × Counters :=
  cvtEncode (c.fld 8 5) (if c.fld 1 1 = 1 then c.rnd (c.th.idx + k) else .rne) c.x.cfg.arith.flushOut (toSigned 8 (c.th.sr (c.fld 17 13) % 256)) (c.th.idx + k)
    c.v.ev.rank (Config.openValue (fresh + k)).toNat (c.cvtSource k)

/-- The lanes of a register from which some have been cut. -/
theorem lane_div (b v m k : Nat) : lane b (v / 2 ^ (m * b)) k = lane b v (m + k) := by
  rw [lane, lane, Nat.div_div_eq_div_mul, ← Nat.pow_add, Nat.mul_add, Nat.mul_comm m b]

/-- The elements a VCVT decodes, as a list. -/
theorem cvtSource_list (c : Ctx) (n : Nat) :
    (List.range n).map (fun i => cvtDecode (c.fld 12 9) (toSigned 8 (c.th.sr (c.fld 17 13) % 256)) (lane (fmtBits (c.fld 12 9))
      (c.th.vr (c.fld 21 18) / 2 ^ (if fmtBits (c.fld 12 9) < fmtBits (c.fld 8 5) then
        c.fld 4 2 * cvtCount (c.fld 12 9) (c.fld 8 5) * fmtBits (c.fld 12 9) else 0)) i)) = (List.range n).map c.cvtSource := by
  refine List.map_congr_left fun k _ => ?_
  simp only [Ctx.cvtSource]
  split
  · rw [lane_div]
  · rw [Nat.pow_zero, Nat.div_one, Nat.zero_add]

theorem zip_range_map {α : Type} (n : Nat) (f : Nat → α) : (List.range n).zip ((List.range n).map f) = (List.range n).map (fun k => (k, f k)) := by
  have h := List.zip_map' (f := id) (g := f) (l := List.range n)
  rwa [List.map_id] at h

theorem fmtBits_pos (code : Nat) : 0 < fmtBits code := by
  unfold fmtBits
  split <;> decide

/-- What a VCVT does that does not trap, its results named. -/
theorem execVcvt_done (hr : s.hw.Runs t 0x18 0 c) (ha : c.Affords 1)
    (hexp : ¬ ((bareElem (c.fld 12 9) = true ∨ bareElem (c.fld 8 5) = true) ∧ toSigned 8 (c.th.sr (c.fld 17 13) % 256) = -128)) :
    let n := cvtCount (c.fld 12 9) (c.fld 8 5)
    let bd := fmtBits (c.fld 8 5)
    let lo := if bd < fmtBits (c.fld 12 9) then c.fld 4 2 * n * bd else 0
    execVcvt t s = .next (s.withHw ((if noNan (c.fld 8 5) = true ∧ ((List.range n).map c.cvtSource).any Val.isNan = true then { s.hw with fresh := s.hw.fresh + n }
        else s.hw).retire c
      (c.after.setV (c.fld 25 22) (putBits (c.th.vr (c.fld 25 22)) lo (n * bd) (joinFields bd ((List.range n).map (fun k => (c.cvtResult s.hw.fresh k).1)))))
      ((List.range n).foldl (fun a k => a.join (c.cvtResult s.hw.fresh k).2) {}) 1)) := by
  intro n bd lo
  refine next_of_done hr ha ((if_neg hexp).trans ?_)
  dsimp only [fld_withTh, after_sr, after_vr, after_idx, rnd_after]
  simp only [cvtSource_list, zip_range_map, List.map_map, List.foldl_map]
  rfl
/-- The bits of the register that a VCVT writes. -/
theorem testBit_converted {bd n lo : Nat} (hb : 0 < bd) (d : Nat) (f : Nat → Nat) (j : Nat) :
    (putBits d (lo * bd) (n * bd) (joinFields bd ((List.range n).map f))).testBit j =
      if lo * bd ≤ j ∧ j < (lo + n) * bd then (f (j / bd - lo)).testBit (j % bd) else d.testBit j := by
  have hfit : joinFields bd ((List.range n).map f) < 2 ^ (n * bd) := by
    have h := joinFields_lt bd ((List.range n).map f)
    rwa [List.length_map, List.length_range, Nat.mul_comm] at h
  rw [testBit_putBits _ _ _ hfit, ← Nat.add_mul]
  refine if_ctx_congr Iff.rfl (fun hin => ?_) fun _ => rfl
  have hk : (j - lo * bd) / bd = j / bd - lo := by rw [Nat.mul_comm, Nat.sub_mul_div]
  have hmod : (j - lo * bd) % bd = j % bd := by rw [Nat.mul_comm, Nat.sub_mul_mod (by rw [Nat.mul_comm]; exact hin.1)]
  have hlt : j / bd - lo < n := by
    have := (Nat.div_lt_iff_lt_mul hb).2 hin.2
    have := (Nat.le_div_iff_mul_le hb).2 hin.1
    omega
  rw [testBit_joinFields hb, hk, hmod, nth_map_range f hlt]

theorem execVcvt_ends (hr : s.hw.Runs t 0x18 0 c) (ha : c.Affords 1)
    (hexp : ¬ ((bareElem (c.fld 12 9) || bareElem (c.fld 8 5)) = true ∧ toSigned 8 (c.th.sr (c.fld 17 13) % 256) = -128)) :
    let n := cvtCount (c.fld 12 9) (c.fld 8 5)
    let bd := fmtBits (c.fld 8 5)
    let lo := if bd < fmtBits (c.fld 12 9) then c.fld 4 2 * n else 0
    let drawn := noNan (c.fld 8 5) && (List.range n).any (fun k => (c.cvtSource k).isNan)
    ∃ v : BitVec 512, (∀ j < 512, v.getLsbD j = if lo * bd ≤ j ∧ j < (lo + n) * bd then (c.cvtResult s.hw.fresh (j / bd - lo)).1.testBit (j % bd)
        else (c.th.vr (c.fld 25 22)).testBit j) ∧
      execVcvt t s = .next (s.withHw (({ s.hw with fresh := s.hw.fresh + (if drawn then n else 0) } : Hw).retire c (c.after.setV (c.fld 25 22) v.toNat)
        ((List.range n).foldl (fun a k => a.join (c.cvtResult s.hw.fresh k).2) {}) 1)) := by
  intro n bd lo drawn
  have hlo : (if bd < fmtBits (c.fld 12 9) then c.fld 4 2 * n * bd else 0) = lo * bd := by
    simp only [lo]
    split <;> simp
  have hdrawn : (if noNan (c.fld 8 5) = true ∧ ((List.range n).map c.cvtSource).any Val.isNan = true then { s.hw with fresh := s.hw.fresh + n } else s.hw) =
      ({ s.hw with fresh := s.hw.fresh + (if drawn then n else 0) } : Hw) := by
    have hiff : (noNan (c.fld 8 5) = true ∧ ((List.range n).map c.cvtSource).any Val.isNan = true) ↔ drawn = true := by
      rw [List.any_map, ← Bool.and_eq_true]
      rfl
    rw [if_congr hiff rfl rfl]
    cases drawn <;> rfl
  refine ⟨BitVec.ofNat 512 (putBits (c.th.vr (c.fld 25 22)) (lo * bd) (n * bd) (joinFields bd ((List.range n).map (fun k => (c.cvtResult s.hw.fresh k).1)))),
    fun j hj => ?_, ?_⟩
  · rw [BitVec.getLsbD_ofNat, decide_eq_true hj, Bool.true_and, testBit_converted (fmtBits_pos _)]
  · rw [execVcvt_done hr ha (by rwa [Bool.or_eq_true] at hexp), hdrawn, hlo, setV_toNat]

theorem execVcvt_traps (hr : s.hw.Runs t 0x18 0 c) (hbare : (bareElem (c.fld 12 9) || bareElem (c.fld 8 5)) = true)
    (hexp : toSigned 8 (c.th.sr (c.fld 17 13) % 256) = -128) : execVcvt t s = .next (s.withHw (s.hw.trap t 9 0 0)) :=
  next_of_trap hr (if_pos ⟨by simpa using hbare, hexp⟩)

/-! ### MXQ and MXD -/

/-- A block of values gives as many elements. -/
theorem mxBlock_length (code : Nat) (rnd : Nat → Rnd) (flushOut : Bool) (rank base : Nat) (b : Finished) (k : Counters) :
    (mxBlock code rnd flushOut rank base b k).2.1.length = b.length := by
  unfold mxBlock
  split <;> simp

/-- FP32 lane k of a pair of registers. -/
def Thread.pairLane (th : Thread) (r k : Nat) : Nat := lane 32 (th.vr (r + k / 16)) (k % 16)

/-- The 32 FP32 lanes of a pair of registers. -/
theorem cutFields_pair (th : Thread) (r : Nat) : cutFields 32 16 (th.vr r) ++ cutFields 32 16 (th.vr (r + 1)) = (List.range 32).map (th.pairLane r) := by
  have hlow : ∀ k ∈ List.range 16, th.pairLane r k = lane 32 (th.vr r) k := fun k hk => by
    rw [List.mem_range] at hk
    rw [Thread.pairLane, Nat.div_eq_of_lt hk, Nat.mod_eq_of_lt hk, Nat.add_zero]
  have hhigh : ∀ k ∈ List.range 16, th.pairLane r (16 + k) = lane 32 (th.vr (r + 1)) k := fun k hk => by
    rw [List.mem_range] at hk
    rw [Thread.pairLane, Nat.add_mod_left, Nat.mod_eq_of_lt hk, Nat.add_div_left _ (by decide), Nat.div_eq_of_lt hk]
  rw [show 32 = 16 + 16 from rfl, List.range_add, List.map_append, List.map_map, cutFields_eq_lanes, cutFields_eq_lanes]
  exact congrArg₂ _ (List.map_congr_left hlow).symm (List.map_congr_left hhigh).symm

theorem execMxq_ends (ha : c.Affords 2) (hr : s.hw.Runs t 0x19 0 c) :
    let f := c.fld 12 9
    let q := mxBlock f (fun i => if c.fld 8 8 = 1 then c.rnd i else .rne) c.x.cfg.arith.flushOut c.v.ev.rank c.th.idx
      ((List.range 32).map (fun k => (f32 (c.th.pairLane (c.fld 21 18) k), 1, false))) {}
    ∃ v : BitVec 512, (∀ k < 32, lane (fmtBits f) v.toNat k = nth q.2.1 k % 2 ^ fmtBits f) ∧ v.toNat < 2 ^ (32 * fmtBits f) ∧
      execMxq t s = .next (s.withHw (s.hw.retire c ((c.after.write (c.fld 17 13) (BitVec.ofNat 64 q.1)).setV (c.fld 25 22) v.toNat) q.2.2 2)) := by
  intro f q
  have hmx : fmtMx f = true := by
    obtain ⟨hl, hmaj, -⟩ := legal_of_runs hr (by decide)
    simp only [legal, hmaj, Bool.and_eq_true] at hl
    exact hl.1
  have hbits : fmtBits f ≤ 8 := by
    have hrange : 5 ≤ f ∧ f ≤ 10 := by simpa [fmtMx] using hmx
    obtain ⟨h5, h10⟩ := hrange
    interval_cases f <;> decide
  have hlen : q.2.1.length = 32 := by rw [mxBlock_length, List.length_map, List.length_range]
  have hlt : joinFields (fmtBits f) q.2.1 < 2 ^ (32 * fmtBits f) := by
    have h := joinFields_lt (fmtBits f) q.2.1
    rwa [hlen, Nat.mul_comm] at h
  have hv : (BitVec.ofNat 512 (joinFields (fmtBits f) q.2.1)).toNat = joinFields (fmtBits f) q.2.1 := by
    rw [BitVec.toNat_ofNat]
    exact Nat.mod_eq_of_lt (lt_of_lt_of_le hlt (Nat.pow_le_pow_right (by decide) (by omega)))
  refine ⟨BitVec.ofNat 512 (joinFields (fmtBits f) q.2.1), fun k _ => ?_, ?_, next_of_done hr ha ?_⟩
  · rw [hv, lane_joinFields]
  · rwa [hv]
  · rw [hv, ← setS_write]
    dsimp only [fld_withTh, after_vr, after_idx, rnd_after]
    rw [cutFields_pair, List.map_map]
    rfl

/-- Element k that an MXD decodes, in FP32. -/
def Ctx.mxdElem (c : Ctx) (k : Nat) : Nat × RFlags :=
  encodeFlt fp32 .rne false (decodeElem (c.fld 12 9) (c.th.sr (c.fld 17 13) % 256, lane (fmtBits (c.fld 12 9)) (c.th.vr (c.fld 21 18)) k)) 1

theorem execMxd_ends (ha : c.Affords 2) (hr : s.hw.Runs t 0x1A 0 c) :
    let scale := c.th.sr (c.fld 17 13) % 256
    ∃ a b : BitVec 512, (∀ k < 16, lane 32 a.toNat k = (c.mxdElem k).1 % 2 ^ 32 ∧ lane 32 b.toNat k = (c.mxdElem (16 + k)).1 % 2 ^ 32) ∧
      execMxd t s = .next (s.withHw (s.hw.retire c ((c.after.setV (c.fld 25 22) a.toNat).setV (c.fld 25 22 + 1) b.toNat)
        ((List.range 32).foldl (fun k j => k.join (if scale = 255 then ({} : Counters).addInvalid (c.th.idx + j) c.v.ev.rank
          else ({} : Counters).addFlags (c.mxdElem j).2)) {}) 2)) := by
  intro scale
  refine ⟨BitVec.ofNat 512 (joinFields 32 ((List.range 16).map (fun k => (c.mxdElem k).1))),
    BitVec.ofNat 512 (joinFields 32 ((List.range 16).map (fun k => (c.mxdElem (16 + k)).1))),
    fun k hk => ⟨lane_register (by decide) hk, lane_register (by decide) hk⟩, next_of_done hr ha ?_⟩
  have hlow : ((List.range 32).map (fun k => (c.mxdElem k).1)).take 16 = (List.range 16).map (fun k => (c.mxdElem k).1) := rfl
  have hhigh : ((List.range 32).map (fun k => (c.mxdElem k).1)).drop 16 = (List.range 16).map (fun k => (c.mxdElem (16 + k)).1) := rfl
  rw [setV_toNat, setV_toNat, ← hlow, ← hhigh]
  dsimp only [fld_withTh, after_sr, after_vr, after_idx]
  simp only [cutFields_eq_lanes, zip_range_map, List.map_map, List.foldl_map]
  rfl
end

/-- Settles O10. -/
theorem convertAndMxBlocks : Obligations.ConvertAndMxBlocks := by
  unfold Obligations.ConvertAndMxBlocks
  exact ⟨fun s t c hr => ⟨execVcvt_traps hr, fun hexp ha => execVcvt_ends hr ha hexp⟩, fun s t c ha => ⟨execMxq_ends ha, execMxd_ends ha⟩⟩

end Sys2Proof.Machine
end

section
/-!
Accumulate instructions (Table 12.10, R368) over their whole ranges.
-/

namespace Sys2Proof.Machine
open Sys2Proof

theorem streamFields_length (fmt total e n : Nat) (b : List Byte) : (streamFields fmt total e n b).length = n := by
  unfold streamFields
  split
  · simp
  · rw [List.length_map, cutFields_eq_lanes, List.length_map, List.length_range]

/-- Two lists of n elements beside their numbers. -/
theorem zip_range_zip {α β : Type} {n : Nat} {l : List α} {m : List β} (hl : l.length = n) (hm : m.length = n) (a : α) (b : β) :
    (List.range n).zip (l.zip m) = (List.range n).map (fun j => (j, l.getD j a, m.getD j b)) := by
  refine List.ext_getElem (by simp [hl, hm]) fun j hj _ => ?_
  have hj' : j < n := by simp [hl, hm] at hj; exact hj
  simp [List.getD, hl, hm, hj']

theorem accessFails_none {th : Thread} {l : List Access} (hg : ∀ a ∈ l, th.Grants a.r a.rd a.wr a.off a.len a.align) : th.accessFails l = none := by
  rw [accessFails_of_granted fun a ha => grants_align (hg a ha) (Nat.mod_one _), List.find?_eq_none.mpr fun a ha => ?_]
  · rfl
  · obtain ⟨-, -, -, -, halign⟩ := hg a ha
    simpa using halign

/-- The lists of an accumulate instruction, one entry for each element. -/
theorem accumulate_items {β : Type} (w n : Nat) (fmt : Nat) (words : List Nat) (b : List Byte) (els : List (Nat × Nat)) (merge : Nat → Nat → β)
    (add : Nat → Nat → Nat × Nat → β) (hwords : words.length = n) (hels : els.length = n) :
    ((List.range n).zip (words.zip (if fmt = 15 then (cutWords w n b).map (fun x => (0, x)) else els))).map (fun (x : Nat × Nat × Nat × Nat) =>
      if fmt = 15 then merge x.2.1 x.2.2.2 else add x.2.1 x.1 x.2.2) =
    (List.range n).map (fun j => if fmt = 15 then merge (nth words j) (nth (cutWords w n b) j) else add (nth words j) j (els.getD j (0, 0))) := by
  have hitems : (if fmt = 15 then (cutWords w n b).map (fun x => (0, x)) else els).length = n := by
    split
    · rw [List.length_map, cutWords_length]
    · exact hels
  rw [zip_range_zip hwords hitems 0 (0, 0), List.map_map]
  refine List.map_congr_left fun j _ => ?_
  by_cases h15 : fmt = 15
  · simp only [h15, if_true, Function.comp_apply, nth]
    rw [show ((0, 0) : Nat × Nat) = (fun x => (0, x)) 0 from rfl, List.getD_map]
  · simp only [h15, if_false, Function.comp_apply, nth]

theorem accumulate_ends {maj w rate narrow : Nat} {add : Ctx → Nat → Nat → Nat × Nat → Nat × Counters} (s : State) (t : Nat) (c : Ctx) :
    let n := c.sbv % 2 ^ 32
    let total := c.x.cfg.elems
    let width := fmtBits c.fmt
    let bytes := if c.fmt = 15 then n * w else if fmtMx c.fmt then payloadBytes c.fmt total else cdiv (n * width) 8
    let units := if c.fmt = 15 then n else cdiv n (if width < 8 then narrow else rate)
    let c' : Ctx := { c with th := c.after }
    let src := s.hw.winRead c' (c.th.win c.ws) c.sav bytes
    let old := cutWords w n (s.hw.winRead c' (c.th.win c.wd) (c.sdv * w) (n * w))
    let item (j : Nat) : Nat × Nat := (streamFields c.fmt total c.sdv n src).getD j (0, 0)
    let new (j : Nat) : Nat × Counters := if c.fmt = 15 then (longMerge w (nth old j) (nth (cutWords w n src) j), {})
      else add c' (nth old j) (c.sdv + j) (item j)
    s.hw.Runs t maj 0 c → n ≠ 0 → c.th.Grants c.ws true false c.sav bytes 4 → c.th.Grants c.wd true true (c.sdv * w) (n * w) 1 →
      (fmtMx c.fmt = true → c.sdv + n ≤ total) → c.Affords (1 + units) →
      onHw (fun _ h => h.accumulate t maj w rate narrow add) s =
        .next (s.withHw ((s.hw.winWrite c' (c.th.win c.wd) (c.sdv * w) ((List.range n).flatMap (fun j => leBytesN w (new j).1))).retire c
          c.after ((List.range n).foldl (fun a j => a.join (new j).2) {}) (1 + units))) := by
  intro n total width bytes units c' src old item new hr hn hsrc hdst hmx ha
  have hgranted : c.after.accessFails [{ r := c.ws, rd := true, off := c.sav, len := bytes, align := 4 },
      { r := c.wd, rd := true, wr := true, off := c.sdv * w, len := n * w }] = none := by
    refine accessFails_none fun a hmem => ?_
    rcases List.mem_pair.1 hmem with rfl | rfl
    exacts [after_grants hsrc, after_grants hdst]
  have hout := accumulate_items w n c.fmt old src (streamFields c.fmt total c.sdv n src) (fun x y => (longMerge w x y, ({} : Counters)))
    (fun x j y => add c' x (c.sdv + j) y) (cutWords_length _ _ _) (streamFields_length _ _ _ _ _)
  refine next_of_done hr ha ((if_neg hn).trans ?_)
  have hroom : ¬ (fmtMx c.fmt = true ∧ total < c.sdv + n) := fun ⟨h, hlt⟩ => absurd (hmx h) (Nat.not_le.2 hlt)
  have hbody : ∀ k : IRes, (match c.after.accessFails [{ r := c.ws, rd := true, off := c.sav, len := bytes, align := 4 },
      { r := c.wd, rd := true, wr := true, off := c.sdv * w, len := n * w }] with | some f => f | none => k) = k := fun k => by rw [hgranted]
  refine (hbody _).trans ((if_neg hroom).trans ?_)
  have hnew : ∀ out, out = (List.range n).map new →
      IRes.done (s.hw.winWrite c' (c.th.win c.wd) (c.sdv * w) (out.flatMap (fun o => leBytesN w o.1))) c.after (out.foldl (fun k o => k.join o.2) {}) (1 + units) =
      .done (s.hw.winWrite c' (c.th.win c.wd) (c.sdv * w) ((List.range n).flatMap (fun j => leBytesN w (new j).1))) c.after
        ((List.range n).foldl (fun a j => a.join (new j).2) {}) (1 + units) := by
    rintro _ rfl
    rw [List.flatMap_map, List.foldl_map]
  exact hnew _ hout

/-- Settles O11: each row is the form's lemma at the row's width, rates and rule. -/
theorem accumulateResult : Obligations.AccumulateResult := by
  unfold Obligations.AccumulateResult
  exact List.forall_iff_forall_mem.1 ⟨accumulate_ends, accumulate_ends, accumulate_ends, accumulate_ends⟩

end Sys2Proof.Machine
end

section
/-!
MRECV (R331, R372): the statement says nothing of the buffer that the bound message lies in, whose owner the model makes the core that bound it. A part on
which a thread of core 1 binds a message whose buffer the home unit holds tells the two apart.
-/

namespace Sys2Proof.Machine
open Sys2Proof

/-! ### A message waits at complex 3, its buffer held by the home unit -/

/-- MRECV into s2. -/
def receiveWord : Word := 0b101000_00010_00000_00000_000_0000_0001

def receiveImage : Image :=
  { base := 0, code := [receiveWord], params := [], progId := 1, entries := [0, 0, 0, 0], reduce := true, ring := false, gang := false, maxThreads := 1,
    stateBytes := 4096, slotWidth := 4, contribFixed := 4096, contribPer := 0, chunkFixed := 4096, chunkPer := 0, tickCycles := 4096, ringCycles := 4096,
    stateFormat := 0 }

def receiveGroup : Group :=
  { cfg := { image := List.replicate 24 0, job := 7, gather := false, prio := 0, spill := false, echoKeep := false, patience := 4, depth := 1, arith := {},
             size := 0, chunks := 1, shard := 0, perTick := 1, hold := 0, sheaf := 0, homeMask := 1,
             members := [{ rank := 0, contrib := true }, { rank := 1, contrib := true }] },
    mask := [true, true] }

/-- Message 9 of four bytes, from sender 5. -/
def receiveAtt : Att := { grp := 1, ring := false, handle := 0, image := receiveImage, params := [], msgs := [(3, [(9, 5, [1, 2, 3, 4])])] }

def receiveThread : Thread := { inv := 0, gang := 0, s := List.replicate 32 0, w := List.replicate 8 {} }

/-- An invocation at complex 3 on thread 16, the first of core 1. -/
def receiveInv : Inv :=
  { att := 0, cx := 3, ev := { hook := 0, gen := 0 }, start := 0, counted := 0, contrib := [], result := [], resPtr := none, threads := [16], running := [16] }

def receivePart : Hw :=
  { groups := [(1, receiveGroup)], progs := { atts := [(0, receiveAtt)], invs := [(0, receiveInv)], threads := [(16, receiveThread)] },
    cxs := [(3, { cxInit 3 with bufs := [(9, { pkt := mkPkt [] [1, 2, 3, 4], cls := 1, owner := homeUnit })] })] }

def receiveCtx : Ctx :=
  { t := 16, w := wnat [receiveWord] 0, th := receiveThread, v := receiveInv, a := receiveAtt, x := receiveGroup, n := none, ch := none }

theorem receive_runs : receivePart.Runs 16 0x28 1 receiveCtx := ⟨rfl, by decide⟩

theorem receive_affords : receiveCtx.Affords 1 := by
  unfold Ctx.Affords
  decide

/-- The unit that holds buffer 9 of complex 3 after a step. -/
def ownerAfter (o : Out) : Option Nat :=
  match o with
  | .next s => (tget? (s.hw.cx 3).bufs 9).map (·.owner)
  | _ => none

/-- Refutes O13: MRECV hands the message's buffer to core 1, where the statement leaves it with the home unit. -/
theorem not_messagesAndPackets : ¬ Obligations.MessagesAndPackets := by
  unfold Obligations.MessagesAndPackets
  rintro ⟨hmsg, -⟩
  obtain ⟨-, hrecv⟩ := hmsg { hw := receivePart } 16 receiveCtx
  obtain ⟨-, hbound⟩ := hrecv receive_runs receive_affords
  have hsays := congrArg ownerAfter (hbound 9 5 [1, 2, 3, 4] [] (by decide))
  have hmodel : ownerAfter (exec (.mrecv 16) { hw := receivePart }) = some (coreOwner 1) := by decide +kernel
  rw [hmodel] at hsays
  exact absurd hsays (by decide +kernel)

end Sys2Proof.Machine
end

section
/-!
Doorbells and completions (R44, R50 to R53): what a request taken into execution becomes, and what COMMAND_COMPLETE sends.
-/

namespace Sys2Proof.Machine
open Sys2Proof

/-! ### Changes of one channel -/

/-- A change of a channel depends on what the change makes of the channel alone. -/
theorem modChan_congr {h : Hw} {c : Nat} {f g : Chan → Chan} (hfg : f (h.chan c) = g (h.chan c)) : h.modChan c f = h.modChan c g := by
  rw [Hw.chan] at hfg
  simp only [Hw.modChan, tmod, hfg]

/-- The low bit of a word, as the model reads it. -/
theorem getLsbD_zero_iff (v : Word) : v.getLsbD 0 = true ↔ ¬ v.toNat % 2 = 0 := by
  rw [BitVec.getLsbD, Nat.testBit_zero, decide_eq_true_eq]
  omega

/-! ### The envelope and the lock -/

/-- A request that the envelope checks pass locks the bulk range it names. -/
theorem locks_of_envelope {fz : Fuses} {h : Hw} {c : Nat} {r : Request} (hpass : envelopeFail fz h c r = none) :
    h.locks c r = { r with lockOff := (bulkRange r.opcode c r.payload).1, lockLen := (bulkRange r.opcode c r.payload).2.1 } := by
  have hfree : ¬ (0 < (bulkRange r.opcode c r.payload).2.1 ∧ (bulkSize < (bulkRange r.opcode c r.payload).1 + (bulkRange r.opcode c r.payload).2.1 ∨
      h.lockedFor c (bulkRange r.opcode c r.payload).1 (bulkRange r.opcode c r.payload).2.1 = true)) := by
    intro hbad
    simp only [envelopeFail, if_pos hbad] at hpass
    split_ifs at hpass <;> split at hpass <;> cases hpass
  exact if_neg hfree

/-- A request that repeats no SEQ_TAG and passes the envelope checks waits for its command, its bulk range locked. -/
theorem accept_of_pass {fz : Fuses} {h : Hw} {c : Nat} {r : Request} (hnew : ¬ (r.seqTag ≠ 0 ∧ r.seqTag = (h.chan c).lastSeqTag ∧ (h.chan c).resp ≠ [])) :
    let taken := h.modChan c (fun y => { y with busy := true, ready := false, cur := some r, reply := none })
    envelopeFail fz taken c r = none → h.accept fz c r = taken.modChan c (fun y => { y with
      cur := some { r with lockOff := (bulkRange r.opcode c r.payload).1, lockLen := (bulkRange r.opcode c r.payload).2.1 } }) := by
  intro taken hpass
  rw [← locks_of_envelope hpass]
  unfold Hw.accept
  rw [if_neg hnew, hpass]

/-- One that the envelope checks fail has that failure as its response. -/
theorem accept_of_fail {fz : Fuses} {h : Hw} {c st d : Nat} {r : Request} (hnew : ¬ (r.seqTag ≠ 0 ∧ r.seqTag = (h.chan c).lastSeqTag ∧ (h.chan c).resp ≠ [])) :
    let taken := h.modChan c (fun y => { y with busy := true, ready := false, cur := some r, reply := none })
    envelopeFail fz taken c r = some (st, d) →
      h.accept fz c r = taken.modChan c (fun y => { y with cur := some { r with waiting := false }, reply := some (response r st d []) }) := by
  intro taken hfail
  unfold Hw.accept
  rw [if_neg hnew, hfail]
  exact reply_eq (by simp) st d []

/-! ### The doorbell -/

section
variable {s : State} {c : Nat} {v : Word}

/-- An accessible write of RING with bit 0 set, where it is ignored. -/
theorem ring_ignored (hc : c < 16) (hacc : s.hw.accessible = true) (hv : v.getLsbD 0 = true) (hno : 12 ≤ c ∨ (s.hw.chan c).busy = true ∨ (s.hw.chan c).enabled = false) :
    execDoorbellRing c v s = .next (s.withHw (s.hw.modChan c (fun y => { y with dbIgnored := true }))) := by
  rw [getLsbD_zero_iff] at hv
  rw [execDoorbellRing, atUnit_in hc, onHw_next, Hw.ring, if_neg (by simp [hacc, hv, hc]), if_pos (by simpa using hno)]

/-- One where it is not, on an idle and enabled host channel. -/
theorem ring_taken (hc : c < 12) (hacc : s.hw.accessible = true) (hv : v.getLsbD 0 = true) (hbusy : (s.hw.chan c).busy = false)
    (hen : (s.hw.chan c).enabled = true) :
    let x := s.hw.chan c
    let env := (List.range 4).map (fun i => tget (0 : Word) x.req i)
    let r : Request := { words := (List.range (4 + min (cdiv (fld env 1 15 0) 4) 1020)).map (fun i => tget 0 x.req i), arrived := s.hw.slotNow }
    execDoorbellRing c v s = .next (s.withHw (if s.hw.ctl.phase = .handover ∨ s.hw.faults.mpLost = true then s.hw.latch_ c r else s.hw.accept s.fuses c r)) := by
  have hc16 : c < 16 := by omega
  rw [getLsbD_zero_iff] at hv
  intro x env r
  rw [execDoorbellRing, atUnit_in hc16, onHw_next, Hw.ring, if_neg (by simp [hacc, hv, hc16]), if_neg (by simp [hbusy, hen, hc])]
end

/-- Settles O16: the doorbell is ignored, latched, or taken by `accept`, which the envelope checks decide. -/
theorem doorbellTakesRequest : Obligations.DoorbellTakesRequest := by
  unfold Obligations.DoorbellTakesRequest
  intro s c v hc hacc hv x env r taken
  refine ⟨fun h12 hbusy hen hphase hmp hnew => ?_, fun h12 hbusy hen hwait => ?_, ring_ignored hc hacc hv⟩
  · have hring : exec (.doorbellRing c v) s = .next (s.withHw (s.hw.accept s.fuses c r)) := by
      rw [exec_doorbellRing, ring_taken h12 hacc hv hbusy hen, if_neg (by simp [hphase, hmp])]
    exact ⟨fun hpass => by rw [hring, accept_of_pass hnew hpass], fun st d hfail => by rw [hring, accept_of_fail hnew hfail]⟩
  · rw [exec_doorbellRing, ring_taken h12 hacc hv hbusy hen, if_pos hwait]
    rfl

/-- A message queued for a binding, over I3C with an in-band interrupt. -/
theorem Ctl.send_eq (k : Ctl) (binding eid : Nat) (msg : List Byte) :
    k.send binding eid msg = { k with mctpOut := k.mctpOut ++ [(binding, eid, msg)], i3cIbi := k.i3cIbi + (if binding = 0 then 1 else 0) } := by
  simp only [Ctl.send, b2n, decide_eq_true_eq]

/-- Settles O18. -/
theorem commandCompletes : Obligations.CommandCompletes := by
  unfold Obligations.CommandCompletes
  intro s c r out hc hmp hcur hreply h
  have hirq : (h.chan c).irqEn = (s.hw.chan c).irqEn := by simp [h]
  rw [exec_commandComplete, execCommandComplete, atUnit_in hc, onHw_next, hmp, hcur, hreply, ← hirq]
  simp only [← Ctl.send_eq]
  rfl

end Sys2Proof.Machine
end

section
/-!
The endpoint (R9, R42 to R44, R52, R73): its other accesses, PERST_N, and what a read of BAR0 returns.
-/

namespace Sys2Proof.Machine
open Sys2Proof

/-- What an accessible endpoint is: PERST_N is high, the link is trained and memory space enabled. -/
theorem accessible_iff (h : Hw) : h.accessible = true ↔ h.ctl.perstLow = false ∧ h.ctl.linkUp = true ∧ h.ctl.memEn = true := by
  simp [Hw.accessible]

/-! ### Accesses -/

section
variable {s : State} (hacc : s.hw.accessible = true)
include hacc

theorem execRequestBufferWrite_stored {c off : Nat} (v : Word) (hc : c < 12) (hoff : off < 4096) (h4 : off % 4 = 0) (hbusy : (s.hw.chan c).busy = false) :
    execRequestBufferWrite c off v s = .next (s.withHw (s.hw.modChan c (fun y => { y with req := tput y.req (off / 4) v }))) := by
  have hc16 : c < 16 := by omega
  rw [execRequestBufferWrite, atUnit_in hc16, onHw_next, if_neg (by simp [hacc, hoff, h4]), if_neg (by simp [hc, hbusy])]

theorem execRequestBufferWrite_ignored {c off : Nat} (v : Word) (hc : c < 16) (hoff : off < 4096) (h4 : off % 4 = 0)
    (hno : 12 ≤ c ∨ (s.hw.chan c).busy = true) :
    execRequestBufferWrite c off v s = .next (s.withHw (s.hw.modChan c (fun y => { y with wrIgnored := true }))) := by
  rw [execRequestBufferWrite, atUnit_in hc, onHw_next, if_neg (by simp [hacc, hoff, h4]), if_pos hno]

theorem execTickCountRead_accessible : execTickCountRead s = .next (s.withHw (s.hw.modCtl (fun c => { c with
    readData := BitVec.ofNat 32 s.hw.time.tick, tickHi := BitVec.ofNat 32 (s.hw.time.tick / 2 ^ 32) }))) := by
  rw [execTickCountRead, onHw_next, if_neg (not_not.2 hacc)]
  rfl

theorem execBulkWindowWrite_stored {off : Nat} {data : List Byte} (hin : off + data.length ≤ 16 * 2 ^ 20) (hfree : s.hw.lockedFor 16 off data.length = false) :
    execBulkWindowWrite off data s = .next (s.withHw (s.hw.modCtl (fun c => { c with bulk := memWriteList 0 c.bulk off data }))) := by
  rw [execBulkWindowWrite, onHw_next, if_neg (by simpa [hacc, bulkSize] using hin), if_neg (by simp [hfree])]

theorem execBulkWindowWrite_locked {off : Nat} {data : List Byte} (hin : off + data.length ≤ 16 * 2 ^ 20) (hlock : s.hw.lockedFor 16 off data.length = true) :
    execBulkWindowWrite off data s = .next (s.withHw (s.hw.modCtl (fun c => { c with lockViol := min (c.lockViol + 1) (2 ^ 32 - 1) }))) := by
  rw [execBulkWindowWrite, onHw_next, if_neg (by simpa [hacc, bulkSize] using hin), if_pos hlock]
  rfl

/-- A write of the configuration space, its register's change named. -/
theorem execConfigSpaceWrite_accessible {off : Nat} {v : Word} {f : Ctl → Ctl} (hf : execConfigSpaceWrite off v s =
      onHw (fun _ h => if h.ctl.perstLow = true ∨ ¬ h.ctl.linkUp = true then h else h.modCtl f) s) :
    execConfigSpaceWrite off v s = .next (s.withHw (s.hw.modCtl f)) := by
  obtain ⟨hperst, hlink, -⟩ := (accessible_iff _).1 hacc
  rw [hf, onHw_next, if_neg (by simp [hperst, hlink])]
end

/-- A change of the control part depends on what the change makes of it alone. -/
theorem modCtl_congr {h : Hw} {f g : Ctl → Ctl} (hfg : f h.ctl = g h.ctl) : h.modCtl f = h.modCtl g := by
  rw [Hw.modCtl, hfg, Hw.modCtl]

/-- A base address whose low word is written: the low word, and the high one. -/
theorem base_written {n b : Nat} {v : Word} {k : Nat} (hn : b / 2 ^ 32 * 2 ^ 32 + v.toNat / 2 ^ k * 2 ^ k = n) :
    n % 2 ^ 32 = v.toNat / 2 ^ k * 2 ^ k ∧ n / 2 ^ 32 = b / 2 ^ 32 := by
  have hlow : v.toNat / 2 ^ k * 2 ^ k < 2 ^ 32 := lt_of_le_of_lt (Nat.div_mul_le_self _ _) v.isLt
  generalize v.toNat / 2 ^ k * 2 ^ k = low at hlow hn ⊢
  omega

section
variable {s : State} {v : Word} {n : Nat}

/-- The first base address takes its low word from bit 19 up. -/
theorem execConfigSpaceWrite_bar0 (hacc : s.hw.accessible = true) (hn : s.hw.ctl.bar0 / 2 ^ 32 * 2 ^ 32 + v.toNat / 2 ^ 19 * 2 ^ 19 = n) :
    execConfigSpaceWrite 0x10 v s = .next (s.withHw (s.hw.modCtl (fun c => { c with bar0 := n }))) := by
  rw [execConfigSpaceWrite_accessible hacc (f := fun c => { c with bar0 := c.bar0 / 2 ^ 32 * 2 ^ 32 + v.toNat / 2 ^ 19 * 2 ^ 19 }) rfl]
  exact congrArg (fun h => Host.Outcome.next (s.withHw h)) (modCtl_congr (by simp only [hn]))

/-- The second takes its low word from bit 24 up. -/
theorem execConfigSpaceWrite_bar2 (hacc : s.hw.accessible = true) (hn : s.hw.ctl.bar2 / 2 ^ 32 * 2 ^ 32 + v.toNat / 2 ^ 24 * 2 ^ 24 = n) :
    execConfigSpaceWrite 0x18 v s = .next (s.withHw (s.hw.modCtl (fun c => { c with bar2 := n }))) := by
  rw [execConfigSpaceWrite_accessible hacc (f := fun c => { c with bar2 := c.bar2 / 2 ^ 32 * 2 ^ 32 + v.toNat / 2 ^ 24 * 2 ^ 24 }) rfl]
  exact congrArg (fun h => Host.Outcome.next (s.withHw h)) (modCtl_congr (by simp only [hn]))
end

/-! ### PERST_N -/

theorem tget?_map {α : Type} (f : α → α) (t : Tbl α) (a : Nat) : tget? (t.map (fun e => (e.1, f e.2))) a = (tget? t a).map f := by
  induction t with
  | nil => rfl
  | cons e t ih =>
    simp only [List.map_cons, tget?, ih]
    split <;> rfl

/-- A table changed throughout reads as its entries changed, where what an absent entry reads as does not change. -/
theorem tget_map {α : Type} {f : α → α} {d : α} (hd : f d = d) (t : Tbl α) (a : Nat) : tget d (t.map (fun e => (e.1, f e.2))) a = f (tget d t a) := by
  rw [tget, tget, tget?_map]
  cases tget? t a with
  | none => exact hd.symm
  | some x => rfl

theorem execPerstNAssert_resets (s : State) : ∃ h, execPerstNAssert s = .next (s.withHw h) ∧ { h with ctl := s.hw.ctl } = s.hw ∧ h.ctl.perstLow = true ∧
    h.ctl.linkUp = false ∧ h.ctl.memEn = false ∧ h.ctl.masterEn = false ∧ h.ctl.msixEn = false ∧ h.ctl.inD3 = false ∧ h.ctl.maxPayload = 0 ∧ h.ctl.bar0 = 0 ∧
    h.ctl.bar2 = 0 ∧ h.ctl.ring.armed = false ∧ h.ctl.ring.producer = s.hw.ctl.ring.producer ∧ h.ctl.bulk = s.hw.ctl.bulk ∧
    ∀ c, h.chan c = { s.hw.chan c with dbIgnored := false, wrIgnored := false } :=
  ⟨_, onHw_next _ _, rfl, rfl, rfl, rfl, rfl, rfl, rfl, rfl, rfl, rfl, rfl, rfl, rfl,
    fun c => tget_map (f := fun x : Chan => { x with dbIgnored := false, wrIgnored := false }) (d := {}) rfl _ c⟩

theorem execPerstNRelease_trains {s : State} (hlow : s.hw.ctl.perstLow = true) (hpow : s.hw.powered = true) :
    execPerstNRelease s = .next (s.withHw (s.hw.modCtl (fun c => { c with perstLow := false, linkUp := true, lastReset := 2 }))) := by
  rw [execPerstNRelease, onHw_next, if_neg (not_not.2 hlow), if_pos hpow]

/-! ### Reads of BAR0 -/

section
variable (fz : Fuses) (h : Hw)

theorem bar0Read_misaligned {off size : Nat} (hbad : size ≠ 4 ∨ off % 4 ≠ 0) : h.bar0Read fz off size = 0xFFFFFFFF := if_pos hbad

theorem bar0Read_outside {off : Nat} (h4 : off % 4 = 0) (hout : (0x100 ≤ off ∧ off < 0x1000) ∨ (0x1400 ≤ off ∧ off < 0x10000) ∨
    (0x30100 ≤ off ∧ off < 0x31000) ∨ (0x31100 ≤ off ∧ off < 0x40000) ∨ 0x54000 ≤ off) : h.bar0Read fz off 4 = 0 := by
  unfold Hw.bar0Read
  iterate 8 rw [if_neg (by omega)]

theorem bar0Read_channel {c off : Nat} (hc : c < 16) (hoff : off < 0x40) (h4 : off % 4 = 0) :
    h.bar0Read fz (0x1000 + 0x40 * c + off) 4 = h.chanWord c off := by
  unfold Hw.bar0Read
  rw [if_neg (by omega), if_neg (by omega), if_pos (by omega)]
  congr 1 <;> omega

/-- The status word's BUSY and RESPONSE_READY. -/
theorem status_bits (busy ready : Bool) (rest : Nat) :
    (w32 (b2n busy + b2n ready * 2 + rest * 2 ^ 2)).getLsbD 0 = busy ∧ (w32 (b2n busy + b2n ready * 2 + rest * 2 ^ 2)).getLsbD 1 = ready := by
  have hbusy : b2n busy < 2 := by cases busy <;> decide
  have hready : b2n ready < 2 := by cases ready <;> decide
  have hone (b : Bool) : decide (b2n b = 1) = b := by cases b <;> rfl
  simp only [w32, BitVec.getLsbD_ofNat, Nat.testBit_succ, Nat.testBit_zero]
  constructor
  · refine Eq.trans ?_ (hone busy)
    simp only [Nat.reduceLT, decide_true, Bool.true_and, decide_eq_decide]
    omega
  · refine Eq.trans ?_ (hone ready)
    simp only [Nat.reduceLT, decide_true, Bool.true_and, decide_eq_decide]
    omega

theorem bar0Read_status {c : Nat} (hc : c < 16) :
    (h.bar0Read fz (0x1004 + 0x40 * c) 4).getLsbD 0 = (h.chan c).busy ∧ (h.bar0Read fz (0x1004 + 0x40 * c) 4).getLsbD 1 = (h.chan c).ready := by
  have hread : h.bar0Read fz (0x1004 + 0x40 * c) 4 = h.chanWord c 4 := by
    rw [← bar0Read_channel fz h hc (off := 4) (by decide) (by decide)]
    congr 1
    omega
  have hword : h.chanWord c 4 = w32 (b2n (h.chan c).busy + b2n (h.chan c).ready * 2 + (b2n (h.chan c).dbIgnored + b2n (h.chan c).wrIgnored * 2 +
      b2n (12 ≤ c) * 2 ^ 2 + b2n (h.chan c).enabled * 2 ^ 3 + (h.chan c).lastSeqTag * 2 ^ 14) * 2 ^ 2) := by
    simp only [Hw.chanWord]
    congr 1
    omega
  rw [hread, hword]
  exact status_bits _ _ _

theorem bar0Read_buffer {c off : Nat} (hc : c < 16) (hoff : off < 0x2000) (h4 : off % 4 = 0) :
    h.bar0Read fz (0x10000 + 0x2000 * c + off) 4 = h.bufferWord c off := by
  unfold Hw.bar0Read
  rw [if_neg (by omega), if_neg (by omega), if_neg (by omega), if_pos (by omega)]
  congr 1 <;> omega

theorem bar0Read_buffers {c i : Nat} (hc : c < 16) (hi : i < 1024) : h.bar0Read fz (0x10000 + 0x2000 * c + 4 * i) 4 = tget 0 (h.chan c).req i ∧
    h.bar0Read fz (0x11000 + 0x2000 * c + 4 * i) 4 = (h.chan c).resp.getD i 0 := by
  have hreq : 4 * i / 4 = i := by omega
  have hresp : (0x1000 + 4 * i - 0x1000) / 4 = i := by omega
  have hplace : 0x11000 + 0x2000 * c + 4 * i = 0x10000 + 0x2000 * c + (0x1000 + 4 * i) := by omega
  constructor
  · rw [bar0Read_buffer fz h hc (by omega) (by omega), Hw.bufferWord, if_pos (by omega), hreq]
  · rw [hplace, bar0Read_buffer fz h hc (by omega) (by omega), Hw.bufferWord, if_neg (by omega), hresp]
end

/-- Settles O17. -/
theorem endpointAccessesAndReset : Obligations.EndpointAccessesAndReset := by
  unfold Obligations.EndpointAccessesAndReset
  refine ⟨fun s hacc => ⟨fun c off v hc hoff h4 hbusy => execRequestBufferWrite_stored hacc v hc hoff h4 hbusy,
      fun c off v hc hoff h4 hno => execRequestBufferWrite_ignored hacc v hc hoff h4 hno, execTickCountRead_accessible hacc,
      fun off data hin hfree hwf => ⟨_, memRead_memWriteList hwf off data, execBulkWindowWrite_stored hacc hin hfree⟩,
      fun off data hin hlock => execBulkWindowWrite_locked hacc hin hlock, fun v => ?_⟩,
    fun s => ⟨execPerstNAssert_resets s, fun hlow hpow => ⟨_, execPerstNRelease_trains hlow hpow, rfl, rfl, rfl⟩⟩,
    fun fz h off size => ⟨bar0Read_misaligned fz h, bar0Read_outside fz h, rfl, rfl, rfl, rfl, fun c hc => bar0Read_status fz h hc,
      fun c i hc hi => bar0Read_buffers fz h hc hi, rfl, rfl, rfl⟩⟩
  obtain ⟨bar0, hbar0⟩ : ∃ n, s.hw.ctl.bar0 / 2 ^ 32 * 2 ^ 32 + v.toNat / 2 ^ 19 * 2 ^ 19 = n := ⟨_, rfl⟩
  obtain ⟨bar2, hbar2⟩ : ∃ n, s.hw.ctl.bar2 / 2 ^ 32 * 2 ^ 32 + v.toNat / 2 ^ 24 * 2 ^ 24 = n := ⟨_, rfl⟩
  exact ⟨execConfigSpaceWrite_accessible (off := 0x04) (v := v) hacc rfl,
    ⟨_, execConfigSpaceWrite_bar0 hacc hbar0, rfl, rfl, base_written hbar0⟩, execConfigSpaceWrite_accessible (off := 0x14) (v := v) hacc rfl,
    ⟨_, execConfigSpaceWrite_bar2 hacc hbar2, rfl, rfl, base_written hbar2⟩, execConfigSpaceWrite_accessible (off := 0x1C) (v := v) hacc rfl,
    execConfigSpaceWrite_accessible (off := 0xB0) (v := v) hacc rfl⟩

end Sys2Proof.Machine
end

section
/-!
The event ring (R46, Tables 2.5 and 2.6): arming, disarming, CONSUMER, and what becomes of the oldest raised event.
-/

namespace Sys2Proof.Machine
open Sys2Proof

/-- A vector sent or left pending changes the two MSI-X lists alone. -/
theorem msix_ctl (h : Hw) (v : Nat) : (h.msix v).ctl = { h.ctl with msixPend := (h.msix v).ctl.msixPend, msixSent := (h.msix v).ctl.msixSent } := by
  unfold Hw.msix
  split
  · rfl
  · split <;> rfl

section
variable {s : State} {v : Word}

theorem execEventRingArm_arms (hacc : s.hw.accessible = true) (hv : v.getLsbD 0 = true) (hoff : s.hw.ctl.ring.armed = false) (h6 : 6 ≤ s.hw.ctl.ring.log2)
    (h16 : s.hw.ctl.ring.log2 ≤ 16) :
    execEventRingArm v s = .next (s.withHw ((s.hw.modCtl (fun c => { c with ring := c.ring.control v })).modCtl (fun c => { c with
      ring := { c.ring with armed := true, producer := 0, consumer := 0, dropped := w32 (sat32 c.heldDropped) },
      dropMark := decide (c.heldDropped ≠ 0), heldDropped := 0, raised := c.held ++ c.raised, held := [] }))) := by
  have hsize : ¬ (s.hw.ctl.ring.log2 < 6 ∨ 16 < s.hw.ctl.ring.log2) := by omega
  rw [execEventRingArm, onHw_next, if_pos ⟨hacc, hv⟩, Hw.ringArm]
  exact congrArg (fun h => Host.Outcome.next (s.withHw h)) ((if_neg (by simp [Hw.modCtl, EventRing.control, hoff])).trans (if_neg hsize))

/-- The control word's flags, as the statement writes them. -/
theorem control_eq (r : EventRing) (v : Word) : r.control v = { r with
    irqEn := v.getLsbD 1, wrIgnored := r.wrIgnored && ! v.getLsbD 8, refused := r.refused && ! v.getLsbD 9,
    overflow := r.overflow && ! v.getLsbD 10, consInvalid := r.consInvalid && ! v.getLsbD 11 } := by
  simp [EventRing.control]

theorem execEventRingDisarm_disarms (hacc : s.hw.accessible = true) (hv : v.getLsbD 0 = false) :
    execEventRingDisarm v s = .next (s.withHw (s.hw.ringDisarm v)) := by
  rw [execEventRingDisarm, onHw_next, if_pos ⟨hacc, Bool.not_eq_true _ ▸ hv⟩]

theorem execEventRingConsumerWrite_accessible (hacc : s.hw.accessible = true) : execEventRingConsumerWrite v s = .next (s.withHw (s.hw.ringConsume v)) := by
  rw [execEventRingConsumerWrite, onHw_next, if_pos hacc]

theorem ringConsume_advances {h : Hw} (hle : (v - h.ctl.ring.consumer).toNat ≤ (h.ctl.ring.producer - h.ctl.ring.consumer).toNat) :
    h.ringConsume v = h.modCtl (fun c => { c with ring := { c.ring with consumer := v } }) := modCtl_congr (if_pos hle)

theorem ringConsume_refused {h : Hw} (hgt : ¬ (v - h.ctl.ring.consumer).toNat ≤ (h.ctl.ring.producer - h.ctl.ring.consumer).toNat) :
    h.ringConsume v = h.modCtl (fun c => { c with ring := { c.ring with consInvalid := true } }) := modCtl_congr (if_neg hgt)
end

/-! ### The oldest raised event -/

/-- An entry written leaves the events, and puts one entry in the host's memory. -/
theorem putEntry_ctl (h : Hw) (ws : List Word) : (h.putEntry ws).ctl.raised = h.ctl.raised ∧ (h.putEntry ws).ctl.ring = { h.ctl.ring with producer := h.ctl.ring.producer + 1 } ∧
    (h.putEntry ws).ctl.hostWrites = h.ctl.hostWrites ++
      [(h.ctl.ring.baseHi.toNat * 2 ^ 32 + h.ctl.ring.baseLo.toNat + 32 * (h.ctl.ring.producer.toNat % 2 ^ h.ctl.ring.log2), ws)] := by
  unfold Hw.putEntry
  simp only
  split
  · rw [msix_ctl]
    exact ⟨rfl, rfl, rfl⟩
  · exact ⟨rfl, rfl, rfl⟩

section
variable {s : State} {e : Event} {rest : List Event} (hraised : s.hw.ctl.raised = e :: rest)
include hraised

theorem execEventEntryWrite_written (harmed : s.hw.ctl.ring.armed = true) (hmaster : s.hw.ctl.masterEn = true) (hperst : s.hw.ctl.perstLow = false)
    (hlink : s.hw.ctl.linkUp = true) (hmark : s.hw.ctl.dropMark = false)
    (hroom : (s.hw.ctl.ring.producer - s.hw.ctl.ring.consumer).toNat ≠ 2 ^ s.hw.ctl.ring.log2) :
    execEventEntryWrite s = .next (s.withHw ((s.hw.modCtl (fun c => { c with raised := rest })).putEntry (eventWords e.code e.seq e.tick e.data))) := by
  have hfull : s.hw.ctl.ring.full = false := decide_eq_false hroom
  rw [execEventEntryWrite, onHw_next, hraised]
  simp [harmed, hmaster, hperst, hlink, hmark, hfull]

theorem execEventEntryWrite_dropped (harmed : s.hw.ctl.ring.armed = true) (hmaster : s.hw.ctl.masterEn = true) (hperst : s.hw.ctl.perstLow = false)
    (hlink : s.hw.ctl.linkUp = true) (hno : (s.hw.ctl.ring.producer - s.hw.ctl.ring.consumer).toNat = 2 ^ s.hw.ctl.ring.log2) :
    execEventEntryWrite s = .next (s.withHw (s.hw.modCtl (fun c => { c with
      raised := rest, dropMark := true,
      ring := { s.hw.ctl.ring with dropped := w32 (sat32 (s.hw.ctl.ring.dropped.toNat + 1)), overflow := true } }))) := by
  have hfull : s.hw.ctl.ring.full = true := decide_eq_true hno
  rw [execEventEntryWrite, onHw_next, hraised]
  simp [harmed, hmaster, hperst, hlink, hfull]

theorem execEventEntryWrite_held (hoff : s.hw.ctl.ring.armed = false) :
    execEventEntryWrite s = .next (s.withHw (s.hw.modCtl (fun c => { c with
      raised := rest,
      held := if 256 < (c.held ++ [e]).length then (c.held ++ [e]).drop 1 else c.held ++ [e],
      heldDropped := if 256 < (c.held ++ [e]).length then sat32 (c.heldDropped + 1) else c.heldDropped }))) := by
  rw [execEventEntryWrite, onHw_next, hraised]
  simp only [hoff, Bool.false_eq_true, if_false]
end

/-- Settles O19. -/
theorem eventRingRules : Obligations.EventRingRules := by
  unfold Obligations.EventRingRules
  refine ⟨fun s v hacc => ⟨fun hv hoff h6 h16 => ⟨_, execEventRingArm_arms hacc hv hoff h6 h16, ?_, rfl, rfl, rfl⟩,
      fun hv => ⟨_, execEventRingDisarm_disarms hacc hv, ?_, rfl, rfl⟩, fun hle => ?_, fun hgt => ?_⟩, fun s e rest hraised => ⟨?_, ?_, fun hoff => ?_⟩⟩
  · exact congrArg (fun r : EventRing => { r with
      armed := true, producer := 0, consumer := 0, dropped := w32 (sat32 s.hw.ctl.heldDropped) }) (control_eq s.hw.ctl.ring v)
  · exact congrArg (fun r : EventRing => { r with armed := false }) (control_eq s.hw.ctl.ring v)
  · rw [exec_eventRingConsumerWrite, execEventRingConsumerWrite_accessible hacc, ringConsume_advances hle]
  · rw [exec_eventRingConsumerWrite, execEventRingConsumerWrite_accessible hacc, ringConsume_refused hgt]
  · intro harmed hmaster hperst hlink hmark hroom
    obtain ⟨hevents, hring, hwrites⟩ := putEntry_ctl (s.hw.modCtl (fun c => { c with raised := rest })) (eventWords e.code e.seq e.tick e.data)
    exact ⟨_, execEventEntryWrite_written hraised harmed hmaster hperst hlink hmark hroom, hevents, congrArg EventRing.producer hring,
      (congrArg EventRing.consumer hring).trans rfl, hwrites⟩
  · intro harmed hmaster hperst hlink hfull
    exact ⟨_, execEventEntryWrite_dropped hraised harmed hmaster hperst hlink hfull, rfl, rfl, rfl⟩
  · refine ⟨_, execEventEntryWrite_held hraised hoff, rfl, rfl, rfl, fun hlt => ?_, fun heq => ?_⟩
    · have hshort : ¬ 256 < (s.hw.ctl.held ++ [e]).length := by rw [List.length_append, List.length_singleton]; omega
      exact ⟨if_neg hshort, if_neg hshort⟩
    · have hlong : 256 < (s.hw.ctl.held ++ [e]).length := by rw [List.length_append, List.length_singleton]; omega
      have htail : (s.hw.ctl.held ++ [e]).drop 1 = s.hw.ctl.held.tail ++ [e] := by
        rw [List.drop_append_of_le_length (by omega), List.drop_one]
      exact ⟨(if_pos hlong).trans htail, if_pos hlong⟩

end Sys2Proof.Machine
end

section
/-!
MCTP (R45, R48, R49, R51): the control messages, and a DCI message taken into execution, latched, or dropped and counted.
-/

namespace Sys2Proof.Machine
open Sys2Proof

/-! ### Words of bytes -/

theorem leWords_leBytes (w : Word) (rest : List Byte) : leWords (leBytes w ++ rest) = w :: leWords rest := by
  have hbytes : leBytes w = [BitVec.ofNat 8 w.toNat, BitVec.ofNat 8 (w.toNat >>> 8), BitVec.ofNat 8 (w.toNat >>> 16), BitVec.ofNat 8 (w.toNat >>> 24)] := rfl
  have hword : w32 (leNat (leBytes w)) = w := by
    have hlt : w.toNat < 2 ^ 32 := w.isLt
    apply BitVec.eq_of_toNat_eq
    rw [hbytes]
    simp only [leNat_cons, BitVec.toNat_ofNat, w32, Nat.shiftRight_eq_div_pow]
    have hnil : leNat [] = 0 := rfl
    rw [hnil]
    omega
  conv_rhs => rw [← hword]
  rw [hbytes]
  rfl

/-- The words that bytes spell, least significant byte first, are those that gave the bytes. -/
theorem leWords_flatMap (ws : List Word) : leWords (ws.flatMap leBytes) = ws := by
  induction ws with
  | nil => rfl
  | cons w ws ih => rw [List.flatMap_cons, leWords_leBytes, ih]

/-! ### The request buffer -/

/-- A table into which the first n numbers' entries are put, in turn. -/
theorem tget_foldl_tput {α : Type} (d : α) (f : Nat → α) (t : Tbl α) (n i : Nat) :
    tget d ((List.range n).foldl (fun t i => tput t i (f i)) t) i = if i < n then f i else tget d t i := by
  induction n with
  | zero => simp
  | succ n ih =>
    rw [List.range_succ, List.foldl_append, List.foldl_cons, List.foldl_nil]
    by_cases hi : i = n
    · subst hi
      rw [tget_tput, if_pos (Nat.lt_succ_self _)]
    · rw [tget_tput_ne _ _ hi, ih]
      exact if_congr (by omega) rfl rfl

theorem fillRequest_chan (h : Hw) (c : Nat) (ws : List Word) : (h.fillRequest c ws).chan c = { h.chan c with req := ((h.fillRequest c ws).chan c).req } := by
  simp [Hw.fillRequest]

/-- The words of a request over MCTP are in its channel's buffer. -/
theorem fillRequest_req (h : Hw) (c : Nat) {ws : List Word} {i : Nat} (hi : i < ws.length) (h1024 : i < 1024) :
    tget 0 ((h.fillRequest c ws).chan c).req i = ws.getD i 0 := by
  rw [Hw.fillRequest, chan_modChan, tget_foldl_tput, if_pos (by omega)]

/-- What a request taken into execution leaves of its channel, whatever the envelope checks say. -/
theorem accept_chan (fz : Fuses) (h : Hw) (c : Nat) (r : Request) : ∃ r', ((h.accept fz c r).chan c).cur = some r' ∧ r'.words = r.words ∧ r'.binding = r.binding ∧
    r'.eid = r.eid ∧ ((h.accept fz c r).chan c).busy = true ∧ ((h.accept fz c r).chan c).ready = false ∧ ((h.accept fz c r).chan c).req = (h.chan c).req := by
  unfold Hw.accept
  simp only
  split
  · exact ⟨{ r with waiting := false }, by simp⟩
  · split
    · rw [reply_eq (r := r) (by simp)]
      exact ⟨{ r with waiting := false }, by simp [Hw.answered]⟩
    · refine ⟨_, by rw [chan_modChan], ?_⟩
      simp only [chan_modChan, Hw.locks]
      split <;> simp

theorem accept_eids (fz : Fuses) (h : Hw) (c : Nat) (r : Request) : (h.accept fz c r).ctl.mctpEids = h.ctl.mctpEids := by
  unfold Hw.accept
  simp only
  split
  · rfl
  · split <;> rfl

/-! ### The control messages -/

section
variable {s : State} {b e : Nat}

/-- A control message's reply leaves over its binding. -/
theorem mctpReply_eq (h : Hw) (cmd cc : Nat) (data : List Nat) : h.mctpReply b e cmd cc data = h.modCtl (fun c => { c with
    mctpOut := c.mctpOut ++ [(b, e, [0, 0] ++ ([BitVec.ofNat 8 cmd, BitVec.ofNat 8 cc] ++ data.map (BitVec.ofNat 8)))], i3cIbi := c.i3cIbi + (if b = 0 then 1 else 0) }) := by
  unfold Hw.mctpReply
  simp only [Ctl.send_eq]
  rfl
end

/-! ### DCI messages -/

section
variable {s : State} {b e c : Nat} {words : List Word}

/-- The body of a DCI message to channel c. -/
def dciBody (c : Nat) (words : List Word) : List Byte := [0x1F, 0x3C, BitVec.ofNat 8 c, 0, 0, 0] ++ words.flatMap leBytes

/-- What a DCI message does at a powered part. -/
theorem execMctpMessageReceive_powered (hpow : s.hw.powered = true) (hc : c < 256) :
    let r : Request := { words := words, binding := b, eid := e, arrived := s.hw.slotNow }
    let h := s.hw.modCtl (fun k => { k with mctpEids := tput k.mctpEids 2 b })
    execMctpMessageReceive b e (dciBody c words) s = .next (s.withHw (
      if c < 12 ∨ 15 < c then s.hw.modCtl (fun k => { k with badChannel := sat32 (k.badChannel + 1) })
      else if (s.hw.chan c).busy then h.modCtl (fun k => { k with chanBusy := sat32 (k.chanBusy + 1) })
      else if s.hw.ctl.phase = .handover ∨ s.hw.faults.mpLost = true then (h.fillRequest c words).latch_ c r
      else if ¬ (s.hw.chan c).enabled then h
      else (h.fillRequest c words).accept s.fuses c r)) := by
  intro r h
  have hvendor : beNat ((dciBody c words).take 2) = 0x1F3C := by simp [dciBody, beNat]
  have hchannel : ((dciBody c words).getD 2 0).toNat = c := by
    simp [dciBody]; omega
  have hwords : leWords ((dciBody c words).drop 6) = words := leWords_flatMap words
  rw [execMctpMessageReceive, onHw_next, if_neg (by simp [hpow, hvendor])]
  simp only [hchannel, hwords]
  rfl
end

/-- Settles O20. -/
theorem mctpMessages : Obligations.MctpMessages := by
  unfold Obligations.MctpMessages
  refine ⟨fun s b e hpow => ?_, fun s b e c words hpow hc => ?_⟩
  · intro answers same
    have hoff : ¬ ¬ s.hw.powered = true := not_not.2 hpow
    refine ⟨fun op n hop h0 h255 => ?_, ?_, fun t ht => ?_, ?_, ?_, fun a => ?_⟩
    · simp only [answers]
      rw [exec_setEndpointId, execSetEndpointId, onHw_next, if_neg hoff, if_pos ⟨hop, h0, h255⟩, mctpReply_eq]
      rfl
    · simp only [answers]
      rw [exec_getEndpointId, execGetEndpointId, onHw_next, if_neg hoff, mctpReply_eq]
      rfl
    · simp only [answers]
      rw [exec_getMctpVersionSupport, execGetMctpVersionSupport, onHw_next, if_neg hoff, if_pos ht, mctpReply_eq]
      rfl
    · simp only [answers]
      rw [exec_getMessageTypeSupport, execGetMessageTypeSupport, onHw_next, if_neg hoff, mctpReply_eq]
      rfl
    · simp only [answers]
      rw [exec_getVendorDefinedMessageSupport, execGetVendorDefinedMessageSupport, onHw_next, if_neg hoff, if_pos rfl, mctpReply_eq]
      rfl
    · rw [exec_i3cEntdaa, execI3cEntdaa, onHw_next, if_neg hoff]
  · have hrun := execMctpMessageReceive_powered (b := b) (e := e) (words := words) hpow hc
    dsimp only at hrun
    refine ⟨fun h12 h16 hbusy hen hphase hmp => ?_, fun h12 h16 hbusy hwait => ?_, fun hout => ?_, fun h12 h16 hbusy => ?_⟩
    · rw [if_neg (by omega), if_neg (by simp [hbusy]), if_neg (by simp [hphase, hmp]), if_neg (by simp [hen])] at hrun
      let h := (s.hw.modCtl (fun k => { k with mctpEids := tput k.mctpEids 2 b })).fillRequest c words
      let r : Request := { words := words, binding := b, eid := e, arrived := s.hw.slotNow }
      obtain ⟨r', hcur, hwords, hbinding, heid, hb, hready, hreq⟩ := accept_chan s.fuses h c r
      have heids : tget 0 (h.accept s.fuses c r).ctl.mctpEids 2 = b := by
        rw [accept_eids]
        exact tget_tput _ _ _ _
      exact ⟨_, r', hrun, hb, hready, hcur, hwords, hbinding, heid, heids, fun i hi h1024 => by rw [hreq]; exact fillRequest_req _ _ hi h1024⟩
    · rw [if_neg (by omega), if_neg (by simp [hbusy]), if_pos hwait] at hrun
      refine ⟨_, _, hrun, ?_, congrArg Chan.cur (chan_modChan _ _ _), rfl, ?_⟩
      · exact congrArg Chan.busy (chan_modChan _ _ _)
      · simp only [Hw.locks]
        split <;> rfl
    · rwa [if_pos (by omega)] at hrun
    · rw [if_neg (by omega), if_pos hbusy] at hrun
      exact ⟨_, hrun, rfl, rfl⟩

end Sys2Proof.Machine
end

section
/-!
Staging (R53, R56 to R58): what `stage` makes of a command, the configuring commands, SNAPSHOT_OPEN and ROLLBACK_START, COMMIT and DISCARD_STAGED.
-/

namespace Sys2Proof.Machine
open Sys2Proof

/-! ### What staging does -/

section
variable {h : Hw} {c : Nat} {r q : Request} {bulk : List Byte} {out : List Word}

/-- The 257th command of a set is refused. -/
theorem stage_full (hcur : (h.chan c).cur = some q) (hfull : 256 ≤ (h.chan c).staging.length) : h.stage c r bulk out = h.answered c q stStagingFull 0 [] := by
  unfold Hw.stage
  rw [if_pos hfull, reply_eq hcur]

/-- One with STAGE_ONLY is added to the set and answered with its place. -/
theorem stage_only (hcur : (h.chan c).cur = some q) (hroom : (h.chan c).staging.length < 256) (hstage : r.stageOnly = true) :
    h.stage c r bulk out = (h.modChan c (fun x => { x with
      staging := (h.chan c).staging ++ [{ opcode := r.opcode, words := r.payload, bulk := bulk, stamp := h.ctl.commits }] })).answered c q stStaged
        (h.chan c).staging.length out := by
  unfold Hw.stage
  simp only
  rw [if_neg (Nat.not_le.2 hroom), if_pos hstage, reply_eq (r := q) (by simpa using hcur)]

/-- One without sets the commit of the whole set. -/
theorem stage_commits {t : Nat} (hcur : (h.chan c).cur = some q) (hroom : (h.chan c).staging.length < 256) (hstage : r.stageOnly = false)
    (ht : h.commitTick r.arrived (if r.atTick then r.target else 0)
      ((h.chan c).staging ++ [{ opcode := r.opcode, words := r.payload, bulk := bulk, stamp := h.ctl.commits }]) = .inl t) :
    h.stage c r bulk out = h.modChan c (fun x => { x with
      staging := (h.chan c).staging ++ [{ opcode := r.opcode, words := r.payload, bulk := bulk, stamp := h.ctl.commits }],
      due := some { tick := t, named := r.atTick && decide (r.target ≠ 0) }, cur := some { q with waiting := false, out := out } }) := by
  unfold Hw.stage
  simp only
  rw [if_neg (Nat.not_le.2 hroom), if_neg (by simp [hstage]), ht]
  exact modChan_congr (by simp [hcur])

/-- Or is answered why it cannot be, with the set as it was. -/
theorem stage_refused {f : Fail} (hcur : (h.chan c).cur = some q) (hroom : (h.chan c).staging.length < 256) (hstage : r.stageOnly = false)
    (hf : h.commitTick r.arrived (if r.atTick then r.target else 0)
      ((h.chan c).staging ++ [{ opcode := r.opcode, words := r.payload, bulk := bulk, stamp := h.ctl.commits }]) = .inr f) :
    h.stage c r bulk out = h.answered c q f.1 f.2 [] := by
  unfold Hw.stage
  simp only
  rw [if_neg (Nat.not_le.2 hroom), if_neg (by simp [hstage]), hf]
  exact reply_eq hcur _ _ _
end

/-! ### The configuring commands -/

/-- A configuring command by its check and its response. -/
theorem configure_stages {op : Nat} {fail : Fuses → Hw → Nat → List Word → List Byte → Option Fail} {res : Hw → Nat → List Word → List Word}
    (s : State) (c : Nat) (r : Request) (hc : c < 16) (ha : s.hw.Asks c op r) :
    let p := r.payload
    let st := s.hw.stagedOf c r
    let set := (s.hw.chan c).staging
    let out := res s.hw c p
    let check := fail s.fuses s.hw c p st.bulk
    let run := (atUnit c 16 <| onHw (fun fz h => h.configure c op (fail fz h c) (res h c))) s
    (∀ f, check = some f → run = .next (s.withHw (s.hw.answered c r f.1 f.2 []))) ∧
    (check = none → changesNothing op p = true → run = .next (s.withHw (s.hw.answered c r stOk 0 out))) ∧
    (check = none → changesNothing op p = false → 256 ≤ set.length → run = .next (s.withHw (s.hw.answered c r stStagingFull 0 []))) ∧
    (check = none → changesNothing op p = false → set.length < 256 → r.stageOnly = true →
      run = .next (s.withHw ((s.hw.modChan c (fun x => { x with staging := set ++ [st] })).answered c r stStaged set.length out))) ∧
    (check = none → changesNothing op p = false → set.length < 256 → r.stageOnly = false →
      ∀ t, s.hw.commitTick r.arrived (if r.atTick then r.target else 0) (set ++ [st]) = .inl t →
      run = .next (s.withHw (s.hw.modChan c (fun x => { x with
        staging := set ++ [st], due := some { tick := t, named := r.atTick && decide (r.target ≠ 0) }, cur := some { r with waiting := false, out := out } })))) ∧
    (check = none → changesNothing op p = false → set.length < 256 → r.stageOnly = false →
      ∀ f, s.hw.commitTick r.arrived (if r.atTick then r.target else 0) (set ++ [st]) = .inr f → run = .next (s.withHw (s.hw.answered c r f.1 f.2 []))) := by
  intro p st set out check run
  obtain ⟨-, hcur, -, -, hop⟩ := id ha
  have hrun : run = .next (s.withHw (match check with
      | some f => s.hw.reply c f.1 f.2
      | none => if changesNothing op p then s.hw.reply c stOk 0 out else s.hw.stage c r st.bulk out)) := by
    subst hop
    simp only [run]
    rw [atUnit_in hc, onHw_next, Hw.configure, withRequest_asks ha]
    change Host.Outcome.next (s.withHw (match check with | some (a, d) => s.hw.reply c a d | none => _)) = _
    generalize check = verdict
    cases verdict <;> rfl
  refine ⟨fun f hf => ?_, fun hnone hzero => ?_, fun hnone hzero hfull => ?_, fun hnone hzero hroom hstage => ?_, fun hnone hzero hroom hstage t ht => ?_,
    fun hnone hzero hroom hstage f hf => ?_⟩
  · rw [hrun, hf]
    simp only [reply_eq hcur]
  · rw [hrun, hnone]
    simp only [hzero, if_true, reply_eq hcur]
  all_goals
    rw [hrun, hnone]
    simp only [hzero, Bool.false_eq_true, if_false]
  · rw [stage_full hcur hfull]
  · rw [stage_only hcur hroom hstage]
    rfl
  · rw [stage_commits (bulk := st.bulk) hcur hroom hstage ht]
    rfl
  · rw [stage_refused (bulk := st.bulk) hcur hroom hstage hf]

/-- Settles O21: each row is a configuring command by its check and its response. -/
theorem configuringCommandsStage : Obligations.ConfiguringCommandsStage := by
  unfold Obligations.ConfiguringCommandsStage
  simp only [List.forall_mem_cons]
  refine ⟨?_, ?_, ?_, ?_, ?_, ?_, ?_, ?_, ?_, ?_, ?_, ?_, ?_, ?_, ?_, ?_, ?_, ?_, ?_, ?_, ?_, ?_, ?_, ?_, ?_, ?_, ?_, ?_, ?_, ?_, ?_, ?_, ?_, ?_, ?_, ?_, ?_, ?_, ?_, ?_,
    ?_, ?_, ?_, ?_, ?_, List.forall_mem_nil _⟩
  all_goals exact configure_stages

end Sys2Proof.Machine
end

section
/-!
SNAPSHOT_OPEN and ROLLBACK_START (R389, R499), COMMIT and DISCARD_STAGED (R57, R58).
-/

namespace Sys2Proof.Machine
open Sys2Proof

section
variable {s : State} {c : Nat} {r : Request}

/-- What staging a request of channel c does that has room: the response with STAGE_ONLY, the commit without. -/
theorem stage_staged {r' : Request} {bulk : List Byte} {out : List Word} (hcur : (s.hw.chan c).cur = some r) (hroom : (s.hw.chan c).staging.length < 256)
    (hstage : r'.stageOnly = r.stageOnly) (harrived : r'.arrived = r.arrived) (hat : r'.atTick = r.atTick) (htarget : r'.target = r.target) :
    let st : Staged := { opcode := r'.opcode, words := r'.payload, bulk := bulk, stamp := s.hw.ctl.commits }
    let set := (s.hw.chan c).staging
    (r.stageOnly = true → s.hw.stage c r' bulk out = (s.hw.modChan c (fun x => { x with staging := set ++ [st] })).answered c r stStaged set.length out) ∧
    (r.stageOnly = false → ∀ t, s.hw.commitTick r.arrived (if r.atTick then r.target else 0) (set ++ [st]) = .inl t →
      s.hw.stage c r' bulk out = s.hw.modChan c (fun x => { x with
        staging := set ++ [st], due := some { tick := t, named := r.atTick && decide (r.target ≠ 0) }, cur := some { r with waiting := false, out := out } })) := by
  intro st set
  refine ⟨fun h => stage_only hcur hroom (hstage.trans h), fun h t ht => ?_⟩
  rw [← harrived, ← hat, ← htarget] at ht
  rw [stage_commits hcur hroom (hstage.trans h) ht, hat, htarget]

/-- A request with the words behind its envelope replaced keeps its envelope. -/
theorem envelope_word {l m : List Word} {i : Nat} (hi : i < 4) (hlen : 4 ≤ l.length) : wnat (l.take 4 ++ m) i = wnat l i := by
  have hi' : i < (l.take 4).length := by rw [List.length_take]; omega
  simp only [wnat, List.getD_eq_getElem?_getD]
  rw [List.getElem?_append_left hi', List.getElem?_take_of_lt hi]

theorem execSnapshotOpen_stages (hc : c < 16) (hroom : (s.hw.chan c).staging.length < 256) (ha : s.hw.Asks c 0x0803 r) (hlen : 4 ≤ r.words.length)
    (hcheck : checkOpen s.hw r.payload = none) :
    let words := lmod 0 r.payload 0 (fun w => setBits w 9 2 (s.hw.openStack r.payload))
    let st : Staged := { opcode := 0x0803, words := words, stamp := s.hw.ctl.commits }
    let out := [BitVec.ofNat 32 (s.hw.openStack r.payload)] ++ le64 (partReserve (openRanks r.payload))
    let set := (s.hw.chan c).staging
    (r.stageOnly = true → execSnapshotOpen c s = .next (s.withHw ((s.hw.modChan c (fun x => { x with staging := set ++ [st] })).answered c r stStaged set.length out))) ∧
    (r.stageOnly = false → ∀ t, s.hw.commitTick r.arrived (if r.atTick then r.target else 0) (set ++ [st]) = .inl t →
      execSnapshotOpen c s = .next (s.withHw (s.hw.modChan c (fun x => { x with
        staging := set ++ [st], due := some { tick := t, named := r.atTick && decide (r.target ≠ 0) }, cur := some { r with waiting := false, out := out } })))) := by
  intro words st out set
  obtain ⟨-, hcur, -, -, hop⟩ := id ha
  let r' : Request := { r with words := r.words.take 4 ++ words }
  have hword {i : Nat} (hi : i < 4) : wnat r'.words i = wnat r.words i := envelope_word hi hlen
  have hpayload : r'.payload = words := by
    have htake : (r.words.take 4).length = 4 := by rw [List.length_take]; omega
    exact List.drop_left' htake
  have hopcode : r'.opcode = 0x0803 := by
    rw [← hop, Request.opcode, Request.opcode, fld, fld, hword (by decide)]
  have hrun : execSnapshotOpen c s = .next (s.withHw (s.hw.stage c r' [] out)) := by
    rw [execSnapshotOpen, atUnit_in hc, onHw_next, withRequest_asks ha]
    simp only [hcheck]
    rfl
  have hst : ({ opcode := r'.opcode, words := r'.payload, bulk := [], stamp := s.hw.ctl.commits } : Staged) = st := by rw [hopcode, hpayload]
  obtain ⟨hyes, hno⟩ := stage_staged (r' := r') (bulk := []) (out := out) hcur hroom (by rw [Request.stageOnly, Request.stageOnly, fld, fld, hword (by decide)]) rfl
    (by rw [Request.atTick, Request.atTick, fld, fld, hword (by decide)]) (hword (by decide))
  rw [hst] at hyes hno
  exact ⟨fun h => by rw [hrun, hyes h], fun h t ht => by rw [hrun, hno h t ht]⟩

/-- A ROLLBACK_START that stages the bytes of a record. -/
theorem rollback_stages {b : List Byte} (hroom : (s.hw.chan c).staging.length < 256) (ha : s.hw.Asks c 0x0C02 r)
    (hrun : execRollbackStart c s = .next (s.withHw (s.hw.stage c r b))) :
    let st : Staged := { opcode := 0x0C02, words := r.payload, bulk := b, stamp := s.hw.ctl.commits }
    let set := (s.hw.chan c).staging
    (r.stageOnly = true → execRollbackStart c s = .next (s.withHw ((s.hw.modChan c (fun x => { x with staging := set ++ [st] })).answered c r stStaged set.length []))) ∧
    (r.stageOnly = false → ∀ t, s.hw.commitTick r.arrived (if r.atTick then r.target else 0) (set ++ [st]) = .inl t →
      execRollbackStart c s = .next (s.withHw (s.hw.modChan c (fun x => { x with
        staging := set ++ [st], due := some { tick := t, named := r.atTick && decide (r.target ≠ 0) }, cur := some { r with waiting := false, out := [] } })))) := by
  obtain ⟨-, hcur, -, -, hop⟩ := id ha
  obtain ⟨hyes, hno⟩ := stage_staged (r' := r) (bulk := b) (out := []) hcur hroom rfl rfl rfl rfl
  rw [hop] at hyes hno
  exact ⟨fun h => by rw [hrun, hyes h], fun h t ht => by rw [hrun, hno h t ht]⟩

/-- The record of a sealed part of the job. -/
theorem execRollbackStart_part {x : Part} (hc : c < 16) (ha : s.hw.Asks c 0x0C02 r) (hjob : fld r.payload 0 11 0 ≠ 0)
    (hback : s.hw.rollingBack (fld r.payload 0 11 0) = false) (h0 : fld r.payload 0 24 24 = 0) (hx : s.hw.part? (fld r.payload 0 21 16) = some x)
    (hbuddy : x.buddy = false) (hown : x.job = fld r.payload 0 11 0) (hstate : x.state = .sealed ∨ x.state = .damaged)
    (hholds : recordHolds (fld r.payload 0 11 0) (memReadList 0 x.record 0 x.recBytes) = true) :
    execRollbackStart c s = .next (s.withHw (s.hw.stage c r (memReadList 0 x.record 0 x.recBytes))) := by
  have hgood : ¬ (x.buddy = true ∨ x.job ≠ fld r.payload 0 11 0 ∨ (x.state ≠ .sealed ∧ x.state ≠ .damaged) ∨
      ¬ recordHolds (fld r.payload 0 11 0) (memReadList 0 x.record 0 x.recBytes) = true) := by
    have hstate' : ¬ (x.state ≠ .sealed ∧ x.state ≠ .damaged) := by tauto
    rw [hbuddy, hown, hholds]
    simp only [hstate', Bool.false_eq_true, ne_eq, not_true_eq_false, or_self, not_false_eq_true]
  rw [execRollbackStart, atUnit_in hc, onHw_next, withRequest_asks ha]
  simp only
  rw [if_neg (by simp [hjob, hback]), if_pos h0, hx]
  exact congrArg (fun h => Host.Outcome.next (s.withHw h)) (if_neg hgood)

/-- The record in the bulk window. -/
theorem execRollbackStart_bulk (hc : c < 12) (ha : s.hw.Asks c 0x0C02 r) (hjob : fld r.payload 0 11 0 ≠ 0)
    (hback : s.hw.rollingBack (fld r.payload 0 11 0) = false) (h1 : fld r.payload 0 24 24 = 1) (hn : wnat r.payload 2 ≠ 0) (hin : wnat r.payload 2 ≤ 16 * 2 ^ 20)
    (hholds : recordHolds (fld r.payload 0 11 0) (memReadList 0 s.hw.ctl.bulk (wnat r.payload 1) (wnat r.payload 2)) = true) :
    execRollbackStart c s = .next (s.withHw (s.hw.stage c r (memReadList 0 s.hw.ctl.bulk (wnat r.payload 1) (wnat r.payload 2)))) := by
  have hfits : ¬ (12 ≤ c ∨ wnat r.payload 2 = 0 ∨ bulkSize < wnat r.payload 2) := by
    rw [bulkSize]
    omega
  rw [execRollbackStart, atUnit_in (by omega), onHw_next, withRequest_asks ha]
  simp only
  rw [if_neg (by simp [hjob, hback]), if_neg (by omega), if_neg hfits, if_neg (not_not.2 hholds)]
end

/-- Settles O22. -/
theorem openAndRollbackStage : Obligations.OpenAndRollbackStage := by
  unfold Obligations.OpenAndRollbackStage
  intro s c r hc hroom p set staged
  exact ⟨fun ha hlen hcheck => execSnapshotOpen_stages hc hroom ha hlen hcheck, fun ha hjob hback =>
    ⟨fun h0 x hx hbuddy hown hstate hholds => rollback_stages hroom ha (execRollbackStart_part hc ha hjob hback h0 hx hbuddy hown hstate hholds),
      fun h1 h12 hn hin hholds => rollback_stages hroom ha (execRollbackStart_bulk h12 ha hjob hback h1 hn hin hholds)⟩⟩

/-! ### COMMIT and DISCARD_STAGED -/

section
variable {s : State} {c : Nat} {r : Request}

theorem execCommit_empty (hc : c < 16) (ha : s.hw.Asks c 0x0002 r) (hset : (s.hw.chan c).staging = []) :
    execCommit c s = .next (s.withHw (s.hw.answered c r stOk 0 (0 :: le64 s.hw.time.tick))) := by
  obtain ⟨-, hcur, -⟩ := id ha
  rw [execCommit, atUnit_in hc, onHw_next, withRequest_asks ha]
  simp only [hset, if_true, reply_eq hcur]
  rfl

theorem execCommit_commits {t : Nat} (hc : c < 16) (ha : s.hw.Asks c 0x0002 r) (hset : (s.hw.chan c).staging ≠ [])
    (ht : s.hw.commitTick r.arrived r.target (s.hw.chan c).staging = .inl t) :
    execCommit c s = .next (s.withHw (s.hw.modChan c (fun x => { x with
      due := some { tick := t, dryRun := decide (fld r.payload 0 0 0 = 1), named := decide (r.target ≠ 0) }, cur := some { r with waiting := false } }))) := by
  obtain ⟨-, hcur, -⟩ := id ha
  rw [execCommit, atUnit_in hc, onHw_next, withRequest_asks ha]
  simp only [if_neg hset, ht]
  exact congrArg (fun h => Host.Outcome.next (s.withHw h)) (modChan_congr (by simp [hcur]))

/-- Without a target, a change of the tick's length or a handover, the tick is the first eligible one. -/
theorem commitTick_first {h : Hw} {arrived : Nat} {set : List Staged} (hplain : ∀ q ∈ set, q.opcode ≠ 0x0101) (hhand : h.handoverTick = none) :
    h.commitTick arrived 0 set = .inl (max (h.time.tick + 1) ((arrived + 135) / 128)) := by
  have hbounded : setsTick set = false := by simpa [setsTick] using hplain
  rw [commitTick_untargeted, hbounded, Hw.firstCommit]
  simp [hhand, Hw.firstFrom, Hw.firstEligible, cdiv]

theorem execDiscardStaged_asks (hc : c < 16) (ha : s.hw.Asks c 0x0003 r) :
    execDiscardStaged c s = .next (s.withHw (if (s.hw.chan c).due.isSome then s.hw.answered c r stTickPassed 0 []
      else (s.hw.modChan c (fun x => { x with staging := [] })).answered c r stOk 0 [w32 (s.hw.chan c).staging.length])) := by
  obtain ⟨-, hcur, -⟩ := id ha
  rw [execDiscardStaged, atUnit_in hc, onHw_next, Hw.answer, withRequest_asks ha]
  by_cases hdue : (s.hw.chan c).due.isSome = true
  · simp only [hdue, if_true, Hw.refuse, reply_eq hcur]
  · simp only [hdue, if_false, Bool.false_eq_true]
    rw [reply_eq (by simpa using hcur)]
end

/-- Settles O23. -/
theorem commitAndDiscard : Obligations.CommitAndDiscard := by
  unfold Obligations.CommitAndDiscard
  intro s c r hc set
  refine ⟨execCommit_empty hc, fun ha hset t ht => execCommit_commits hc ha hset ht, fun ha hset f hf => execCommit_of_fails hc ha hset hf,
    fun ha hset hplain hhand htarget => ?_, fun ha hdue => ?_, fun ha hdue => ?_⟩
  · have hend := execCommit_commits hc ha hset (by rw [htarget]; exact commitTick_first hplain hhand)
    rw [htarget] at hend
    exact hend
  · rw [exec_discardStaged, execDiscardStaged_asks hc ha, if_neg (by simp [hdue])]
    rfl
  · rw [exec_discardStaged, execDiscardStaged_asks hc ha, if_pos (Option.isSome_iff_ne_none.2 hdue)]

end Sys2Proof.Machine
end

section
/-!
Commands that answer from the state they find (R44, Tables 2.13, 2.18, 3.10, 3.11, 6.11, 10.8, 16.13, 17.11, 18.10).
-/

namespace Sys2Proof.Machine
open Sys2Proof

section
variable {s : State} {c op st d : Nat} {r : Request} {out : List Word}

/-- A command of an asked channel that answers with the values f gives of the state, and changes nothing but its channel. -/
theorem answer_unchanged {f : Fuses → Hw → List Word → Hw × Nat × Nat × List Word} (hc : c < 16) (ha : s.hw.Asks c op r)
    (hf : f s.fuses s.hw r.payload = (s.hw, st, d, out)) :
    atUnit c 16 (onHw (fun fz h => h.answer c op (f fz h))) s = .next (s.withHw (s.hw.answered c r st d out)) := by
  obtain ⟨-, hcur, -⟩ := id ha
  rw [atUnit_in hc, onHw_next, answer_asks ha hf hcur]

/-- A command of an asked channel that answers from a part it has changed, its own channel's request kept. -/
theorem answer_changed {h' : Hw} {f : Fuses → Hw → List Word → Hw × Nat × Nat × List Word} (hc : c < 16) (ha : s.hw.Asks c op r)
    (hf : f s.fuses s.hw r.payload = (h', st, d, out)) (hchans : h'.ctl.chans = s.hw.ctl.chans) :
    atUnit c 16 (onHw (fun fz h => h.answer c op (f fz h))) s = .next (s.withHw (h'.answered c r st d out)) := by
  obtain ⟨-, hcur, -⟩ := id ha
  have hcur' : (h'.chan c).cur = some r := by rw [Hw.chan, hchans]; exact hcur
  rw [atUnit_in hc, onHw_next, answer_asks ha hf hcur']

/-- GET_VERSION. -/
theorem execGetVersion_asks (hc : c < 16) (ha : s.hw.Asks c 0x0001 r) :
    execGetVersion c s = .next (s.withHw (s.hw.answered c r stOk 0 [w32 (1 + 256 * Config.dciMinor.toNat + 0x7020 * 2 ^ 16), w32 s.hw.ctl.fwVersion, w32 s.hw.ctl.secVersion,
      0x10800288, w32 (1024 + 256 * 2 ^ 16), w32 (8192 + 16896 * 2 ^ 16), w32 4194304, w32 (16 + 8 * 2 ^ 8 + 2 * 2 ^ 16 + s.fuses.lc.code * 2 ^ 24), w32 192])) := by
  have hminor : ∀ n, 256 * n = n * 2 ^ 8 := fun n => Nat.mul_comm 256 n
  have hcounts : (0x10800288 : Word) = w32 (8 + 8 * 2 ^ 4 + 2 * 2 ^ 8 + 128 * 2 ^ 16 + 16 * 2 ^ 24) := by decide
  rw [hminor, hcounts]
  exact answer_unchanged hc ha rfl

/-- EPOCH_STATUS_GET. -/
theorem execEpochStatusGet_asks (hc : c < 16) (ha : s.hw.Asks c 0x0303 r) : let h := s.hw
    execEpochStatusGet c s = .next (s.withHw (h.answered c r stOk 0
      ([w32 (h.mesh.injEpoch + (if h.mesh.regimeBubble then 2 else 0) + (if h.mesh.flipping then 4 else 0) + h.mesh.reasons.toNat * 2 ^ 8)]
        ++ le64 h.mesh.flipTick ++ [w32 h.mesh.drainCount] ++ le64 h.mesh.drainDone ++ (List.range 4).map (fun i => w32 ((maskOf h.mesh.fenced).toNat >>> (32 * i)))
        ++ (List.range 4).map (fun i => w32 ((maskOf (natsWhere 128 (fun k => (h.cx k).attach = .detached))).toNat >>> (32 * i)))))) := by
  intro h
  have hbits : ∀ b : Bool, ∀ n, b2n b * n = if b then n else 0 := by intro b n; cases b <;> simp [b2n]
  rw [execEpochStatusGet, answer_unchanged hc ha rfl, hbits, hbits]

/-- TICK_STATUS_GET. -/
theorem execTickStatusGet_asks (hc : c < 16) (ha : s.hw.Asks c 0x0102 r) : let t := s.hw.time
    execTickStatusGet c s = .next (s.withHw (s.hw.answered c r stOk 0 (le64 t.tick ++ le64 t.base ++ [w32 (t.mult + t.slot * 2 ^ 8 + t.activeGen * 2 ^ 16
        + (if t.genFenced.getD (1 - t.activeGen) true then 0 else 2 ^ 17) + t.active * 2 ^ 20 + t.lockState * 2 ^ 24),
      w32i t.offsetPs, w32 (t.offsets.foldl max 0), w32i t.freqAdj, w32 t.overruns, w32 t.imbalances, w32 t.markerErrors]))) := by
  intro t
  have hstandby : ∀ b : Bool, b2n (decide (¬ b = true)) * 2 ^ 17 = if b then 0 else 2 ^ 17 := by intro b; cases b <;> rfl
  rw [execTickStatusGet, answer_unchanged hc ha rfl, hstandby]

/-- RING_STATUS_GET of a group with a ring. -/
theorem execRingStatusGet_asks {x : Group} {q : RingPlan} (hc : c < 16) (ha : s.hw.Asks c 0x0602 r) (hx : s.hw.grp? (fld r.payload 0 12 0) = some x) (hq : x.plan = some q) :
    execRingStatusGet c s = .next (s.withHw (s.hw.answered c r stOk 0 ([w32 (q.id + (if x.ringLost then 2 ^ 16 else 0)), w32 q.index, w32 x.mismatch, w32 x.heldOut]
      ++ (List.range 4).flatMap (fun a => [w32 (tget {} x.axes a).heard, w32 (tget {} x.axes a).got, w32 (tget {} x.axes a).sent, w32 (tget {} x.axes a).halfB])))) := by
  have hlost : (if x.ringLost then 2 ^ 16 else 0) = b2n x.ringLost * 2 ^ 16 := by cases x.ringLost <;> simp [b2n]
  rw [hlost]
  exact answer_unchanged hc ha (by dsimp only; rw [hx, Option.bind_some, hq, Option.map_some])

/-- RECOVERY_STATUS_GET of a job. -/
theorem execRecoveryStatusGet_asks (hc : c < 16) (ha : s.hw.Asks c 0x0C03 r) (hjob : fld r.payload 0 11 0 ≠ 0) : let j := s.hw.job (fld r.payload 0 11 0)
    let mine := s.hw.groups.filter (fun e => decide (e.2.cfg.job = fld r.payload 0 11 0))
    execRecoveryStatusGet c s = .next (s.withHw (s.hw.answered c r stOk 0 ([w32 ((if j.running.isSome then 2 else if j.needed then 1 else 0) + (if j.suspend then 4 else 0)), w32 j.maxDrop,
        w32 (mine.countP (fun e => e.2.rollback) + mine.length * 2 ^ 16)] ++ le64 j.lastTick ++ le64 j.doneTick
        ++ [w32 (j.snapshot + j.restored * 2 ^ 16), w32 (j.created + j.removed * 2 ^ 16), w32 j.stale]))) := by
  intro j mine
  have hsuspend : (if j.suspend then 4 else 0) = b2n j.suspend * 4 := by cases j.suspend <;> rfl
  rw [hsuspend, List.countP_eq_length_filter]
  exact answer_unchanged hc ha (by dsimp only; rw [if_neg hjob]; rfl)

/-- FAULT_LOG_READ. -/
theorem execFaultLogRead_asks (hc : c < 16) (ha : s.hw.Asks c 0x0B03 r) : let hist := decide (fld r.payload 0 24 24 = 1)
    let log := if hist then s.hw.faults.history else s.hw.faults.log
    let total := if hist then s.hw.faults.histTotal else s.hw.faults.logTotal
    execFaultLogRead c s = .next (s.withHw (s.hw.answered c r stOk 0
      ([w32 total, w32 (total - log.length), 0, 0] ++ ((log.drop (fld r.payload 0 15 0)).take (fld r.payload 0 22 16)).flatMap (·.words)))) :=
  answer_unchanged hc ha rfl

/-- POWER_TELEMETRY_READ: its first three words and its last. -/
theorem execPowerTelemetryRead_asks (hc : c < 16) (ha : s.hw.Asks c 0x0D06 r) :
    ∃ out, execPowerTelemetryRead c s = .next (s.withHw (s.hw.answered c r stOk 0 out)) ∧ out.take 2 = le64 s.hw.power.latchTick ∧
      out.getD 2 0 = w32 (min 65535 s.hw.power.latchPower.sum + s.hw.power.limit * 2 ^ 16) ∧ out.getLast? = some (w32 s.hw.power.throttleTicks) := by
  exact ⟨_, answer_unchanged hc ha rfl, rfl, rfl, by rw [List.getLast?_append]; rfl⟩

/-- LEDGER_READ of a conserved quantity whose ledger balances. -/
theorem execLedgerRead_balanced {l : Ledger} (hc : c < 16) (ha : s.hw.Asks c 0x0104 r) (hq : fld r.payload 0 2 0 ≠ 0)
    (hi : ledgerIndexOk (fld r.payload 0 2 0) (wnat r.payload 1) = true) (hl : s.hw.ledger (fld r.payload 0 2 0) (wnat r.payload 1) = some l)
    (hbal : s.hw.time.unbalanced.contains (fld r.payload 0 2 0 * 2 ^ 29 + wnat r.payload 1) = false) :
    execLedgerRead c s = .next (s.withHw (s.hw.answered c r stOk 0 (le64 s.hw.latch.tick ++ le64 l.left ++ le64 l.right
      ++ [w32 l.allow, 3, w32 (tget 0 s.hw.time.imbalanceCount (fld r.payload 0 2 0 * 2 ^ 29 + wnat r.payload 1))]))) := by
  refine answer_unchanged hc ha ?_
  dsimp only
  rw [if_neg hq, if_neg (not_not.2 hi), hl, hbal]
  rfl

end

/-- Settles O26. -/
theorem statusCommandsAnswer : Obligations.StatusCommandsAnswer := by
  unfold Obligations.StatusCommandsAnswer
  intro s c r hc h p n32 n64 ok
  exact ⟨execGetVersion_asks hc, fun ha => answer_unchanged hc ha rfl, execTickStatusGet_asks hc, execEpochStatusGet_asks hc,
    fun ha x q hx hq => execRingStatusGet_asks hc ha hx hq, execFaultLogRead_asks hc, fun ha => answer_unchanged hc ha rfl,
    execRecoveryStatusGet_asks hc, execPowerTelemetryRead_asks hc, fun ha l hq hi hl hbal => execLedgerRead_balanced hc ha hq hi hl hbal⟩

end Sys2Proof.Machine
end

section
/-!
Commands that read tables and records (Tables 5.17, 9.10, 9.12, 11.12, 13.12, 15.11).
-/

namespace Sys2Proof.Machine
open Sys2Proof

theorem leWords_beBytes_length (ws : List Word) : (leWords (ws.flatMap beBytes)).length = ws.length := by
  induction ws with
  | nil => rfl
  | cons w ws ih =>
    have hcons : leWords ((w :: ws).flatMap beBytes) = w32 (leNat (beBytes w)) :: leWords (ws.flatMap beBytes) := rfl
    rw [hcons, List.length_cons, List.length_cons, ih]

/-- An entry of lists of one length k, one behind another. -/
theorem getElem?_flatMap_const {α β : Type} {f : α → List β} {k : Nat} (hk : ∀ x, (f x).length = k) (l : List α) (i : Nat) {j : Nat} (hj : j < k) :
    (l.flatMap f)[k * i + j]? = l[i]?.bind (fun x => (f x)[j]?) := by
  induction l generalizing i with
  | nil => rfl
  | cons x l ih =>
    rw [List.flatMap_cons]
    cases i with
    | zero => rw [List.getElem?_append_left (by rw [hk]; omega)]; simp
    | succ i =>
      rw [List.getElem?_append_right (by rw [hk, Nat.mul_succ]; omega), hk, List.getElem?_cons_succ, ← ih i]
      congr 1
      rw [Nat.mul_succ]
      omega

theorem length_flatMap_const {α β : Type} {f : α → List β} {k : Nat} (hk : ∀ x, (f x).length = k) (l : List α) : (l.flatMap f).length = k * l.length := by
  simp [List.length_flatMap, hk, Nat.mul_comm]

section
variable {s : State} {c : Nat} {r : Request}

/-- CULLET_LIST_READ of a complex. -/
theorem execCulletListRead_asks (hc : c < 16) (ha : s.hw.Asks c 0x0209 r) (hcx : fld r.payload 0 7 0 < 144) (hn : fld r.payload 1 15 0 + fld r.payload 1 31 16 ≤ 256) :
    let x := s.hw.cx (fld r.payload 0 7 0)
    execCulletListRead c s = .next (s.withHw (s.hw.answered c r stOk 0
      ([w32 x.cullet.length, w32 x.culletOver, w32 x.promotions, w32 (match x.drainTo with | none => 0 | some k => x.leaving k)]
        ++ (List.range (fld r.payload 1 31 16)).map (fun i => w32 (nth x.cullet (fld r.payload 1 15 0 + i)))))) := by
  intro x
  have hdrain : (match x.drainTo with | none => 0 | some k => x.leaving k) = x.drainTo.elim 0 x.leaving := by cases x.drainTo <;> rfl
  have hchecks : firstFail [failIf (decide (144 ≤ fld r.payload 0 7 0)) (bad 0), failIf (decide (256 < fld r.payload 1 15 0 + fld r.payload 1 31 16)) (bad 4)] = none := by
    simp [firstFail, failIf, Nat.not_le.2 hcx, Nat.not_lt.2 hn]
  rw [hdrain]
  exact answer_unchanged hc ha (by dsimp only; rw [hchecks])

/-- GLEAN_STATUS_GET of a port. -/
theorem execGleanStatusGet_asks (hc : c < 16) (ha : s.hw.Asks c 0x0A03 r) (hport : fld r.payload 0 8 0 < 264) : let h := s.hw
    let u := fld r.payload 0 8 0
    let g := (h.port u).glean
    ∃ out, execGleanStatusGet c s = .next (s.withHw (h.answered c r stOk 0 out)) ∧
      out.take 4 = [w32 (g.state + (if g.missing then 8 else 0) + (if h.winnowed u then 16 else 0) + (if h.disc.degraded then 32 else 0) + g.cause * 2 ^ 8 + g.other * 2 ^ 16),
        w32 h.disc.serial, w32 g.hold, w32 h.disc.livePermille] ∧
      (out.drop 4).take 3 = le64 g.lastTick ++ [w32 g.messages] ∧ out.length = 24 := by
  intro h u g
  have hbits : ∀ b : Bool, ∀ n, (if b then n else 0) = b2n b * n := by intro b n; cases b <;> simp [b2n]
  have hcheck : checkPortOnly r.payload = none := by simp [checkPortOnly, failIf, Nat.not_lt.2 (Nat.le_of_lt_succ hport)]
  rw [hbits, hbits, hbits]
  refine ⟨_, answer_unchanged hc ha (by dsimp only; rw [hcheck]), rfl, rfl, ?_⟩
  have hlast : ∀ l : List Word, ((l ++ List.replicate 16 0).take 16).length = 16 := by intro l; simp
  rw [List.length_append, leWords_beBytes_length, hlast]
  rfl

/-- The low three bits of GROUP_STATUS_GET's first word are the state. -/
theorem stateCode_field (x : Group) (n : Nat) (rest : List Word) : fld (w32 (x.state.code + 8 * n) :: rest) 0 2 0 = x.state.code := by
  have hcode : x.state.code < 8 := by cases x.state <;> decide
  simp only [fld, wnat, List.getD_cons_zero, w32, BitVec.toNat_ofNat, bits, Nat.shiftRight_zero]
  omega

/-- GROUP_STATUS_GET of a context. -/
theorem execGroupStatusGet_asks {x : Group} (hc : c < 16) (ha : s.hw.Asks c 0x0507 r) (hx : s.hw.grp? (fld r.payload 0 12 0) = some x) :
    ∃ out, execGroupStatusGet c s = .next (s.withHw (s.hw.answered c r stOk 0 out)) ∧
      (out.drop 1).take 6 = le64 x.current ++ le64 (armedTotal x.armed) ++ [w32 x.wait, w32 (s.hw.heldCells (fld r.payload 0 12 0) x)] ∧
      fld out 0 2 0 = x.state.code ∧ out.drop 10 = (List.range 16).map (fun i => w32 (tget 0 x.counters i)) := by
  refine ⟨_, answer_unchanged hc ha (by dsimp only; rw [hx]), rfl, ?_, rfl⟩
  have hsplit : ∀ k a b d e, k + b2n a * 8 + b2n b * 16 + b2n d * 32 + b2n e * 64 = k + 8 * (b2n a + b2n b * 2 + b2n d * 4 + b2n e * 8) := by intros; omega
  rw [hsplit]
  exact stateCode_field x _ _

/-- GENERATION_RECORD_READ of a record that is kept, with the context or behind one that is gone. -/
theorem execGenerationRecordRead_asks {l : List (Nat × List Word)} {e : Nat × List Word} (hc : c < 16) (ha : s.hw.Asks c 0x0508 r)
    (hl : ((s.hw.grp? (fld r.payload 0 12 0)).map (·.records)).or (tget? s.hw.records (fld r.payload 0 12 0)) = some l)
    (he : l.find? (fun e => decide (e.1 = wnat r.payload 1 + wnat r.payload 2 * 2 ^ 32)) = some e) :
    execGenerationRecordRead c s = .next (s.withHw (s.hw.answered c r stOk 0 (leWords (e.2.flatMap beBytes)))) :=
  answer_unchanged hc ha (by rw [hl]; dsimp only; rw [he])

/-- THREAD_TRAP_READ: the counts, and ten words of each record. -/
theorem execThreadTrapRead_asks (hc : c < 16) (ha : s.hw.Asks c 0x0705 r) (hn : fld r.payload 0 3 0 + fld r.payload 0 8 4 ≤ 16) : let q := s.hw.progs
    let traps := (q.traps.drop (fld r.payload 0 3 0)).take (fld r.payload 0 8 4)
    ∃ out, execThreadTrapRead c s = .next (s.withHw (s.hw.answered c r stOk 0 out)) ∧
      out.take 4 = [w32 q.trapCount, w32 q.tickSkipped, w32 q.discarded, w32 q.sendDrops] ∧ out.length = 4 + 10 * traps.length ∧
      ∀ i t, traps[i]? = some t → out.getD (4 + 10 * i + 2) 0 = w32 t.progId ∧ out.getD (4 + 10 * i + 6) 0 = w32 t.off := by
  intro q traps
  refine ⟨_, answer_unchanged hc ha (by dsimp only; rw [if_neg (Nat.not_lt.2 hn)]), rfl, ?_, fun i t ht => ?_⟩
  · rw [List.length_append, length_flatMap_const (k := 10) (fun _ => rfl)]
    rfl
  · have hword : ∀ (head : List Word) (f : Trap → List Word) (w : Word) (j : Nat), head.length = 4 → (∀ t, (f t).length = 10) → j < 10 → (f t)[j]? = some w →
        (head ++ traps.flatMap f).getD (4 + 10 * i + j) 0 = w := by
      intro head f w j hhead hf hj hw
      rw [List.getD_eq_getElem?_getD, List.getElem?_append_right (by omega), hhead, Nat.add_assoc, Nat.add_sub_cancel_left, getElem?_flatMap_const hf traps i hj, ht]
      simp [hw]
    exact ⟨hword _ _ _ 2 rfl (fun _ => rfl) (by omega) rfl, hword _ _ _ 6 rfl (fun _ => rfl) (by omega) rfl⟩

/-- SNAPSHOT_RECORD_READ of a part's record. -/
theorem execSnapshotRecordRead_asks {x : Part} (hc : c < 16) (ha : s.hw.Asks c 0x0805 r) (hkind : fld r.payload 0 8 8 = 0) (hx : s.hw.part? (fld r.payload 0 5 0) = some x)
    (hoff : wnat r.payload 1 % 4 = 0) (hn : fld r.payload 2 11 0 % 4 = 0) (hmax : fld r.payload 2 11 0 ≤ 4064) (hsize : wnat r.payload 1 + fld r.payload 2 11 0 ≤ x.recBytes) :
    execSnapshotRecordRead c s = .next (s.withHw (s.hw.answered c r stOk 0 ([w32 (x.state.code + (if x.buddy then 2 ^ 8 else 0) + x.snapshot * 2 ^ 16), w32 x.job] ++ le64 x.recBytes
      ++ leWords (memReadList 0 x.record (wnat r.payload 1) (fld r.payload 2 11 0))))) := by
  have hbuddy : (if x.buddy then 2 ^ 8 else 0) = b2n x.buddy * 2 ^ 8 := by cases x.buddy <;> simp [b2n]
  rw [hbuddy]
  refine answer_unchanged hc ha ?_
  dsimp only
  rw [hkind, if_neg (not_not.2 hoff), if_neg (by omega)]
  simp only [Nat.zero_ne_one, decide_false, Bool.false_eq_true, if_false, hx, Option.elim_some, Nat.not_lt.2 hsize]

end

/-- Settles O28. -/
theorem tableCommandsAnswer : Obligations.TableCommandsAnswer := by
  unfold Obligations.TableCommandsAnswer
  intro s c r hc h p n32 n64 ok
  exact ⟨execCulletListRead_asks hc, execGleanStatusGet_asks hc, fun ha x hx => execGroupStatusGet_asks hc ha hx,
    fun ha x e hx he => execGenerationRecordRead_asks hc ha (by rw [hx]; rfl) he,
    fun ha l e hx hl he => execGenerationRecordRead_asks hc ha (by rw [hx]; exact hl) he, execThreadTrapRead_asks hc,
    fun ha hkind x hx hoff hn hmax hsize => execSnapshotRecordRead_asks hc ha hkind hx hoff hn hmax hsize⟩

end Sys2Proof.Machine
end

section
/-!
Commands that read counters, and clear them (R151, R186, R207, R429).
-/

namespace Sys2Proof.Machine
open Sys2Proof

/-! ### Counters deleted from a table -/

theorem tget?_tdel {α : Type} (t : Tbl α) (a i : Nat) : tget? (tdel t a) i = if i = a then none else tget? t i := by
  induction t with
  | nil => exact (ite_self _).symm
  | cons e t ih =>
    have hcons : ∀ t : Tbl α, tget? (e :: t) i = if e.1 = i then some e.2 else tget? t i := fun _ => rfl
    have htail : tdel (e :: t) a = if e.1 ≠ a then e :: tdel t a else tdel t a := by
      simp only [tdel, List.filter_cons, ne_eq, decide_eq_true_eq]
    rw [htail, hcons]
    by_cases ha : e.1 = a
    · rw [if_neg (not_not.2 ha), ih]
      by_cases hi : i = a
      · rw [if_pos hi, if_pos hi]
      · rw [if_neg hi, if_neg hi, if_neg (fun he => hi (he.symm.trans ha))]
    · rw [if_pos ha, hcons, ih]
      by_cases hi : i = a
      · rw [if_pos hi, if_pos hi, if_neg (fun he => ha (he.trans hi))]
      · rw [if_neg hi, if_neg hi]

theorem tget_foldl_tdel {α : Type} (d : α) (is : List Nat) (t : Tbl α) (i : Nat) :
    tget d (is.foldl (fun t a => tdel t a) t) i = if i ∈ is then d else tget d t i := by
  induction is generalizing t with
  | nil => simp
  | cons a is ih =>
    have hdel : tget d (tdel t a) i = if i = a then d else tget d t i := by
      rw [tget, tget?_tdel]
      split <;> rfl
    rw [List.foldl_cons, ih, hdel]
    by_cases ha : i = a <;> by_cases hi : i ∈ is <;> simp [ha, hi]

/-- The counters of a table with n of them from one on cleared. -/
theorem tget_cleared (t : Tbl Nat) (first n i : Nat) :
    tget 0 (((List.range n).map (first + ·)).foldl (fun t a => tdel t a) t) i = if first ≤ i ∧ i < first + n then 0 else tget 0 t i := by
  have hmem : i ∈ (List.range n).map (first + ·) ↔ first ≤ i ∧ i < first + n := by
    rw [List.mem_map]
    exact ⟨fun ⟨k, hk, he⟩ => by have := List.mem_range.1 hk; omega, fun h => ⟨i - first, List.mem_range.2 (by omega), by omega⟩⟩
  rw [tget_foldl_tdel]
  simp only [hmem]

theorem firstFail_two {a b : Bool} {f g : Option Fail} (ha : a = false) (hb : b = false) : firstFail [failIf a f, failIf b g] = none := by
  subst ha hb; rfl

theorem checkPortOnly_none {p : List Word} (hu : fld p 0 8 0 < 264) : checkPortOnly p = none := by
  simp [checkPortOnly, failIf, Nat.not_lt.2 (Nat.le_of_lt_succ hu)]

/-! ### Ports and routers -/

section
variable {s : State} {c : Nat} {r : Request}

/-- What PORT_COUNTERS_READ does of its counters, and then of the port. -/
theorem execPortCountersRead_asks (hc : c < 16) (ha : s.hw.Asks c 0x0208 r) (hu : fld r.payload 0 8 0 < 264) (hn : fld r.payload 1 7 0 + fld r.payload 1 15 8 ≤ 35) :
    let h := s.hw
    let u := fld r.payload 0 8 0
    let is := (List.range (fld r.payload 1 15 8)).map (fld r.payload 1 7 0 + ·)
    execPortCountersRead c s = .next (s.withHw ((if fld r.payload 0 16 16 = 1 then h.modPort u (fun x => { x with counters := is.foldl (fun t i => tdel t i) x.counters }) else h).answered
      c r stOk 0 (le64 h.time.tick ++ is.flatMap (fun i => le64 (tget 0 (h.port u).counters i))))) := by
  intro h u is
  have hchecks : firstFail [checkPortOnly r.payload, failIf (decide (35 < fld r.payload 1 7 0 + fld r.payload 1 15 8)) (bad 4)] = none := by
    rw [checkPortOnly_none hu, decide_eq_false (Nat.not_lt.2 hn)]
    rfl
  refine answer_changed hc ha ?_ (by split <;> rfl)
  dsimp only
  rw [hchecks]

/-- The two cycle counters of a router rise, and nothing else of the hardware but the number of open values drawn. -/
theorem waitCycles_router (h : Hw) (k : Nat) : ∃ x, h.waitCycles k = ({ h with fresh := h.fresh + 2 } : Hw).modRouter k (fun _ => x) ∧
    { x with counters := (h.router k).counters } = h.router k ∧ ∀ i, i ≠ 7 → i ≠ 13 → tget 0 x.counters i = tget 0 (h.router k).counters i := by
  obtain ⟨a, ha⟩ : ∃ a, a = h.draw.2 := ⟨_, rfl⟩
  obtain ⟨b, hb⟩ : ∃ b, b = h.draw.1.draw.2 := ⟨_, rfl⟩
  have hwait : h.waitCycles k = if seamRouter k then (({ h with fresh := h.fresh + 2 } : Hw).countRouter k 7 a).countRouter k 13 b
      else ({ h with fresh := h.fresh + 2 } : Hw).countRouter k 7 a := by rw [ha, hb]; rfl
  have htwice : ∀ (h : Hw) (f g : Router → Router), (h.modRouter k f).modRouter k g = h.modRouter k (fun _ => g (f (h.router k))) := by
    intro h f g
    simp only [Hw.modRouter, tmod, tget_tput, tput_tput]
    rfl
  rw [hwait]
  split
  · refine ⟨_, htwice _ _ _, rfl, fun i h7 h13 => ?_⟩
    simp only [tmod, tget_tput_ne _ _ h7, tget_tput_ne _ _ h13]
    rfl
  · refine ⟨_, rfl, rfl, fun i h7 _ => ?_⟩
    simp only [tmod, tget_tput_ne _ _ h7]
    rfl

theorem waitCycles_ctl (h : Hw) (k : Nat) : (h.waitCycles k).ctl = h.ctl := by
  obtain ⟨x, hx, -⟩ := waitCycles_router h k
  rw [hx]
  rfl

/-- What MESH_COUNTERS_READ does of its counters, and then of the router. -/
theorem execMeshCountersRead_asks (hc : c < 16) (ha : s.hw.Asks c 0x0305 r) (hk : fld r.payload 0 7 0 < 128) (hn : fld r.payload 1 7 0 + fld r.payload 1 15 8 ≤ 17) :
    let k := s.hw.waitCycles (fld r.payload 0 7 0)
    let is := (List.range (fld r.payload 1 15 8)).map (fld r.payload 1 7 0 + ·)
    execMeshCountersRead c s = .next (s.withHw ((if fld r.payload 0 16 16 = 1 then
        k.modRouter (fld r.payload 0 7 0) (fun x => { x with counters := is.foldl (fun t i => tdel t i) x.counters }) else k).answered
      c r stOk 0 (le64 k.time.tick ++ is.flatMap (fun i => le64 (tget 0 (k.router (fld r.payload 0 7 0)).counters i))))) := by
  intro k is
  refine answer_changed hc ha ?_ (by split <;> exact congrArg Ctl.chans (waitCycles_ctl _ _))
  dsimp only
  rw [firstFail_two (decide_eq_false (by omega)) (decide_eq_false (by omega))]

theorem waitCycles_time (h : Hw) (k : Nat) : (h.waitCycles k).time = h.time := by
  obtain ⟨x, hx, -⟩ := waitCycles_router h k
  rw [hx]
  rfl

/-- What SHAPING_COUNTERS_READ of a queue does. -/
theorem execShapingCountersRead_queue (hc : c < 16) (ha : s.hw.Asks c 0x0405 r) (hu : fld r.payload 0 8 0 < 264) (hkind : fld r.payload 0 17 17 = 0) : let h := s.hw
    let u := fld r.payload 0 8 0
    let i := fld r.payload 0 23 18
    let q := (h.port u).queue i
    execShapingCountersRead c s = .next (s.withHw ((if decide (fld r.payload 0 16 16 = 1) = true then h.modPort u (fun x => x.modQueue i (fun q => {
        q with txPackets := 0, txBytes := 0, shaperHeld := 0, creditHeld := 0 })) else h).answered c r stOk 0
      (le64 h.time.tick ++ le64 q.txPackets ++ le64 q.txBytes ++ le64 q.shaperHeld ++ le64 q.creditHeld ++ le64 ((q.tokens / 65536) % (2 ^ 64 : Int)).toNat ++ le64 q.deficit))) := by
  intro h u i q
  refine answer_changed hc ha ?_ (by split <;> rfl)
  dsimp only
  rw [checkPortOnly_none hu]
  dsimp only
  rw [if_pos hkind]

/-- What SHAPING_COUNTERS_READ of a meter does. -/
theorem execShapingCountersRead_meter (hc : c < 16) (ha : s.hw.Asks c 0x0405 r) (hu : fld r.payload 0 8 0 < 264) (hkind : fld r.payload 0 17 17 = 1) : let h := s.hw
    let u := fld r.payload 0 8 0
    let i := fld r.payload 0 23 18
    let m := (h.port u).meter i
    execShapingCountersRead c s = .next (s.withHw ((if decide (fld r.payload 0 16 16 = 1) = true then h.modPort u (fun x => {
        x with meters := tmod {} x.meters i (fun m => { m with green := 0, yellow := 0, redDrop := 0, redPass := 0 }) }) else h).answered c r stOk 0
      (le64 h.time.tick ++ le64 m.green ++ le64 m.yellow ++ le64 m.redDrop ++ le64 m.redPass ++ le64 (m.tc / 65536) ++ le64 (m.tp / 65536)))) := by
  intro h u i m
  have hmeter : ¬ fld r.payload 0 17 17 = 0 := by rw [hkind]; decide
  refine answer_changed hc ha ?_ (by split <;> rfl)
  dsimp only
  rw [checkPortOnly_none hu]
  dsimp only
  rw [if_neg hmeter]

/-! ### Lanes -/

/-- The hardware with the decoder counts of port u's lanes risen, and open values drawn. -/
def DecodeOnly (u : Nat) (h h' : Hw) : Prop :=
  (∀ q, q ≠ u → h'.port q = h.port q) ∧ { (h'.port u).lanes with counters := (h.port u).lanes.counters, chans := (h.port u).lanes.chans } = (h.port u).lanes ∧
    (∀ i, i ≠ 0 → i ≠ 5 → tget 0 (h'.port u).lanes.counters i = tget 0 (h.port u).lanes.counters i) ∧ h'.ctl = h.ctl

theorem DecodeOnly.refl (u : Nat) (h : Hw) : DecodeOnly u h h := ⟨fun _ _ => rfl, rfl, fun _ _ _ => rfl, rfl⟩

theorem DecodeOnly.trans {u : Nat} {h h' h'' : Hw} (h1 : DecodeOnly u h h') (h2 : DecodeOnly u h' h'') : DecodeOnly u h h'' := by
  obtain ⟨hport, hlanes, hcounts, hctl⟩ := h1
  obtain ⟨hport', hlanes', hcounts', hctl'⟩ := h2
  refine ⟨fun q hq => (hport' q hq).trans (hport q hq), ?_, fun i h0 h5 => (hcounts' i h0 h5).trans (hcounts i h0 h5), hctl'.trans hctl⟩
  rw [← hlanes'] at hlanes
  exact hlanes

theorem DecodeOnly.draw (u : Nat) (h : Hw) : DecodeOnly u h h.draw.1 := ⟨fun _ _ => rfl, rfl, fun _ _ _ => rfl, rfl⟩

theorem DecodeOnly.countLane (u : Nat) (h : Hw) {i : Nat} (hi : i = 0 ∨ i = 5) (n : Nat) : DecodeOnly u h (h.countLane u i n) := by
  refine ⟨fun q hq => port_modPort_ne h _ hq, ?_, fun k h0 h5 => ?_, rfl⟩
  · rw [Hw.countLane, Hw.modLanes, port_modPort]
  · rw [Hw.countLane, Hw.modLanes, port_modPort]
    exact tget_tput_ne _ _ (by omega)

theorem DecodeOnly.modChan (u : Nat) (h : Hw) (i : Nat) (f : RxChan → RxChan) : DecodeOnly u h (h.modLanes u (fun l => l.modChan i f)) := by
  refine ⟨fun q hq => port_modPort_ne h _ hq, ?_, fun k _ _ => ?_, rfl⟩
  · rw [Hw.modLanes, port_modPort]
    rfl
  · rw [Hw.modLanes, port_modPort]
    rfl

theorem DecodeOnly.foldl {u : Nat} {f : Hw → Nat → Hw} (hf : ∀ h i, DecodeOnly u h (f h i)) (is : List Nat) (h : Hw) : DecodeOnly u h (is.foldl f h) := by
  induction is generalizing h with
  | nil => exact .refl u h
  | cons i is ih => exact (hf h i).trans (ih _)

theorem decodeLanes_only (u : Nat) (h : Hw) : DecodeOnly u h (h.decodeLanes u) := by
  have hchans : ∀ n h, DecodeOnly u h ((List.range n).foldl (fun h i =>
      h.draw.1.modLanes u (fun l => l.modChan i (fun c => { c with corrected := sat32 (c.corrected + h.draw.2) }))) h) :=
    fun n h => .foldl (fun h i => (DecodeOnly.draw u h).trans (.modChan u _ i _)) _ h
  unfold Hw.decodeLanes
  dsimp only
  split
  · exact .refl u h
  · refine ((DecodeOnly.draw u h).trans (.countLane u _ (.inl rfl) h.draw.2)).trans (.trans ?_ (hchans _ _))
    split
    · exact (DecodeOnly.draw u _).trans (.countLane u _ (.inr rfl) _)
    · exact .refl u _

/-- What LANE_STATUS_GET does: it draws the two powers, counts what the lanes decoded, answers, and clears. -/
theorem execLaneStatusGet_asks (hc : c < 16) (ha : s.hw.Asks c 0x0905 r) (hu : fld r.payload 0 8 0 < 264) : let u := fld r.payload 0 8 0
    let a := s.hw.draw
    let b := a.1.draw
    let k := b.1.decodeLanes u
    execLaneStatusGet c s = .next (s.withHw ((if fld r.payload 0 16 16 = 1 then
        k.modLanes u (fun l => { l with counters := [], chans := l.chans.map (fun e => (e.1, { e.2 with corrected := 0 })) }) else k).answered c r stOk 0 (k.laneStatus u a.2 b.2))) := by
  intro u a b k
  obtain ⟨-, -, -, hctl⟩ := decodeLanes_only u b.1
  refine answer_changed hc ha ?_ (by split <;> exact congrArg Ctl.chans hctl)
  dsimp only
  rw [checkPortOnly_none hu]

end

/-- Settles O27. -/
theorem counterCommandsAnswer : Obligations.CounterCommandsAnswer := by
  unfold Obligations.CounterCommandsAnswer
  intro s c r hc h p n64 u k clear first n ends
  refine ⟨fun ha hu hn => ?_, fun ha hk hn => ?_, fun ha hu hkind => ?_, fun ha hu hkind => ?_, fun ha hu => ?_⟩
  · have hread := execPortCountersRead_asks hc ha hu hn
    dsimp only at hread
    rw [List.flatMap_map] at hread
    intro out
    refine ⟨fun hclear => ?_, fun hclear => ?_⟩
    · rw [if_neg hclear] at hread
      exact hread
    · rw [if_pos hclear] at hread
      exact ⟨{ h.port u with counters := ((List.range n).map (first + ·)).foldl (fun t i => tdel t i) (h.port u).counters }, hread, rfl, fun i => tget_cleared _ first n i⟩
  · have hread := execMeshCountersRead_asks hc ha hk hn
    dsimp only at hread
    rw [List.flatMap_map, waitCycles_time] at hread
    intro k' out
    refine ⟨waitCycles_router h k, fun hclear => ?_, fun hclear => ?_⟩
    · rw [if_neg hclear] at hread
      exact hread
    · rw [if_pos hclear] at hread
      exact ⟨{ k'.router k with counters := ((List.range n).map (first + ·)).foldl (fun t i => tdel t i) (k'.router k).counters }, hread, rfl, fun i => tget_cleared _ first n i⟩
  · have hread := execShapingCountersRead_queue hc ha hu hkind
    intro i q out
    exact ⟨fun hclear => hread.trans (by rw [if_neg (by simpa using hclear)]; rfl), fun hclear => hread.trans (by rw [if_pos (by simpa using hclear)]; rfl)⟩
  · have hread := execShapingCountersRead_meter hc ha hu hkind
    intro i m out
    exact ⟨fun hclear => hread.trans (by rw [if_neg (by simpa using hclear)]; rfl), fun hclear => hread.trans (by rw [if_pos (by simpa using hclear)]; rfl)⟩
  · have hread := execLaneStatusGet_asks hc ha hu
    intro a b k' out
    obtain ⟨hport, hlanes, hcounts, -⟩ := decodeLanes_only u b.1
    exact ⟨hport, hlanes, hcounts, fun hclear => hread.trans (by rw [if_neg hclear]), fun hclear => hread.trans (by rw [if_pos hclear])⟩

end Sys2Proof.Machine
end

section
/-!
Firmware commands: the flash and its directory, activation, the nonce, and the subscription (R61 to R65, R68).
-/

namespace Sys2Proof.Machine
open Sys2Proof

/-! ### Bytes read back -/

/-- Bytes read from where they were written. -/
theorem memReadList_write {d : Byte} {m : List Host.Cell} (hwf : memWf d m = true) (a : Nat) (pre mid post : List Byte) :
    memReadList d (memWriteList d m a (pre ++ mid ++ post)) (a + pre.length) mid.length = mid := by
  have hlen : (memReadList d (memWriteList d m a (pre ++ mid ++ post)) (a + pre.length) mid.length).length = mid.length := by simp [memReadList]
  refine List.ext_getElem hlen fun i hi hi' => ?_
  have hat : a + pre.length + i - a = pre.length + i := by omega
  simp only [memReadList, List.getElem_map, List.getElem_range]
  rw [memRead_memWriteList hwf, if_pos (by simp only [List.length_append]; omega), hat, List.getD_eq_getElem?_getD, List.append_assoc,
    List.getElem?_append_right (by omega), Nat.add_sub_cancel_left, List.getElem?_append_left hi', List.getElem?_eq_getElem hi', Option.getD_some]

/-- Bytes that a write leaves as they were. -/
theorem memReadList_beside {d : Byte} {m : List Host.Cell} (hwf : memWf d m = true) {a b n : Nat} {l : List Byte} (hbeside : b + n ≤ a ∨ a + l.length ≤ b) :
    memReadList d (memWriteList d m a l) b n = memReadList d m b n := by
  unfold memReadList
  refine List.map_congr_left fun i hi => ?_
  have hi' := List.mem_range.1 hi
  rw [memRead_memWriteList hwf, if_neg (by omega)]

theorem leNat_leBytes (w : Word) : leNat (leBytes w) = w.toNat := by
  have hlt : w.toNat < 2 ^ 32 := w.isLt
  have hbytes : leBytes w = [BitVec.ofNat 8 w.toNat, BitVec.ofNat 8 (w.toNat >>> 8), BitVec.ofNat 8 (w.toNat >>> 16), BitVec.ofNat 8 (w.toNat >>> 24)] := rfl
  have hnil : leNat [] = 0 := rfl
  rw [hbytes]
  simp only [leNat_cons, BitVec.toNat_ofNat, Nat.shiftRight_eq_div_pow, hnil]
  omega

theorem w32_toNat_of_lt {n : Nat} (hn : n < 2 ^ 32) : (w32 n).toNat = n := by
  rw [w32, BitVec.toNat_ofNat, Nat.mod_eq_of_lt hn]

theorem foldl_preserves {α β : Type} {P : β → Prop} {f : β → α → β} (hf : ∀ b a, P b → P (f b a)) (l : List α) {b : β} (hb : P b) : P (l.foldl f b) := by
  induction l generalizing b with
  | nil => exact hb
  | cons a l ih => exact ih (hf b a hb)

theorem crc32_lt (l : List Byte) : crc32 l < 2 ^ 32 := by
  have hbit : ∀ (c _i : Nat), c < 2 ^ 32 → (if c % 2 = 1 then (c / 2) ^^^ 0xEDB88320 else c / 2) < 2 ^ 32 := by
    intro c _ hc
    have hhalf : c / 2 < 2 ^ 32 := lt_of_le_of_lt (Nat.div_le_self c 2) hc
    split
    · exact Nat.xor_lt_two_pow hhalf (by decide)
    · exact hhalf
  have hbyte : ∀ (c : Nat) (b : Byte), c < 2 ^ 32 → crc32Byte c b < 2 ^ 32 := by
    intro c b hc
    exact foldl_preserves (P := (· < 2 ^ 32)) hbit _ (Nat.xor_lt_two_pow hc (lt_trans b.isLt (by decide)))
  exact Nat.xor_lt_two_pow (foldl_preserves (P := (· < 2 ^ 32)) hbyte l (by decide)) (by decide)

/-! ### The flash directory -/

/-- The hardware with a directory copy written: a body, and its check code. -/
def Hw.putDir (h : Hw) (copy : Nat) (body : List Byte) : Hw :=
  h.modCtl (fun c => { c with flash := memWriteList flashByte c.flash (copy * 0x1000) (body ++ leBytes (w32 (crc32 body))) })

theorem putDir_flash (h : Hw) (copy : Nat) (body : List Byte) :
    (h.putDir copy body).ctl.flash = memWriteList flashByte h.ctl.flash (copy * 0x1000) (body ++ leBytes (w32 (crc32 body))) := rfl

theorem leBytes_length (w : Word) : (leBytes w).length = 4 := rfl

section
variable {h : Hw} (hwf : memWf flashByte h.ctl.flash = true) (copy : Nat) {body : List Byte}
include hwf

theorem putDir_ok (hlen : body.length = 0xFFC) : (h.putDir copy body).dirOk copy = true := by
  have hbody := memReadList_write hwf (copy * 0x1000) [] body (leBytes (w32 (crc32 body)))
  have hcode := memReadList_write hwf (copy * 0x1000) body (leBytes (w32 (crc32 body))) []
  rw [List.length_nil, Nat.add_zero, List.nil_append, hlen, ← putDir_flash] at hbody
  rw [List.append_nil, leBytes_length, hlen, ← putDir_flash] at hcode
  rw [Hw.dirOk, Hw.dirBytes, Hw.dirWord, hbody, hcode, leNat_leBytes, w32_toNat_of_lt (crc32_lt _), decide_eq_true rfl]

/-- A word of the body as the directory has it. -/
theorem putDir_word {pre post : List Byte} {w : Word} (hbody : body = pre ++ leBytes w ++ post) : (h.putDir copy body).dirWord copy pre.length = w.toNat := by
  have hread := memReadList_write hwf (copy * 0x1000) pre (leBytes w) (post ++ leBytes (w32 (crc32 body)))
  rw [← List.append_assoc, ← hbody, leBytes_length, ← putDir_flash] at hread
  rw [Hw.dirWord, hread, leNat_leBytes]

/-- What is read outside the copy written is as it was. -/
theorem putDir_beside (hlen : body.length = 0xFFC) {b n : Nat} (hbeside : b + n ≤ copy * 0x1000 ∨ copy * 0x1000 + 0x1000 ≤ b) :
    memReadList flashByte (h.putDir copy body).ctl.flash b n = memReadList flashByte h.ctl.flash b n := by
  rw [putDir_flash]
  refine memReadList_beside hwf ?_
  rw [List.length_append, leBytes_length, hlen]
  exact hbeside

end

/-- A body that firmware writes: the sequence number, the slot, and the rest. -/
def DirBody (seq slot : Nat) (body : List Byte) : Prop := body.length = 0xFFC ∧ ∃ rest, body = leBytes (w32 seq) ++ leBytes (w32 slot) ++ rest

theorem dirBody_fill (seq slot : Nat) (ids : Word) : DirBody seq slot (leBytes (w32 seq) ++ leBytes (w32 slot) ++ leBytes ids ++ List.replicate (0xFFC - 12) flashByte) := by
  refine ⟨?_, leBytes ids ++ List.replicate (0xFFC - 12) flashByte, by rw [List.append_assoc _ (leBytes ids)]⟩
  simp only [List.length_append, leBytes_length, List.length_replicate]

/-- Of two copies the correct one; of two correct ones copy 1 where its sequence x is below y. -/
def newerCopy (a b : Bool) (x y : Nat) : Option Nat := if a then some (if b && decide (x < y) then 1 else 0) else if b then some 1 else none

theorem dirCopy_eq (h : Hw) : h.dirCopy = newerCopy (h.dirOk 0) (h.dirOk 1) (h.dirWord 0 0) (h.dirWord 1 0) := by
  -- The definition is opened as a function: of `h.dirCopy` the kernel would compute the check codes.
  obtain ⟨f, hf⟩ : ∃ f, f = Hw.dirCopy := ⟨_, rfl⟩
  rw [← hf]
  delta Hw.dirCopy at hf
  rw [hf]
  beta_reduce
  generalize h.dirOk 0 = a, h.dirOk 1 = b, h.dirWord 0 0 = x, h.dirWord 1 0 = y
  cases a
  · cases b <;> rfl
  · cases b
    · rfl
    · simp only [newerCopy, if_true, Bool.true_and, decide_eq_true_eq]

/-- The copy in use: correct, and of two correct ones the one with the higher sequence. -/
theorem dirCopy_of_newer {h : Hw} {copy : Nat} (hcopy : copy < 2) (hok : h.dirOk copy = true)
    (hnewer : h.dirOk (1 - copy) = true → h.dirWord (1 - copy) 0 < h.dirWord copy 0) : h.dirCopy = some copy := by
  rw [dirCopy_eq]
  obtain rfl | rfl : copy = 0 ∨ copy = 1 := by omega
  · rw [Nat.sub_zero] at hnewer
    generalize h.dirOk 0 = a, h.dirOk 1 = b at *
    cases b
    · simp [newerCopy, hok]
    · simp [newerCopy, hok, Nat.le_of_lt (hnewer rfl)]
  · rw [Nat.sub_self] at hnewer
    generalize h.dirOk 0 = a, h.dirOk 1 = b at *
    cases a
    · simp [newerCopy, hok]
    · simp [newerCopy, hok, hnewer rfl]

theorem dirCopy_lt {h : Hw} {k : Nat} (hk : h.dirCopy = some k) : k < 2 := by
  rw [dirCopy_eq] at hk
  generalize h.dirOk 0 = a, h.dirOk 1 = b at hk
  cases a
  · cases b
    · cases hk
    · cases hk
      decide
  · obtain rfl := Option.some.inj hk
    split <;> decide

theorem dirCopy_none {h : Hw} (hk : h.dirCopy = none) : h.dirOk 1 = false := by
  rw [dirCopy_eq] at hk
  generalize h.dirOk 0 = a, h.dirOk 1 = b at hk ⊢
  cases a
  · cases b
    · rfl
    · cases hk
  · cases hk

/-- Writing the directory changes the flash alone. -/
theorem writeDir_flash (h : Hw) (slot : Nat) : ∃ f : List Host.Cell → List Host.Cell, h.writeDir slot = h.modCtl (fun c => { c with flash := f c.flash }) := by
  rw [Hw.writeDir]
  generalize h.dirCopy.elim 0 (fun c => 1 - c) * 0x1000 = a
  generalize hbody : leBytes (w32 _) ++ _ ++ _ ++ _ = body
  exact ⟨fun m => memWriteList flashByte m a (body ++ leBytes (w32 (crc32 body))), rfl⟩

/-- Firmware writes the copy not in use, one above the sequence of the one in use. -/
theorem writeDir_puts {h : Hw} (hwf : memWf flashByte h.ctl.flash = true) (hseq : ∀ k, h.dirCopy = some k → h.dirWord k 0 + 1 < 2 ^ 32) (slot : Nat) :
    ∃ copy seq body, copy < 2 ∧ DirBody seq slot body ∧ h.writeDir slot = h.putDir copy body ∧ (h.writeDir slot).dirCopy = some copy := by
  cases hk : h.dirCopy with
  | none =>
    obtain ⟨body, hbody, hput⟩ : ∃ body, DirBody 1 slot body ∧ h.writeDir slot = h.putDir 0 body := ⟨_, dirBody_fill 1 slot Config.subsystem, by rw [Hw.writeDir, hk]; rfl⟩
    have hbytes := putDir_beside hwf 0 hbody.1 (b := 1 * 0x1000) (n := 0xFFC) (.inr (by omega))
    have hword := putDir_beside hwf 0 hbody.1 (b := 1 * 0x1000 + 0xFFC) (n := 4) (.inr (by omega))
    have hother : (h.putDir 0 body).dirOk 1 = h.dirOk 1 := by rw [Hw.dirOk, Hw.dirBytes, Hw.dirWord, hbytes, hword, Hw.dirOk, Hw.dirBytes, Hw.dirWord]
    refine ⟨0, 1, body, by omega, hbody, hput, ?_⟩
    rw [hput]
    refine dirCopy_of_newer (by omega) (putDir_ok hwf 0 hbody.1) fun hok => ?_
    rw [Nat.sub_zero, hother, dirCopy_none hk] at hok
    cases hok
  | some k =>
    have hlt := dirCopy_lt hk
    have hmod : (h.dirWord k 0 + 1) % 2 ^ 32 = h.dirWord k 0 + 1 := Nat.mod_eq_of_lt (hseq k hk)
    obtain ⟨body, hbody, hput⟩ : ∃ body, DirBody (h.dirWord k 0 + 1) slot body ∧ h.writeDir slot = h.putDir (1 - k) body := by
      refine ⟨_, dirBody_fill _ slot (w32 (h.dirWord k 8)), ?_⟩
      simp only [Hw.writeDir, hk, Option.elim_some, hmod, Hw.putDir]
    have hback : 1 - (1 - k) = k := by omega
    refine ⟨1 - k, _, body, by omega, hbody, hput, ?_⟩
    rw [hput]
    refine dirCopy_of_newer (by omega) (putDir_ok hwf _ hbody.1) fun _ => ?_
    have hkeep := putDir_beside hwf (1 - k) hbody.1 (b := k * 0x1000 + 0) (n := 4) (by omega)
    obtain ⟨rest, hrest⟩ := hbody.2
    have hnew := putDir_word hwf (1 - k) (pre := []) (w := w32 (h.dirWord k 0 + 1)) (post := leBytes (w32 slot) ++ rest) (hrest.trans (List.append_assoc _ _ _))
    rw [List.length_nil, w32_toNat_of_lt (hseq k hk)] at hnew
    rw [hback, hnew, Hw.dirWord, hkeep]
    exact Nat.lt_succ_self _

/-- After firmware has written the directory it names the slot, and the flash above the directory is as it was. -/
theorem writeDir_slot {h : Hw} (hwf : memWf flashByte h.ctl.flash = true) (hseq : ∀ k, h.dirCopy = some k → h.dirWord k 0 + 1 < 2 ^ 32) {slot : Nat} (hslot : slot < 2) :
    (h.writeDir slot).bootSlot = slot ∧ ∀ a, 0x2000 ≤ a → memRead flashByte (h.writeDir slot).ctl.flash a = memRead flashByte h.ctl.flash a := by
  obtain ⟨copy, seq, body, hcopy, ⟨hlen, rest, hrest⟩, hput, hcopyIs⟩ := writeDir_puts hwf hseq slot
  refine ⟨?_, fun a ha => ?_⟩
  · have hword := putDir_word hwf copy hrest
    rw [leBytes_length, w32_toNat_of_lt (by omega)] at hword
    rw [Hw.bootSlot, hcopyIs, Option.elim_some, hput, hword, Nat.mod_eq_of_lt hslot]
  · have hbeside := putDir_beside hwf copy hlen (b := a) (n := 1) (.inr (by omega))
    rw [hput]
    exact List.head_eq_of_cons_eq hbeside

/-! ### The commands -/

section
variable {s : State} {c : Nat} {r : Request}

theorem fld_one_lt (p : List Word) (i : Nat) : fld p i 0 0 < 2 := bits_lt _ _ _

/-- FW_FLASH_WRITE of a host channel into the slot not running. -/
theorem execFwFlashWrite_asks (hc : c < 16) (ha : s.hw.Asks c 0x0E01 r) (hhost : c < 12) (hlen : wnat r.payload 2 ≠ 0) (hslot : fld r.payload 0 0 0 ≠ s.hw.ctl.runningSlot)
    (hfits : wnat r.payload 2 ≤ 2 ^ 24) :
    let h' := s.hw.modCtl (fun k => { k with
      flash := memWriteList flashByte k.flash (slotBase (fld r.payload 0 0 0) + 0) (memReadList 0 k.bulk (wnat r.payload 1) (wnat r.payload 2)),
      slotWritten := k.slotWritten.set (fld r.payload 0 0 0) true })
    execFwFlashWrite c s = .next (s.withHw (h'.answered c r stOk 0 [w32 (h'.imageCheck s.fuses (fld r.payload 0 0 0))])) := by
  intro h'
  have hinline : decide (12 ≤ c) = false := decide_eq_false (by omega)
  have hchecks : firstFail [failIf (decide (wnat r.payload 2 = 0)) (bad 8), failIf (decide (fld r.payload 0 0 0 = s.hw.ctl.runningSlot)) (bad 0),
      failIf (decide (0x1000000 < 0 + wnat r.payload 2)) (bad 8)] = none := by
    rw [decide_eq_false hlen, decide_eq_false hslot, decide_eq_false (by omega)]
    rfl
  refine answer_changed hc ha ?_ rfl
  dsimp only
  simp only [hinline, Bool.false_eq_true, if_false]
  rw [hchecks]
  rfl

/-- FW_BOOT_SLOT_SET of a slot whose image passes. -/
theorem execFwBootSlotSet_asks (hc : c < 16) (ha : s.hw.Asks c 0x0E02 r) (hok : s.hw.imageCheck s.fuses (fld r.payload 0 0 0) = 0) :
    execFwBootSlotSet c s = .next (s.withHw ((s.hw.writeDir (fld r.payload 0 0 0)).answered c r stOk 0 [])) := by
  obtain ⟨f, hf⟩ := writeDir_flash s.hw (fld r.payload 0 0 0)
  exact answer_changed hc ha (by dsimp only; rw [if_neg (not_not.2 hok)]) (by rw [hf]; rfl)

/-- FW_HITLESS_ACTIVATE of an image that fits and passes. -/
theorem execFwHitlessActivate_asks (hc : c < 16) (ha : s.hw.Asks c 0x0E03 r) (hmin : (s.hw.imageFacts (fld r.payload 0 0 0)).2.2.2 ≤ s.hw.ctl.handoverVer)
    (hver : s.hw.ctl.handoverMin ≤ (s.hw.imageFacts (fld r.payload 0 0 0)).2.2.1) (hok : s.hw.imageCheck s.fuses (fld r.payload 0 0 0) = 0) :
    ∃ a, a.slot = fld r.payload 0 0 0 ∧ a.ch = c ∧ a.atTick = none ∧
      execFwHitlessActivate c s = .next (s.withHw ((s.hw.modCtl (fun k => { k with activation := some a, standbyReady := false })).modChan c (fun x => {
        x with cur := x.cur.map (fun r => { r with waiting := false }) }))) := by
  have hfits : ¬ (s.hw.ctl.handoverVer < (s.hw.imageFacts (fld r.payload 0 0 0)).2.2.2 ∨ (s.hw.imageFacts (fld r.payload 0 0 0)).2.2.1 < s.hw.ctl.handoverMin) := by omega
  rw [execFwHitlessActivate, atUnit_in hc, onHw_next, withRequest_asks ha]
  dsimp only
  rw [if_neg hfits]
  exact ⟨_, rfl, rfl, rfl, congrArg (fun h => Host.Outcome.next (s.withHw h)) (if_neg (not_not.2 hok))⟩

end

/-- Settles O29. -/
theorem firmwareCommands : Obligations.FirmwareCommands := by
  unfold Obligations.FirmwareCommands
  intro s c r hc h p ends
  refine ⟨fun ha hsub => answer_changed hc ha (if_neg hsub) rfl, fun ha hhost hlen hslot hfits hwf => ?_, fun ha hok hwf hseq => ?_, fun ha hbad => ?_, fun ha => ?_, fun ha => ?_⟩
  · intro base
    have hbase : slotBase (fld p 0 0 0) + 0 = base := by
      rw [slotBase, Nat.mod_eq_of_lt (fld_one_lt p 0)]
      exact Nat.add_zero _
    have hwf : memWf flashByte h.ctl.flash = true := hwf
    have hdata : (memReadList 0 h.ctl.bulk (wnat p 1) (wnat p 2)).length = wnat p 2 := by simp [memReadList]
    have hwrite := execFwFlashWrite_asks hc ha hhost hlen hslot hfits
    refine ⟨memWriteList flashByte h.ctl.flash (slotBase (fld p 0 0 0) + 0) (memReadList 0 h.ctl.bulk (wnat p 1) (wnat p 2)), fun a => ?_, hwrite⟩
    change memRead flashByte _ a = if _ then _ else memRead flashByte h.ctl.flash a
    rw [hbase, memRead_memWriteList hwf, hdata]
    split
    · rename_i hin
      rw [memReadList, List.getD_eq_getElem?_getD, List.getElem?_map, List.getElem?_range (by omega)]
      rfl
    · rfl
  · obtain ⟨hboot, hflash⟩ := writeDir_slot hwf hseq (fld_one_lt p 0)
    obtain ⟨f, hf⟩ := writeDir_flash h (fld p 0 0 0)
    exact ⟨_, execFwBootSlotSet_asks hc ha hok, hboot, by rw [hf]; rfl, hflash⟩
  · exact answer_unchanged hc ha (if_pos hbad)
  · intro slot facts hmin hver hok
    obtain ⟨a, haslot, hach, haat, hexec⟩ := execFwHitlessActivate_asks hc ha hmin hver hok
    refine ⟨_, a, hexec, rfl, haslot, hach, haat, rfl, rfl, rfl, ?_⟩
    rw [chan_modChan]
    rfl
  · exact ⟨natBytes 16 (h.random 128).2, by simp [natBytes], answer_changed hc ha rfl rfl⟩

end Sys2Proof.Machine
end

section
/-!
The life-cycle transition, and the firmware handover (R63 to R70).
-/

namespace Sys2Proof.Machine
open Sys2Proof

/-! ### What an event, a response and an accepted request change of the control part -/

theorem tellSubscriber_eq (k : Ctl) (e : Event) : ∃ out ibi, k.tellSubscriber e = { k with mctpOut := out, i3cIbi := ibi } := by
  unfold Ctl.tellSubscriber
  split <;> exact ⟨_, _, rfl⟩

/-- An event changes the events raised, their count, and the messages to the subscriber. -/
theorem raise_ctl (h : Hw) (code : Nat) (data : List Word) : ∃ raised count out ibi,
    (h.raise code data).ctl = { h.ctl with raised := raised, eventCount := count, mctpOut := out, i3cIbi := ibi } := by
  unfold Hw.raise
  split
  · obtain ⟨out, ibi, htell⟩ := tellSubscriber_eq h.ctl { code := code, seq := h.ctl.eventCount, tick := h.time.tick, data := (data ++ [0, 0, 0, 0, 0]).take 5 }
    simp only [Ctl.raise, htell]
    exact ⟨_, _, _, _, rfl⟩
  · exact ⟨_, _, _, _, rfl⟩

theorem chan_raise (h : Hw) (code : Nat) (data : List Word) (c : Nat) : (h.raise code data).chan c = h.chan c := by
  obtain ⟨_, _, _, _, hctl⟩ := raise_ctl h code data
  rw [Hw.chan, hctl]
  rfl

/-- A request taken into execution changes its channel alone. -/
theorem accept_modChan (fz : Fuses) (h : Hw) (c : Nat) (r : Request) : ∃ f, h.accept fz c r = h.modChan c f := by
  unfold Hw.accept
  simp only [Hw.reply, modChan_modChan]
  split
  · exact ⟨_, rfl⟩
  · split <;> exact ⟨_, rfl⟩

/-- Requests latched are taken into execution: a channel whose request is not latched is as it was, and of the control part only channels change. -/
theorem runLatched_keeps (fz : Fuses) (h : Hw) : ∃ chans, h.runLatched fz = { h with ctl := { h.ctl with chans := chans } } ∧
    ∀ c, (∀ r, (h.chan c).cur = some r → r.latched = false) → (h.runLatched fz).chan c = h.chan c := by
  unfold Hw.runLatched
  generalize List.range 16 = cs
  induction cs generalizing h with
  | nil => exact ⟨h.ctl.chans, rfl, fun _ _ => rfl⟩
  | cons c cs ih =>
    rw [List.foldl_cons]
    split
    · rename_i r hr
      split
      · rename_i hlatched
        obtain ⟨f, hf⟩ := accept_modChan fz h c { r with latched := false }
        obtain ⟨chans, hchans, hkeep⟩ := ih (h.modChan c f)
        rw [hf]
        refine ⟨chans, hchans, fun d hd => ?_⟩
        have hne : d ≠ c := by
          rintro rfl
          rw [hd r hr] at hlatched
          cases hlatched
        have hsame := chan_modChan_ne h f hne
        rw [hkeep d (by rw [hsame]; exact hd), hsame]
      · exact ih h
    · exact ih h

/-! ### The life-cycle transition -/

section
variable {s : State} {c : Nat} {r : Request}

/-- Settles O30. -/
theorem lifeCycleTransition : Obligations.LifeCycleTransition := by
  unfold Obligations.LifeCycleTransition
  intro s c r hc ha p bytes hash
  refine ⟨fun target nonce hcode hallowed hhash hnonce hsigned => ?_, fun target hcode hallowed => ?_⟩
  · have hzero : ((decide (s.fuses.lc = .provisioned) && decide (hash = List.replicate 48 0)) ||
        (decide (s.fuses.lc ≠ .provisioned) && decide (¬ decide (hash = List.replicate 48 0) = true))) = false := by
      by_cases hlc : s.fuses.lc = .provisioned
      · rw [decide_eq_false (hhash.1 hlc), Bool.and_false, decide_eq_false (not_not.2 hlc), Bool.false_and, Bool.or_false]
      · rw [decide_eq_false hlc, Bool.false_and, Bool.false_or, decide_eq_true (not_not.1 (fun hne => hlc (hhash.2 hne)))]
        exact Bool.and_false _
    refine answer_changed (f := fun fz h p => _) hc ha ?_ rfl
    dsimp only
    rw [hcode]
    dsimp only
    rw [if_neg (by rw [hallowed]; decide), if_neg (by rw [hzero]; decide), hnonce]
    exact if_neg (not_not.2 hsigned)
  · refine answer_unchanged (f := fun fz h p => _) hc ha ?_
    dsimp only
    rw [hcode]
    exact if_pos (by rw [hallowed]; decide)

end

/-! ### The handover -/

/-- What runs and which processor runs it: the fields of the control part that a handover sets. -/
def Ctl.Runs (k : Ctl) (mp slot version : Nat) : Prop :=
  k.activeMp = mp ∧ k.phase = .running ∧ k.activation = none ∧ k.standbyReady = false ∧ k.runningSlot = slot ∧ k.fwVersion = version

/-- The hardware with the processors' roles changed and the slot's image what runs. -/
def Hw.takenOver (h : Hw) (a : Activation) : Hw :=
  (h.modCtl (fun c => { c with activeMp := 1 - c.activeMp, phase := .running, standbyReady := false, activation := none })).runImage a.slot

/-- The hardware at its handover, before it is told and the latched requests run. -/
def Hw.handedOver (h : Hw) (a : Activation) (t : Nat) : Hw := (h.takenOver a).reply a.ch stOk 0 (le64 t)

theorem takenOver_chan (h : Hw) (a : Activation) (c : Nat) : (h.takenOver a).chan c = h.chan c := rfl

theorem handedOver_runs (h : Hw) (a : Activation) (t : Nat) : (h.handedOver a t).ctl.Runs (1 - h.ctl.activeMp) a.slot (h.imageFacts a.slot).1 :=
  ⟨rfl, rfl, rfl, rfl, rfl, rfl⟩

/-- The response of a channel whose request is r. -/
theorem chan_reply {h : Hw} {c : Nat} {r : Request} (hr : (h.chan c).cur = some r) (st d : Nat) (out : List Word) :
    ((h.reply c st d out).chan c).cur = some { r with waiting := false } ∧ ((h.reply c st d out).chan c).reply = some (response r st d out) := by
  rw [reply_eq hr, Hw.answered, chan_modChan]
  exact ⟨rfl, rfl⟩

/-- The handover: the hardware handed over, told of, its directory rewritten, and the latched requests taken up. -/
theorem execFwHandover_due {s : State} {a : Activation} {t : Nat} (hact : s.hw.ctl.activation = some a) (hat : a.atTick = some t) (hphase : s.hw.ctl.phase = .handover)
    (htick : t ≤ s.hw.time.tick) : ∃ data, execFwHandover s = .next (s.withHw ((((s.hw.handedOver a t).raise 0x0E01 data).writeDir a.slot).runLatched s.fuses)) := by
  have hnow : ¬ (s.hw.ctl.phase ≠ .handover ∨ s.hw.time.tick < t) := by rw [hphase]; simp [htick]
  rw [execFwHandover, onHw_next, hact]
  dsimp only
  rw [hat]
  dsimp only
  rw [if_neg hnow]
  exact ⟨_, rfl⟩

/-- The activation that is under way fails. -/
theorem activationFails_of {h : Hw} {a : Activation} (hact : h.ctl.activation = some a) (st d cause : Nat) : ∃ data,
    h.activationFails st d cause = ((h.modCtl (fun c => { c with activation := none, standbyReady := false })).reply a.ch st d).raise 0x0E02 data := by
  rw [Hw.activationFails, hact]
  exact ⟨_, rfl⟩

/-- Settles O32. -/
theorem firmwareHandover : Obligations.FirmwareHandover := by
  unfold Obligations.FirmwareHandover
  intro s a hact k
  refine ⟨fun hphase hfenced hmp hmirror hat hdue => ?_, fun t hat hphase htick => ?_, fun hat htime => ?_⟩
  · have hready : ¬ ((k.phase ≠ .running ∧ k.phase ≠ .handover) ∨ k.mirror.isNone = true ∨ s.hw.isFenced (unitNo 11 (1 - k.activeMp)) = true ∨ s.hw.faults.mpLost = true) := by
      rw [hfenced, hmp, Option.isNone_eq_false_iff.2 hmirror]
      rcases hphase with hphase | hphase <;> simp [hphase]
    have hfree : ¬ k.chans.any (fun e => e.2.due.any (fun d => decide (d.tick = max a.target (s.hw.time.tick + 2)))) = true := by
      intro hany
      obtain ⟨e, he, hset⟩ := List.any_eq_true.1 hany
      cases hd : e.2.due with
      | none => rw [hd] at hset; cases hset
      | some d => rw [hd] at hset; exact hdue e he d hd (of_decide_eq_true hset)
    rw [exec_standbyReadySet, execStandbyReadySet, onHw_next]
    dsimp only
    rw [if_neg hready]
    dsimp only [modCtl_ctl]
    rw [hact]
    dsimp only
    rw [hat, if_neg (by decide)]
    exact congrArg (fun h => Host.Outcome.next (s.withHw h)) (if_neg hfree)
  · obtain ⟨data, hexec⟩ := execFwHandover_due hact hat hphase htick
    obtain ⟨f, hdir⟩ := writeDir_flash ((s.hw.handedOver a t).raise 0x0E01 data) a.slot
    obtain ⟨raised, count, out, ibi, hraise⟩ := raise_ctl (s.hw.handedOver a t) 0x0E01 data
    obtain ⟨chans, hlatched, hkeep⟩ := runLatched_keeps s.fuses (((s.hw.handedOver a t).raise 0x0E01 data).writeDir a.slot)
    have hchan : (((s.hw.handedOver a t).raise 0x0E01 data).writeDir a.slot).chan a.ch = (s.hw.handedOver a t).chan a.ch := by
      rw [hdir, ← chan_raise (s.hw.handedOver a t) 0x0E01 data]
      rfl
    have hruns : ((((s.hw.handedOver a t).raise 0x0E01 data).writeDir a.slot).runLatched s.fuses).ctl.Runs (1 - k.activeMp) a.slot (s.hw.imageFacts a.slot).1 := by
      rw [hlatched, hdir, modCtl_ctl, hraise]
      exact handedOver_runs s.hw a t
    obtain ⟨hmp, hrun, hnone, hready, hslot, hversion⟩ := hruns
    refine ⟨_, hexec, hmp, hrun, hnone, hready, hslot, hversion, fun r hr hfresh => ?_⟩
    obtain ⟨hcur, hreply⟩ : ((s.hw.handedOver a t).chan a.ch).cur = some { r with waiting := false } ∧ ((s.hw.handedOver a t).chan a.ch).reply = some (response r stOk 0 (le64 t)) :=
      chan_reply ((congrArg Chan.cur (takenOver_chan s.hw a a.ch)).trans hr) stOk 0 (le64 t)
    rw [hkeep a.ch (by rw [hchan, hcur]; rintro r' hr'; cases hr'; exact hfresh), hchan, hreply]
  · have hdue : ¬ (a.atTick.isSome = true ∨ s.hw.time.base < a.started + 64000) := by rw [hat]; simp [htime]
    obtain ⟨detail, hexec⟩ : ∃ data, execFwActivateTimeout s = .next (s.withHw ((((s.hw.report 0xE02 0 (unitNo 11 k.activeMp)).modCtl (fun c => {
        c with activation := none, standbyReady := false })).reply a.ch 0x00FF 0xE02).raise 0x0E02 data)) := by
      rw [execFwActivateTimeout, onHw_next, hact]
      dsimp only
      rw [if_neg hdue, Hw.activationInternal, hact]
      obtain ⟨data, hfails⟩ := activationFails_of (h := s.hw.report 0xE02 0 (unitNo 11 k.activeMp)) hact 0x00FF 0xE02 2
      exact ⟨data, congrArg (fun h => Host.Outcome.next (s.withHw h)) hfails⟩
    obtain ⟨raised, count, out, ibi, hraise⟩ := raise_ctl (((s.hw.report 0xE02 0 (unitNo 11 k.activeMp)).modCtl (fun c => {
        c with activation := none, standbyReady := false })).reply a.ch 0x00FF 0xE02) 0x0E02 detail
    refine ⟨_, hexec, by rw [hraise]; rfl, by rw [hraise]; rfl, by rw [hraise]; rfl, fun r hr => ?_⟩
    rw [chan_raise]
    exact (chan_reply (h := (s.hw.report 0xE02 0 (unitNo 11 k.activeMp)).modCtl (fun c => { c with activation := none, standbyReady := false })) hr 0x00FF 0xE02 []).2

end Sys2Proof.Machine
end

section
/-!
The events of the time base, and tick markers (R75 to R78, R86, R88, R107).
-/

namespace Sys2Proof.Machine
open Sys2Proof

/-! ### Occurrences of class C0, and measured offsets -/

/-- An occurrence of class C0 changes the collector alone. -/
theorem report_c0 (h : Hw) (s unit action : Nat) (data : List Word) (forced notify : Bool) :
    ∃ f, h.report s 0 unit action data forced notify = { h with faults := f } ∧ (f.src s).c0Occ = (h.faults.src s).c0Occ + 1 := by
  refine ⟨_, rfl, ?_⟩
  simp only [Hw.modFaults, Faults.src, Faults.modSrc, tmod, tput_tput, tget_tput]

theorem report_c0Occ (h : Hw) (s unit action : Nat) (data : List Word) (forced notify : Bool) :
    ((h.report s 0 unit action data forced notify).faults.src s).c0Occ = (h.faults.src s).c0Occ + 1 := by
  obtain ⟨f, hf, hcount⟩ := report_c0 h s unit action data forced notify
  rw [hf]
  exact hcount

theorem port_report (h : Hw) (s cls unit action : Nat) (data : List Word) (forced notify : Bool) (p : Nat) :
    (h.report s cls unit action data forced notify).port p = h.port p := by
  rw [Hw.port, report_ports]
  rfl

/-- A measured offset is kept; beside the time base it can only tell of the lock. -/
theorem measure_keeps (h : Hw) (off : Int) (count : Option Nat) :
    (h.measure off count).time.offsetPs = off ∧ (h.measure off count).time.tickInGot = h.time.tickInGot ∧ (h.measure off count).ports = h.ports := by
  unfold Hw.measure
  dsimp only
  split
  · exact ⟨rfl, rfl, rfl⟩
  · split <;> exact ⟨rfl, rfl, rfl⟩

theorem port_measure (h : Hw) (off : Int) (count : Option Nat) (p : Nat) : (h.measure off count).port p = h.port p := by
  rw [Hw.port, (measure_keeps h off count).2.2]
  rfl

theorem port_modTime (h : Hw) (f : TimeSt → TimeSt) (p : Nat) : (h.modTime f).port p = h.port p := rfl

theorem link_modLink (h : Hw) (p : Nat) (f : Link → Link) : ((h.modLink p f).port p).link = f (h.port p).link := congrArg Port.link (port_modPort h p _)

/-- Another source becomes the active one. -/
theorem setSource_keeps (h : Hw) (i : Nat) : (h.setSource i).time.active = i ∧ (h.setSource i).time.tick = h.time.tick ∧ (i = 0xF → (h.setSource i).time.lockState = 3) ∧
    (h.setSource i).faults = h.faults ∧ (h.eventsOn = true → (h.setSource i).ctl.raised.getLast?.map (·.code) = some 0x0102) :=
  ⟨rfl, rfl, fun hi => if_pos hi, rfl, fun hon => raise_last _ _ _ hon⟩

/-! ### The events -/

section
variable {s : State}

theorem execTickInEdge_powered {phase : Int} (hpow : s.hw.powered = true) : execTickInEdge phase s = .next (s.withHw (if s.hw.time.isActive 2 0 then
    (s.hw.modTime (fun t => { t with tickInGot := true })).measure phase none else s.hw.modTime (fun t => { t with tickInGot := true }))) := by
  rw [execTickInEdge, onHw_next, if_neg (not_not.2 hpow)]
  rfl

theorem execTickSourceLost_lost {src : TickSource} (hsrc : s.hw.time.sources[s.hw.time.active]? = some src) (hlost : s.hw.sourceUsable src = false) :
    execTickSourceLost s = .next (s.withHw ((s.hw.report 0x102 0 (unitNo 15 18)).setSource s.hw.firstSource)) := by
  rw [execTickSourceLost, onHw_next, hsrc]
  dsimp only
  rw [if_neg (by rw [hlost]; decide)]

theorem execTickAlignLost_lost (hmis : 16 ≤ s.hw.time.misaligned) : execTickAlignLost s = .next (s.withHw ((s.hw.modTime (fun t => {
    t with misaligned := 0, lockState := if t.lockState = 2 then 1 else t.lockState })).report 0x103 0 (unitNo 15 18))) := by
  rw [execTickAlignLost, onHw_next, if_neg (Nat.not_lt.2 hmis)]

end

/-! ### Markers -/

/-- What a marker in sequence leaves of the port it came to. -/
structure MarkerTaken (s : State) (p rx : Nat) (u : List Word) (k' : Link) : Prop where
  tick : k'.markerTick = some (wnat u 1)
  rx : k'.markerRx = ((((s.hw.time.tick : Int) - wnat u 1) * (8192 * s.hw.time.mult) + rx) % 2 ^ 32).toNat
  got : k'.markerGot = true
  miss : k'.markerMiss = 0
  run : k'.markerRun = min 4 ((s.hw.port p).link.markerRun + 1)
  audit : k'.auditSkip = false
  sent : k'.partnerSent = (if (s.hw.port p).glean.state = 3 ∧ (s.hw.port p).lanes.rxAsleep = false ∧ fld u 5 1 1 = 1
    then some (wnat u 1, (List.range 4).map (fun c => wnat u (6 + c))) else none)

section
variable {s : State} {p rx : Nat} {u : List Word} (hp : p < 264) (hlehr : s.hw.inLehr = false) (hup : (s.hw.port p).link.up = true)
include hp hlehr hup

/-- A marker whose check fails. -/
theorem execTickMarkerReceive_bad (hbad : ¬ (crc32 ((u.take 15).flatMap beBytes) = wnat u 15 ∧ fld u 0 21 16 ∈ tickMults)) :
    execTickMarkerReceive p u rx s = .next (s.withHw (((s.hw.modLink p (fun k => { k with rxMarker := none })).modTime (fun t => {
      t with markerErrors := sat32 (t.markerErrors + 1) })).report 0x106 0 (unitNo 14 p))) := by
  have hcheck : crc32 ((u.take 15).flatMap beBytes) ≠ wnat u 15 ∨ ¬ tickMults.contains (fld u 0 21 16) = true := by
    rw [List.contains_iff_mem]
    exact not_and_or.1 hbad
  rw [execTickMarkerReceive, atUnit_in hp, onHw_next, if_neg (by rw [hlehr, hup]; decide)]
  exact congrArg (fun h => Host.Outcome.next (s.withHw h)) (if_pos hcheck)

/-- A marker that passes its check, in sequence and of this part's multiplier. -/
theorem execTickMarkerReceive_good (hcrc : crc32 ((u.take 15).flatMap beBytes) = wnat u 15) (hmem : fld u 0 21 16 ∈ tickMults) (hmult : fld u 0 21 16 = s.hw.time.mult)
    (hseq : (s.hw.port p).link.inSequence (wnat u 1) = true) :
    ∃ h, execTickMarkerReceive p u rx s = .next (s.withHw h) ∧ MarkerTaken s p rx u (h.port p).link := by
  have hcheck : ¬ (crc32 ((u.take 15).flatMap beBytes) ≠ wnat u 15 ∨ ¬ tickMults.contains (fld u 0 21 16) = true) := by
    rw [List.contains_iff_mem]
    exact fun h => h.elim (fun h => h hcrc) (fun h => h hmem)
  rw [execTickMarkerReceive, atUnit_in hp, onHw_next, if_neg (by rw [hlehr, hup]; decide)]
  dsimp only
  rw [if_neg hcheck]
  have hlink : ∀ (h : Hw) (f : Link → Link), (h.modLink p f).port p = { h.port p with link := f (h.port p).link } := fun h f => port_modPort h p _
  generalize hh1 : s.hw.modLink p (fun k => { k with rxMarker := none }) = h1
  have htime : h1.time = s.hw.time := by rw [← hh1]; rfl
  have hport : h1.port p = { s.hw.port p with link := { (s.hw.port p).link with rxMarker := none } } := by rw [← hh1]; exact hlink _ _
  have hagrees : (decide (fld u 0 21 16 = h1.time.mult) && (s.hw.port p).link.inSequence (wnat u 1)) = true := by
    rw [htime, decide_eq_true hmult, Bool.true_and]
    exact hseq
  have hports : ∀ (q : Prop) [Decidable q] (h : Hw) (off : Int) (count : Option Nat), (if q then h else h.measure off count).port p = h.port p := by
    intro q _ h off count
    split
    · rfl
    · exact port_measure h off count p
  refine ⟨_, rfl, ?_⟩
  rw [hagrees, if_neg (by decide), hports, hlink, hport, htime]
  exact ⟨rfl, rfl, rfl, rfl, rfl, rfl, by simp [and_assoc]⟩

end

/-- Settles O34. -/
theorem timeBaseEventsAndMarkers : Obligations.TimeBaseEventsAndMarkers := by
  unfold Obligations.TimeBaseEventsAndMarkers
  refine ⟨fun s => ?_, fun s p rx u hp hlehr hup => ?_⟩
  · intro h t
    refine ⟨fun phase hpow => ⟨_, execTickInEdge_powered hpow, ?_, fun hact => if_neg (by rw [hact]; decide), fun hact => ?_⟩, fun src hsrc hlost => ?_,
      fun hmis => ⟨_, execTickAlignLost_lost hmis, rfl, rfl, report_c0Occ _ _ _ _ _ _ _⟩, fun hmis => ?_, fun p hp hmiss => ?_, fun x hx hrun htold => ?_⟩
    · split
      · exact (measure_keeps _ _ _).2.1
      · rfl
    · rw [if_pos hact]
      exact (measure_keeps _ _ _).1
    · obtain ⟨hactive, htick, hlock, hfaults, htells⟩ := setSource_keeps (s.hw.report 0x102 0 (unitNo 15 18)) s.hw.firstSource
      exact ⟨_, execTickSourceLost_lost hsrc hlost, hactive, htick, htells, hlock, (congrArg (fun f => (f.src 0x102).c0Occ) hfaults).trans (report_c0Occ _ _ _ _ _ _ _)⟩
    · rw [exec_tickAlignLost, execTickAlignLost, onHw_next, if_pos hmis]
      rfl
    · rw [exec_markerTimeout, execMarkerTimeout, atUnit_in hp, onHw_next, if_neg (Nat.not_lt.2 hmiss)]
    · rw [exec_frameOverrunPersistent, execFrameOverrunPersistent, atUnit_in hx, onHw_next]
      dsimp only
      rw [if_neg (fun hor => hor.elim (fun hlt => Nat.not_lt.2 hrun hlt) (fun ht => by rw [htold] at ht; cases ht))]
      rfl
  · intro k good
    refine ⟨fun hgood hmult hseq => ?_, fun hbad => ⟨_, execTickMarkerReceive_bad hp hlehr hup hbad, rfl, ?_, ?_, report_c0Occ _ _ _ _ _ _ _⟩⟩
    · obtain ⟨hcrc, hmem⟩ := hgood
      have hin : k.inSequence (wnat u 1) = true := by
        unfold Link.inSequence
        split
        · rename_i m hm
          exact decide_eq_true (hseq m hm)
        · rfl
      obtain ⟨h, hexec, htaken⟩ := execTickMarkerReceive_good hp hlehr hup (rx := rx) hcrc hmem hmult hin
      exact ⟨h, hexec, htaken.tick, htaken.rx, htaken.got, htaken.miss, htaken.run, htaken.audit, htaken.sent⟩
    · rw [port_report, port_modTime, link_modLink]
    · rw [port_report, port_modTime, link_modLink]

end Sys2Proof.Machine
end

section
/-!
Packets at their ingress port, and the forwarding lookup (R117 to R122).
-/

namespace Sys2Proof.Machine
open Sys2Proof

/-! ### Ingress checks (Table 5.1) -/

section
variable {h : Hw} {p : Nat} {k : Pkt}

theorem ingress_credit (hcredit : h.linkCheck p k = some 12) : h.ingress p k = (h.count p 12).freeCells p k.cls k.cells := if_pos hcredit

theorem ingress_full (hcredit : h.linkCheck p k ≠ some 12) (hfull : h.allocIngress p k = none) :
    h.ingress p k = (h.count p (if h.moveWindow p then 32 else 12)).freeCells p k.cls k.cells := by
  refine (if_neg hcredit).trans ?_
  rw [hfull]

/-- A packet with a buffer that passes the link check: the checks of the port, the job and the meter, and on. -/
theorem ingress_stored {h' : Hw} {b : Nat} (hstored : h.allocIngress p k = some (h', b)) :
    (∀ i, h.linkCheck p k ≠ some 12 → h.linkCheck p k = some i → h.ingress p k = h'.dropAt p (h.home p) b i) ∧
    (h.linkCheck p k = none → (h'.port p).glean.state = 4 → h.ingress p k = h'.dropAt p (h.home p) b 16) ∧
    (h.linkCheck p k = none → (h'.port p).glean.state ≠ 4 → h'.admits p k.job = false → h.ingress p k = h'.dropAt p (h.home p) b 17) ∧
    (h.linkCheck p k = none → (h'.port p).glean.state ≠ 4 → h'.admits p k.job = true →
      (∀ h'', h'.meterCheck p k = (h'', none) → h.ingress p k = h''.dropStored (h.home p) b (ingressOwner p)) ∧
      ∀ h'' k', h'.meterCheck p k = (h'', some k') →
        h.ingress p k = (h''.modBuf (h.home p) b (fun x => { x with pkt := k'.setEpoch h''.mesh.injEpoch })).ingressOn p (h.home p) b (k'.setEpoch h''.mesh.injEpoch)) := by
  have hcredit : h.linkCheck p k = none → h.linkCheck p k ≠ some 12 := fun hlink h12 => by rw [hlink] at h12; cases h12
  refine ⟨fun i hcredit hi => ?_, fun hlink hblind => ?_, fun hlink hblind hjob => ?_, fun hlink hblind hjob => ⟨fun h'' hmeter => ?_, fun h'' k' hmeter => ?_⟩⟩
  · refine (if_neg hcredit).trans ?_
    rw [hstored, hi]
  · refine (if_neg (hcredit hlink)).trans ?_
    rw [hstored, hlink]
    exact if_pos hblind
  · refine (if_neg (hcredit hlink)).trans ?_
    rw [hstored, hlink]
    exact (if_neg hblind).trans (if_pos (by rw [hjob]; decide))
  · refine (if_neg (hcredit hlink)).trans ?_
    rw [hstored, hlink]
    exact (if_neg hblind).trans ((if_neg (not_not.2 hjob)).trans (by rw [hmeter]))
  · refine (if_neg (hcredit hlink)).trans ?_
    rw [hstored, hlink]
    exact (if_neg hblind).trans ((if_neg (not_not.2 hjob)).trans (by rw [hmeter]; rfl))

end

/-- A packet stored at a port that is up. -/
theorem execPacketReceive_up {s : State} {p : Nat} {k : Pkt} (hp : p < 264) (hlehr : s.hw.inLehr = false) (hup : (s.hw.port p).link.up = true) :
    execPacketReceive p k s = .next (s.withHw (if k.ptype = 6 then (s.hw.arrive p k).recvParams p k else if k.ptype = 5 then (s.hw.arrive p k).recvGlean s.fuses.deviceUid p k
      else (s.hw.arrive p k).ingress p k)) := by
  rw [execPacketReceive, atUnit_in hp, onHw_next, if_neg (by rw [hlehr, hup]; decide)]

/-! ### The lookup (R121, R122) -/

section
variable {h : Hw} {e p : Nat} {k : Pkt}

/-- A packet of a hashed class takes the live member that the hash picks. -/
theorem nextHop_hashed (n : Nat) (hcls : 2 ≤ k.cls) :
    let set := tget ({} : NextHop) h.mesh.nexthop (e * 4096 + n)
    let live := set.members.filter (fun m => ! h.winnowed m)
    h.nextHop e p n k = (h, if live = [] then none else some (live.getD (flowMember k.job k.src (if k.mcast then k.sheaf else k.dst) set.seed live.length) 0)) := by
  intro set live
  have hlive : set.members.filter (fun m => decide (¬ h.winnowed m = true)) = live := List.filter_congr fun m _ => by cases h.winnowed m <;> rfl
  rw [Hw.nextHop]
  dsimp only
  rw [if_neg (by omega), hlive]
  split <;> rfl

/-- A sprayed packet takes a live member where there is one. -/
theorem sprayNext_live (members : List Nat) (live : Nat → Bool) (last : Nat) :
    (members.filter live = [] → sprayNext members live last = none) ∧
    (members.filter live ≠ [] → ∃ i, sprayNext members live last = some i ∧ nth members i ∈ members.filter live) := by
  have hmem : ∀ i, i ∈ (List.range members.length).filter (fun i => live (nth members i)) → nth members i ∈ members.filter live := by
    intro i hi
    obtain ⟨hrange, hlive⟩ := List.mem_filter.1 hi
    have hlt := List.mem_range.1 hrange
    have hget : nth members i = members[i] := by rw [nth, List.getD_eq_getElem?_getD, List.getElem?_eq_getElem hlt, Option.getD_some]
    exact List.mem_filter.2 ⟨by rw [hget]; exact List.getElem_mem hlt, hlive⟩
  unfold sprayNext
  dsimp only
  generalize hidx : (List.range members.length).filter (fun i => live (nth members i)) = idx at hmem ⊢
  refine ⟨fun hnone => ?_, fun hsome => ?_⟩
  · have hempty : idx = [] := by
      rw [List.eq_nil_iff_forall_not_mem]
      intro i hi
      have hin := hmem i hi
      rw [hnone] at hin
      cases hin
    rw [hempty]
    rfl
  · cases hfind : idx.find? (fun i => decide (last ≤ i)) with
    | some i => exact ⟨i, rfl, hmem i (List.mem_of_find?_eq_some hfind)⟩
    | none =>
      cases idx with
      | cons i idx => exact ⟨i, rfl, hmem i List.mem_cons_self⟩
      | nil =>
        obtain ⟨m, hm⟩ := List.exists_mem_of_ne_nil _ hsome
        obtain ⟨hin, hlive⟩ := List.mem_filter.1 hm
        obtain ⟨i, hi, hget⟩ := List.getElem_of_mem hin
        have hnth : nth members i = m := by rw [nth, List.getD_eq_getElem?_getD, List.getElem?_eq_getElem hi, Option.getD_some, hget]
        have hiin : i ∈ ([] : List Nat) := by
          rw [← hidx]
          exact List.mem_filter.2 ⟨List.mem_range.2 hi, by rw [hnth]; exact hlive⟩
        cases hiin

theorem nextHop_sprayed (n : Nat) (hcls : k.cls < 2) :
    let live := (tget ({} : NextHop) h.mesh.nexthop (e * 4096 + n)).members.filter (fun m => ! h.winnowed m)
    (live = [] → h.nextHop e p n k = (h, none)) ∧ (live ≠ [] → ∃ h' m, m ∈ live ∧ h.nextHop e p n k = (h', some m)) := by
  intro live
  have hlive : (tget ({} : NextHop) h.mesh.nexthop (e * 4096 + n)).members.filter (fun m => decide (¬ h.winnowed m = true)) = live :=
    List.filter_congr fun m _ => by cases h.winnowed m <;> rfl
  rw [Hw.nextHop]
  dsimp only
  rw [if_pos hcls, ← hlive]
  refine ⟨fun hnone => ?_, fun hsome => ?_⟩
  · rw [(sprayNext_live _ _ _).1 hnone]
  · obtain ⟨i, hi, hin⟩ := (sprayNext_live _ _ _).2 hsome
    rw [hi]
    exact ⟨_, _, hin, rfl⟩

/-- The way of a packet whose rank is not of this switch. -/
theorem route_far {sw q : Nat} (hrank : h.rankEntry k.job k.dst = some (sw, q)) (hsw : sw ≠ h.disc.switchNo) :
    (tget? h.mesh.fwd (e * 4096 + sw) = none → h.route e p k = (h, .inl 19)) ∧
    (∀ out, tget? h.mesh.fwd (e * 4096 + sw) = some (1, out) → h.route e p k = (h, if h.winnowed out then .inl 20 else .inr out)) ∧
    (∀ n, tget? h.mesh.fwd (e * 4096 + sw) = some (2, n) → h.route e p k = match h.nextHop e p n k with | (h', some m) => (h', .inr m) | (h', none) => (h', .inl 19)) := by
  rw [Hw.route]
  dsimp only
  rw [hrank]
  dsimp only
  rw [if_neg hsw, tget]
  exact ⟨fun hnone => by rw [hnone]; rfl, fun out hout => by rw [hout]; rfl, fun n hn => by rw [hn]; rfl⟩

end

/-- Settles O35. -/
theorem packetIngressAndRoute : Obligations.PacketIngressAndRoute := by
  unfold Obligations.PacketIngressAndRoute
  refine ⟨fun s p k hp hlehr hup => ?_, fun h e p k => ?_⟩
  · intro h c run
    have hrun : run = .next (s.withHw (if k.ptype = 6 then h.recvParams p k else if k.ptype = 5 then h.recvGlean s.fuses.deviceUid p k else h.ingress p k)) :=
      execPacketReceive_up hp hlehr hup
    have hingress : k.ptype ≠ 5 → k.ptype ≠ 6 → run = .next (s.withHw (h.ingress p k)) := fun h5 h6 => by rw [hrun, if_neg h6, if_neg h5]
    have hnext : ∀ {a b : Hw}, a = b → run = .next (s.withHw a) → run = .next (s.withHw b) := fun hab ha => hab ▸ ha
    refine ⟨fun h6 => by rw [hrun, if_pos h6], fun h5 => by rw [hrun, if_neg (by omega), if_pos h5], fun h5 h6 hcredit => hnext (ingress_credit hcredit) (hingress h5 h6),
      fun h5 h6 hcredit => ⟨fun hfull => hnext (ingress_full hcredit hfull) (hingress h5 h6), fun h' b hstored => ?_⟩⟩
    obtain ⟨hdrop, hblind, hjob, hpass⟩ := ingress_stored hstored
    exact ⟨fun i hi => hnext (hdrop i hcredit hi) (hingress h5 h6), fun hlink hst => hnext (hblind hlink hst) (hingress h5 h6),
      fun hlink hst hadm => hnext (hjob hlink hst hadm) (hingress h5 h6), fun hlink hst hadm h'' hm => hnext ((hpass hlink hst hadm).1 h'' hm) (hingress h5 h6),
      fun hlink hst hadm h'' k' hm => hnext ((hpass hlink hst hadm).2 h'' k' hm) (hingress h5 h6)⟩
  · intro at_
    refine ⟨fun hrank => ?_, fun q hrank => ?_, fun sw q hrank hsw => ?_⟩
    · rw [Hw.route]
      dsimp only
      rw [hrank]
    · rw [Hw.route]
      dsimp only
      rw [hrank]
      exact if_pos rfl
    · obtain ⟨hnone, hport, hset⟩ := route_far (e := e) (p := p) hrank hsw
      refine ⟨hnone, hport, fun n hn hcls => ?_, fun n hn hcls => ?_⟩
      · intro set live
        have hhop := nextHop_hashed (h := h) (e := e) (p := p) (k := k) n hcls
        refine ⟨fun hempty => ?_, fun hsome => ?_⟩
        · rw [hset n hn, hhop, if_pos hempty]
        · rw [hset n hn, hhop, if_neg hsome]
      · obtain ⟨hempty, hsome⟩ := nextHop_sprayed (h := h) (e := e) (p := p) (k := k) n hcls
        refine ⟨fun hl => by rw [hset n hn, hempty hl], fun hl => ?_⟩
        obtain ⟨h', m, hm, hhop⟩ := hsome hl
        exact ⟨h', m, hm, by rw [hset n hn, hhop]⟩

end Sys2Proof.Machine
end

section
/-!
Moves of ports, tillers for fenced complexes, and the drain of an epoch (R145, R164, R165, R173, R178).
-/

namespace Sys2Proof.Machine
open Sys2Proof

/-- A step of the tick edge in slot 0, and at any other slot. -/
theorem atEdge_zero {s : State} {f : Fuses → Hw → Hw} (hslot : s.hw.time.slot = 0) : atEdge f s = .next (s.withHw (f s.fuses s.hw)) := by
  rw [atEdge, onHw_next, if_pos hslot]

theorem atEdge_later {s : State} {f : Fuses → Hw → Hw} (hslot : s.hw.time.slot ≠ 0) : atEdge f s = .next s := by
  rw [atEdge, onHw_next, if_neg hslot]
  rfl

/-! ### Moves of ports -/

/-- A port that an orderly move has brought to a home. -/
def Port.MovedTo (x : Port) (alt : Bool) : Prop := x.atAlt = alt ∧ x.move = .none ∧ x.withhold = false ∧ x.window = true

theorem movedTo_modLink {h : Hw} {p : Nat} {alt : Bool} (f : Link → Link) (hmoved : (h.port p).MovedTo alt) : ((h.modLink p f).port p).MovedTo alt := by
  have hlink : (h.modLink p f).port p = { h.port p with link := f (h.port p).link } := port_modPort h p _
  rw [hlink]
  exact hmoved

/-- The port after an orderly handover: at its other home, with its move over. -/
theorem handoverOrderly_port (h : Hw) (p : Nat) (alt : Bool) : ((h.handoverOrderly p alt).port p).MovedTo alt := by
  refine movedTo_modLink _ ?_
  generalize ((h.port p).queues.flatMap (fun q => q.2.entries)).foldl _ h = h1
  generalize (h1.passFlows p _ _).passHandoffs p _ _ = h2
  split
  · rw [port_modPort]
    exact ⟨rfl, rfl, rfl, rfl⟩
  · refine movedTo_modLink _ ?_
    rw [port_modPort]
    exact ⟨rfl, rfl, rfl, rfl⟩

section
variable {s : State} {p start : Nat} {alt : Bool} (hp : p < 264) (hmove : (s.hw.port p).move = .orderly start alt)
include hp hmove

theorem execPortMoveHandover_due (hslot : s.hw.time.slot = 0) (htick : start + 1 ≤ s.hw.time.tick) : execPortMoveHandover p s = .next (s.withHw (s.hw.handoverOrderly p alt)) := by
  rw [execPortMoveHandover, atUnit_in hp, atEdge_zero hslot, Hw.moveHandover, hmove]
  dsimp only
  rw [if_neg (Nat.not_lt.2 htick)]

theorem execPortMoveHandover_early (hearly : s.hw.time.tick < start + 1 ∨ s.hw.time.slot ≠ 0) : execPortMoveHandover p s = .next s := by
  rw [execPortMoveHandover, atUnit_in hp]
  by_cases hslot : s.hw.time.slot = 0
  · rw [atEdge_zero hslot, Hw.moveHandover, hmove]
    dsimp only
    rw [if_pos (hearly.resolve_right (not_not.2 hslot))]
    rfl
  · exact atEdge_later hslot

end

/-! ### Tillers -/

theorem modMesh_mesh' (h : Hw) (f : Mesh → Mesh) : (h.modMesh f).mesh = f h.mesh := rfl

theorem tellExhausted_keeps (h : Hw) (row scope : Nat) : (h.tellExhausted row scope).mesh = h.mesh ∧ (h.tellExhausted row scope).cxs = h.cxs := by
  unfold Hw.tellExhausted
  split <;> exact ⟨rfl, rfl⟩

section
variable {h : Hw} {c : Nat}

/-- A complex that is fenced and still mapped to itself waits for a tiller. -/
theorem wantsTiller_of (hc : c < 128) (hout : (h.cx c).attach ≠ .serving) (hmap : locCx (h.locate h.mesh.injEpoch c) = c) (hin : c ∉ h.mesh.unmapped) : h.wantsTiller c = true := by
  have haddr : h.cxAddress c = c := if_pos hc
  have hhigh : decide (128 ≤ c) = false := decide_eq_false (by omega)
  have hunmapped : h.mesh.unmapped.contains c = false := by rw [List.contains_eq_mem]; exact decide_eq_false hin
  rw [Hw.wantsTiller, haddr, hhigh, hunmapped, decide_eq_true hout, decide_eq_true hmap]
  rfl

/-- The free tiller of a complex: the first of the SCD's two that serves and stands in for none. -/
theorem freeTiller_eq (h : Hw) (c : Nat) : let free (i : Nat) : Prop := (h.cx (128 + 2 * cxScd c + i)).attach = .serving ∧ (h.cx (128 + 2 * cxScd c + i)).tillerOf = none
    (free 0 → h.freeTiller c = some 0) ∧ (¬ free 0 → free 1 → h.freeTiller c = some 1) ∧ (¬ free 0 → ¬ free 1 → h.freeTiller c = none) := by
  intro free
  have htest : ∀ i, (decide ((h.cx (128 + 2 * cxScd c + i)).attach = .serving) && (h.cx (128 + 2 * cxScd c + i)).tillerOf.isNone) = true ↔ free i := by
    intro i
    rw [Bool.and_eq_true, decide_eq_true_eq, Option.isNone_iff_eq_none]
  have hbusy : ∀ i, ¬ free i → ¬ (decide ((h.cx (128 + 2 * cxScd c + i)).attach = .serving) && (h.cx (128 + 2 * cxScd c + i)).tillerOf.isNone) = true :=
    fun i hi ht => hi ((htest i).1 ht)
  have hsecond : ∀ f : Nat → Bool, ¬ f 0 = true → f 1 = true → [0, 1].find? f = some 1 := fun f h0 h1 => by
    rw [List.find?_cons_of_neg h0, List.find?_cons_of_pos h1]
  have hneither : ∀ f : Nat → Bool, ¬ f 0 = true → ¬ f 1 = true → [0, 1].find? f = none := fun f h0 h1 => by
    rw [List.find?_cons_of_neg h0, List.find?_cons_of_neg h1, List.find?_nil]
  exact ⟨fun h0 => List.find?_cons_of_pos ((htest 0).2 h0), fun h0 h1 => hsecond _ (hbusy 0 h0) ((htest 1).2 h1), fun h0 h1 => hneither _ (hbusy 0 h0) (hbusy 1 h1)⟩

end

section
variable {s : State} {c : Nat} (hc : c < 128) (hwants : s.hw.wantsTiller c = true)
include hc hwants

/-- With a tiller free the address stays mapped, and the tiller waits for the flip. -/
theorem execTillerSubstitute_free {i : Nat} (hfree : s.hw.freeTiller c = some i) :
    execTillerSubstitute c s = .next (s.withHw (if s.hw.mesh.flipping = true ∨ s.hw.mesh.flipNext.isSome = true then s.hw
      else (s.hw.firmwareFlip (s.hw.firstEligible s.hw.slotNow) (fun t => tput t ((1 - s.hw.mesh.injEpoch) * 4096 + c)
        (if i = 0 then tileCx (cxScd c) 5 else tileCx (cxScd c) 10, 1 + i))).modCx (128 + 2 * cxScd c + i) (fun x => { x with tillerOf := some c }))) := by
  have haddr : s.hw.cxAddress c = c := if_pos hc
  have hleave : s.hw.leaveUnmapped c = s.hw := if_neg (by rw [hfree]; simp)
  rw [execTillerSubstitute, atUnit_in (by omega), onHw_next]
  dsimp only
  rw [hleave, hwants, hfree, haddr]
  simp only [not_true, false_or]

/-- Without one the address is unmapped, and that is told. -/
theorem execTillerSubstitute_none (hfree : s.hw.freeTiller c = none) :
    execTillerSubstitute c s = .next (s.withHw ((s.hw.modMesh (fun m => { m with unmapped := m.unmapped ++ [c] })).tellExhausted 3 (cxScd c))) := by
  have haddr : s.hw.cxAddress c = c := if_pos hc
  have hleave : s.hw.leaveUnmapped c = (s.hw.modMesh (fun m => { m with unmapped := m.unmapped ++ [c] })).tellExhausted 3 (cxScd c) := by
    rw [Hw.leaveUnmapped, if_pos ⟨hwants, by rw [hfree]; rfl⟩, haddr]
  have hdone : ((s.hw.modMesh (fun m => { m with unmapped := m.unmapped ++ [c] })).tellExhausted 3 (cxScd c)).wantsTiller c = false := by
    obtain ⟨hmesh, -⟩ := tellExhausted_keeps (s.hw.modMesh (fun m => { m with unmapped := m.unmapped ++ [c] })) 3 (cxScd c)
    have haddr' : ((s.hw.modMesh (fun m => { m with unmapped := m.unmapped ++ [c] })).tellExhausted 3 (cxScd c)).cxAddress c = c := if_pos hc
    have hcontains : (s.hw.mesh.unmapped ++ [c]).contains c = true := by simp
    rw [Hw.wantsTiller, haddr', hmesh, modMesh_mesh', hcontains, Bool.not_true, Bool.and_false]
  rw [execTillerSubstitute, atUnit_in (by omega), onHw_next]
  dsimp only
  rw [hleave, if_pos (.inl (by rw [hdone]; decide))]

end

/-! ### The drain -/

/-- The regime follows its reasons. -/
theorem settleRegime_mesh (h : Hw) : h.settleRegime.mesh = { h.mesh with regimeBubble := decide (h.mesh.reasons ≠ 0) } := by
  rw [Hw.settleRegime]
  dsimp only
  split
  · rename_i heq
    rw [heq]
  · rw [raise_mesh, modMesh_mesh']

theorem drained_mesh_early {h : Hw} (hearly : h.mesh.flipping = false ∨ h.time.tick ≤ h.mesh.flipTick ∨ h.mesh.drainCount ≠ 0) : h.drained = h := by
  rw [Hw.drained]
  exact if_pos (hearly.imp_left (fun hf => by rw [hf]; decide))

theorem drained_due {h : Hw} (hflip : h.mesh.flipping = true) (htick : h.mesh.flipTick < h.time.tick) (hcount : h.mesh.drainCount = 0) :
    h.drained = (h.modMesh (fun m => { m with reasons := m.reasons &&& ~~~2, drainDone := h.time.tick })).raise 0x0302
      [w32 (1 - h.mesh.injEpoch + (h.time.tick - h.mesh.flipTick) * 2 ^ 8)] := by
  rw [Hw.drained]
  exact if_neg (by rw [hflip, hcount]; simp [htick])

/-- Settles O38. -/
theorem movesSubstitutesAndDrains : Obligations.MovesSubstitutesAndDrains := by
  unfold Obligations.MovesSubstitutesAndDrains
  refine ⟨fun s => ?_, fun s => ?_⟩
  · intro h
    refine ⟨fun p start alt hp hmove hslot htick => ?_, fun p start alt hp hmove hearly => execPortMoveHandover_early hp hmove hearly, fun c hc hout hmap hin => ?_⟩
    · obtain ⟨halt, hnone, hwithhold, hwindow⟩ := handoverOrderly_port h p alt
      refine ⟨execPortMoveHandover_due hp hmove hslot htick, halt, hnone, hwithhold, hwindow, ?_⟩
      rw [Hw.home, halt]
    · intro t free
      have hwants := wantsTiller_of hc hout hmap hin
      obtain ⟨h0, h1, hno⟩ := freeTiller_eq h c
      refine ⟨fun i hi hflip hnext => ?_, fun hsome hbusy => ?_, fun hn0 hn1 => execTillerSubstitute_none hc hwants (hno hn0 hn1)⟩
      · have hfree : h.freeTiller c = some i := by
          rcases hi with ⟨rfl, hi0⟩ | ⟨rfl, hi0, hi1⟩
          · exact h0 hi0
          · exact h1 hi0 hi1
        have hidle : ¬ (h.mesh.flipping = true ∨ h.mesh.flipNext.isSome = true) := by rw [hflip, hnext]; decide
        have hexec := execTillerSubstitute_free hc hwants hfree
        rw [if_neg hidle] at hexec
        refine ⟨_, hexec, by rw [cx_modCx], rfl, rfl, ?_, rfl, rfl⟩
        rw [Hw.locate, modCx_mesh, Hw.firmwareFlip, modMesh_mesh', tget?_tput, Option.getD_some]
        rcases hi with ⟨rfl, -⟩ | ⟨rfl, -, -⟩ <;> rfl
      · obtain ⟨i, hfree⟩ : ∃ i, h.freeTiller c = some i := by
          by_cases hf : free 0
          · exact ⟨0, h0 hf⟩
          · exact ⟨1, h1 hf (hsome.resolve_left hf)⟩
        have hexec := execTillerSubstitute_free hc hwants hfree
        rw [if_pos (hbusy.imp_right Option.isSome_iff_ne_none.2)] at hexec
        exact hexec
  · intro h m ev
    refine ⟨fun hslot hflip htick hcount => ?_, fun hslot hearly => ?_, fun hslot hflip hlast hcount htold => ?_, fun hslot => ⟨?_, ?_⟩, fun htold => ?_⟩
    · refine ⟨?_, fun hon => raise_last _ _ _ hon, ?_, ?_, ?_, ?_⟩
      · rw [exec_epochDrained, execEpochDrained, atEdge_zero hslot, drained_due hflip htick hcount]
        rfl
      all_goals rw [settleRegime_mesh]; rfl
    · refine ⟨h.settleRegime, ?_, ?_, ?_, ?_⟩
      · rw [exec_epochDrained, execEpochDrained, atEdge_zero hslot, drained_mesh_early hearly]
      all_goals rw [settleRegime_mesh]
    · rw [exec_epochDrainSlow, execEpochDrainSlow, atEdge_zero hslot, Hw.drainSlow, if_neg (fun hor => hor.elim (fun hf => hf hflip) (fun hor => hor.elim (Nat.not_lt.2 hlast) (fun hor => hor.elim hcount
        (fun ht => Bool.false_ne_true (htold.symm.trans ht)))))]
      rfl
    · rw [exec_epochDrained]
      exact atEdge_later hslot
    · rw [exec_epochDrainSlow]
      exact atEdge_later hslot
    · rw [exec_epochDrainSlow, execEpochDrainSlow]
      by_cases hslot : s.hw.time.slot = 0
      · rw [atEdge_zero hslot, Hw.drainSlow, if_pos (.inr (.inr (.inr htold)))]
        rfl
      · exact atEdge_later hslot

end Sys2Proof.Machine
end

section
/-!
Flits on mesh links, and the hops of mesh packets (R154 to R157, R159, R161).
-/

namespace Sys2Proof.Machine
open Sys2Proof

/-! ### Reading rules of routers -/

theorem router_countRouter_ne (h : Hw) {r q : Nat} (hq : q ≠ r) (i n : Nat) : (h.countRouter r i n).router q = h.router q := router_modRouter_ne h _ hq

theorem linkIn_countRouter (h : Hw) (r i n q e : Nat) : (h.countRouter r i n).linkIn q e = h.linkIn q e := by
  by_cases hq : q = r
  · subst hq
    rw [Hw.linkIn, Hw.countRouter, router_modRouter]
    rfl
  · rw [Hw.linkIn, router_countRouter_ne h hq]
    rfl

theorem vcs_countRouter (h : Hw) (r i n q : Nat) : ((h.countRouter r i n).router q).vcs = (h.router q).vcs := by
  by_cases hq : q = r
  · subst hq
    rw [Hw.countRouter, router_modRouter]
  · rw [router_countRouter_ne h hq]

theorem vcs_modIn (h : Hw) (r d : Nat) (f : MeshIn → MeshIn) (q : Nat) : ((h.modIn r d f).router q).vcs = (h.router q).vcs := by
  by_cases hq : q = r
  · subst hq
    rw [Hw.modIn, router_modRouter]
  · rw [Hw.modIn, router_modRouter_ne h _ hq]

theorem linkIn_modRouter (h : Hw) (r : Nat) (f : Router → Router) (hf : (f (h.router r)).inputs = (h.router r).inputs) (q e : Nat) : (h.modRouter r f).linkIn q e = h.linkIn q e := by
  by_cases hq : q = r
  · subst hq
    rw [Hw.linkIn, router_modRouter, hf]
    rfl
  · rw [Hw.linkIn, router_modRouter_ne h _ hq]
    rfl

/-- What a VC buffer reads as after it has been changed. -/
theorem tget?_modVc {h : Hw} {r key : Nat} {b : VcBuf} (f : VcBuf → VcBuf) (hb : tget? (h.router r).vcs key = some b) : tget? ((h.modVc r key f).router r).vcs key = some (f b) := by
  rw [Hw.modVc, router_modRouter, hb]
  exact tget?_tput _ _ _

theorem modVc_congr {h : Hw} {r key : Nat} {b : VcBuf} {f g : VcBuf → VcBuf} (hb : tget? (h.router r).vcs key = some b) (hfg : f b = g b) : h.modVc r key f = h.modVc r key g := by
  rw [Hw.router] at hb
  simp only [Hw.modVc, Hw.modRouter, tmod, hb, hfg]

theorem modVc_inputs (h : Hw) (r key : Nat) (f : VcBuf → VcBuf) (q e : Nat) : (h.modVc r key f).linkIn q e = h.linkIn q e := by
  refine linkIn_modRouter h r _ ?_ q e
  split <;> rfl

theorem router_modVc_ne (h : Hw) {r q : Nat} (hq : q ≠ r) (key : Nat) (f : VcBuf → VcBuf) : (h.modVc r key f).router q = h.router q := router_modRouter_ne h _ hq

/-! ### What sending flits leaves alone -/

/-- A neighbour on the torus is another router. -/
theorem stepDir_ne {r : Nat} (hr : r < 128) (d : Nat) : stepDir r d ≠ r := by
  have hy : r / 16 < 8 := by omega
  unfold stepDir cxAt
  dsimp only
  split <;> omega

theorem router_freeVc_ne (h : Hw) {r q : Nat} (hq : q ≠ r) (key : Nat) : (h.freeVc r key).router q = h.router q := by
  unfold Hw.freeVc
  split
  · rfl
  · dsimp only
    split
    · rw [Hw.modIn, router_modRouter_ne _ _ hq, router_modRouter_ne _ _ hq]
    · rw [router_modRouter_ne _ _ hq]

theorem router_copySent_ne (h : Hw) {r q : Nat} (hq : q ≠ r) (key : Nat) : (h.copySent r key).router q = h.router q := by
  unfold Hw.copySent
  dsimp only
  split
  · split
    · rw [router_freeVc_ne _ hq, router_modVc_ne h hq]
    · exact router_modVc_ne h hq _ _
  · exact router_modVc_ne h hq _ _

/-- What the sender of a link does not change: the router's buffers, and what the receiver awaits. -/
structure LinkKept (r d : Nat) (h h' : Hw) : Prop where
  vcs : (h'.router r).vcs = (h.router r).vcs
  expect : (h'.linkIn r d).expect = (h.linkIn r d).expect
  nak : (h'.linkIn r d).nak = (h.linkIn r d).nak
  resent : (h'.linkIn r d).resent = (h.linkIn r d).resent

theorem LinkKept.refl (r d : Nat) (h : Hw) : LinkKept r d h h := ⟨rfl, rfl, rfl, rfl⟩

theorem LinkKept.trans {r d : Nat} {h h' h'' : Hw} (h1 : LinkKept r d h h') (h2 : LinkKept r d h' h'') : LinkKept r d h h'' :=
  ⟨h2.vcs.trans h1.vcs, h2.expect.trans h1.expect, h2.nak.trans h1.nak, h2.resent.trans h1.resent⟩

theorem LinkKept.of_router {r d : Nat} {h h' : Hw} (hrouter : h'.router r = h.router r) : LinkKept r d h h' := by
  have hlink : h'.linkIn r d = h.linkIn r d := by rw [Hw.linkIn, hrouter]; rfl
  exact ⟨by rw [hrouter], by rw [hlink], by rw [hlink], by rw [hlink]⟩

theorem LinkKept.modIn {r d : Nat} {h : Hw} {f : MeshIn → MeshIn} (hf : ∀ i, (f i).expect = i.expect ∧ (f i).nak = i.nak ∧ (f i).resent = i.resent) : LinkKept r d h (h.modIn r d f) := by
  obtain ⟨hexpect, hnak, hresent⟩ := hf (h.linkIn r d)
  refine ⟨vcs_modIn h r d f r, ?_, ?_, ?_⟩ <;> rw [linkIn_modIn] <;> assumption

theorem sendFlits_kept {r : Nat} (hr : r < 128) (d n : Nat) (h : Hw) : LinkKept r d h (h.sendFlits n r d) := by
  have hne : r ≠ stepDir r d := (stepDir_ne hr d).symm
  induction n generalizing h with
  | zero => exact .refl r d h
  | succ n ih =>
    rw [Hw.sendFlits]
    dsimp only
    split
    · exact .refl r d h
    · split
      · exact .refl r d h
      · split
        · exact .refl r d h
        · refine .trans ?_ (ih _)
          split
          · refine .trans (.trans ?_ (.of_router (router_countRouter_ne _ hne _ _))) (.of_router (router_copySent_ne _ hne _))
            exact .modIn (fun _ => ⟨rfl, rfl, rfl⟩)
          · refine .trans ?_ (.of_router (router_countRouter_ne _ hne _ _))
            exact .modIn (fun _ => ⟨rfl, rfl, rfl⟩)

/-! ### Flits that arrive -/

section
variable {s : State} {r d : Nat} {f : Flit} {rest : List Flit} (hr : r < 128) (hd : d < 4) (hwire : ((s.hw.sendFlits 8 r d).linkIn r d).wire = f :: rest)
include hr hd hwire

/-- What MESH_FLIT_RECEIVE does with the next flit: with h the hardware once the sender has sent, and the flit off the wire. -/
theorem execMeshFlitReceive_flit (ok : Bool) : let h := s.hw.sendFlits 8 r d
    let i := h.linkIn r d
    let taken := h.modIn r d (fun i => { i with wire := rest })
    execMeshFlitReceive r d ok s = .next (s.withHw (if i.nak.all (fun n => decide (n = f.fseq)) = false then taken
      else if ok = false then
        if i.resent < 3 then ((taken.modIn r d (fun i => { i with
          nak := some f.fseq, resent := i.resent + 1, wire := rest ++ i.kept.dropWhile (fun k => k.fseq ≠ f.fseq) })).countRouter r 12).report 0x301 0 (unitNo 5 r) 1
        else (taken.report 0x302 1 (unitNo 5 r) 2).fence (unitNo 5 r) 0x302
      else ((taken.modIn r d (fun i => { i with expect := (f.fseq + 1) % 32, nak := none, resent := 0 })).storeFlit r d f).sendFlits 8 r d)) := by
  intro h i taken
  have hany : ∀ o : Option Nat, (o.any (fun n => decide (n ≠ f.fseq)) = true) = (o.all (fun n => decide (n = f.fseq)) = false) := by
    intro o
    cases o <;> simp
  have hflag : ∀ {a b : Hw}, (if ¬ ok = true then a else b) = if ok = false then a else b := by cases ok <;> intros <;> rfl
  rw [execMeshFlitReceive, atUnit_in hr, onHw_next, if_neg (Nat.not_le.2 hd)]
  dsimp only
  rw [hwire]
  dsimp only
  simp only [hany, hflag]
  rfl

end

/-- A good flit in its buffer. -/
theorem storeFlit_vcs {h : Hw} {r d : Nat} {f : Flit} :
    (f.idx = 0 → tget? ((h.storeFlit r d f).router r).vcs (8 * d + f.vc) = some { mp := f.mp }) ∧
    (f.idx ≠ 0 → ∀ b, tget? (h.router r).vcs (8 * d + f.vc) = some b → tget? ((h.storeFlit r d f).router r).vcs (8 * d + f.vc) = some { b with got := b.got + 1 }) := by
  refine ⟨fun h0 => ?_, fun h0 b hb => ?_⟩
  · rw [Hw.storeFlit, if_pos h0, router_modRouter]
    exact tget?_tput _ _ _
  · rw [Hw.storeFlit, if_neg h0, hb, Option.isSome_some, if_pos rfl]
    exact tget?_modVc _ hb

theorem storeFlit_link (h : Hw) (r d : Nat) (f : Flit) : let i := (h.storeFlit r d f).linkIn r d
    i.expect = (h.linkIn r d).expect ∧ i.nak = (h.linkIn r d).nak ∧ i.resent = (h.linkIn r d).resent := by
  intro i
  have hi : i = (h.storeFlit r d f).linkIn r d := rfl
  rw [Hw.storeFlit] at hi
  split at hi
  · rw [hi, linkIn_modRouter h r (fun x => { x with vcs := tput x.vcs (8 * d + f.vc) { mp := f.mp }, order := x.order ++ [8 * d + f.vc] }) rfl]
    exact ⟨rfl, rfl, rfl⟩
  · split at hi
    · rw [hi, modVc_inputs]
      exact ⟨rfl, rfl, rfl⟩
    · rw [hi, linkIn_modIn]
      exact ⟨rfl, rfl, rfl⟩

/-! ### Hops -/

section
variable {s : State} {r i v : Nat} {b : VcBuf} (hr : r < 128) (hv : v < 8) (hb : tget? (s.hw.router r).vcs (8 * i + v) = some b) (hdone : b.done = false)
include hr hv hb hdone

/-- A mesh packet with a good header: it makes the hops that are ready and not beaten, and keeps the others. -/
theorem execMeshPacketRoute_good (hgood : b.mp.headerOk = true) : let key := 8 * i + v
    let made := (s.hw.hopsOf r b.mp).foldl (fun (a : Hw × List Hop) q =>
      if a.1.hopReady r i v b q ∧ ¬ a.1.beaten r key b.mp q.output then (a.1.makeHop r i v q, a.2) else (a.1, a.2 ++ [q])) (s.hw, [])
    execMeshPacketRoute r i v s = .next (s.withHw (if made.2 ≠ [] then made.1.modVc r key (fun b => { b with
        mp := (if b.mp.kind = 2 ∨ b.mp.kind = 4 then (remainder b.mp made.2).seal else b.mp) })
      else if (tget? (made.1.router r).vcs key).any (fun b => decide (b.busy = 0)) then made.1.freeVc r key else made.1.modVc r key (fun b => { b with done := true }))) := by
  intro key made
  rw [execMeshPacketRoute, atUnit_in hr, onHw_next]
  dsimp only
  rw [hb]
  dsimp only
  rw [if_neg (by rw [hdone]; simp; omega), if_neg (not_not.2 hgood)]

theorem execMeshPacketRoute_bad (hbad : b.mp.headerOk = false) :
    execMeshPacketRoute r i v s = .next (s.withHw (if b.mp.flits ≤ b.got then ((s.hw.freeVc r (8 * i + v)).countRouter r 11).report 0x303 0 (unitNo 5 r) else s.hw)) := by
  rw [execMeshPacketRoute, atUnit_in hr, onHw_next]
  dsimp only
  rw [hb]
  dsimp only
  rw [if_neg (by rw [hdone]; simp; omega), if_pos (by rw [hbad]; decide)]

end

/-- Hops none of which is ready all remain. -/
theorem foldl_hops_stay {h : Hw} {r i v key : Nat} {b : VcBuf} {qs stay : List Hop} (hwait : ∀ q ∈ qs, h.hopReady r i v b q = false) :
    qs.foldl (fun (a : Hw × List Hop) q => if a.1.hopReady r i v b q ∧ ¬ a.1.beaten r key b.mp q.output then (a.1.makeHop r i v q, a.2) else (a.1, a.2 ++ [q])) (h, stay) = (h, stay ++ qs) := by
  induction qs generalizing stay with
  | nil => rw [List.append_nil]; rfl
  | cons q qs ih =>
    rw [List.foldl_cons, if_neg (by rw [hwait q List.mem_cons_self]; simp), ih (fun q' hq' => hwait q' (List.mem_cons_of_mem q hq')), List.append_assoc]
    rfl

/-- A hop that is ready and not beaten is made. -/
theorem foldl_hop_made {h : Hw} {r i v key : Nat} {b : VcBuf} {q : Hop} (hready : h.hopReady r i v b q = true) (hbeaten : h.beaten r key b.mp q.output = false) :
    [q].foldl (fun (a : Hw × List Hop) q => if a.1.hopReady r i v b q ∧ ¬ a.1.beaten r key b.mp q.output then (a.1.makeHop r i v q, a.2) else (a.1, a.2 ++ [q])) (h, []) =
      (h.makeHop r i v q, []) := if_pos ⟨hready, by rw [hbeaten]; decide⟩

/-- A unicast with no router fenced goes by x, then by y, and ends at its attachment. -/
theorem hopsOf_unicast {h : Hw} {r : Nat} {mp : MeshPkt} (hfenced : h.mesh.fenced = []) (hdiscard : h.mesh.discarding = []) (hsep : h.mesh.separation = []) (hkind : mp.kind = 1)
    (hpath : mp.detourPath = []) (hdetour : mp.detour = 0) :
    h.hopsOf r mp = [if r = mp.dest then .eject mp.attach mp
      else if r % 16 ≠ mp.dest % 16 then .out (if (mp.dest % 16 + 16 - r % 16) % 16 ≤ 8 then 0 else 1) mp
      else .out (if (mp.dest / 16 + 8 - r / 16) % 8 ≤ 4 then 3 else 2) mp] := by
  have hself : { mp with detour := 0, detourPath := [] } = mp := by
    cases mp
    cases hpath
    cases hdetour
    rfl
  have hout : ∀ d t, h.hopOut r d t mp = .out d mp := by
    intro d t
    rw [Hw.hopOut, hdiscard, hsep, hfenced]
    rfl
  rw [Hw.hopsOf, hpath]
  dsimp only
  have hplain : (if mp.kind = 3 ∨ mp.kind = 5 then 0 else mp.attach) = mp.attach := if_neg (by rw [hkind]; decide)
  rw [if_neg (by rw [hkind]; decide)]
  simp only [hself, hplain, hout]
  unfold nextDir
  by_cases hx : r % 16 = mp.dest % 16
  · by_cases hy : r / 16 = mp.dest / 16
    · have hat : r = mp.dest := by omega
      rw [if_neg (not_not.2 hx), if_neg (not_not.2 hy), if_pos hat]
    · have hat : r ≠ mp.dest := fun he => hy (by rw [he])
      rw [if_neg (not_not.2 hx), if_pos hy, if_neg hat, if_neg (not_not.2 hx)]
      rfl
  · have hat : r ≠ mp.dest := fun he => hx (by rw [he])
    rw [if_pos hx, if_neg hat, if_pos hx]
    rfl

/-- What a flit that fails its check, and is named for a resend, leaves. -/
theorem resend_named (h : Hw) (r d fseq : Nat) (wire : List Flit) : let i := h.linkIn r d
    let named := (((h.modIn r d (fun i => { i with wire := wire })).modIn r d (fun i => { i with
      nak := some fseq, resent := i.resent + 1, wire := wire ++ i.kept.dropWhile (fun k => k.fseq ≠ fseq) })).countRouter r 12).report 0x301 0 (unitNo 5 r) 1
    named.linkIn r d = { i with nak := some fseq, resent := i.resent + 1, wire := wire ++ i.kept.dropWhile (fun k => k.fseq ≠ fseq) } ∧
      (named.faults.src 0x301).c0Occ = (h.faults.src 0x301).c0Occ + 1 ∧ (named.router r).vcs = (h.router r).vcs := by
  intro i named
  obtain ⟨f, hrep, hocc⟩ := report_c0 (((h.modIn r d (fun i => { i with wire := wire })).modIn r d (fun i => { i with
    nak := some fseq, resent := i.resent + 1, wire := wire ++ i.kept.dropWhile (fun k => k.fseq ≠ fseq) })).countRouter r 12) 0x301 (unitNo 5 r) 1 [] false false
  refine ⟨(congrArg (fun h : Hw => h.linkIn r d) hrep).trans ((linkIn_countRouter _ r 12 1 r d).trans ?_), (congrArg (fun h : Hw => (h.faults.src 0x301).c0Occ) hrep).trans hocc,
    (congrArg (fun h : Hw => (h.router r).vcs) hrep).trans ((vcs_countRouter _ r 12 1 r).trans ?_)⟩
  · rw [linkIn_modIn, linkIn_modIn]
  · rw [vcs_modIn, vcs_modIn]

/-- What a good flit leaves: the next number expected, and its buffer. -/
theorem flit_taken {h : Hw} {r : Nat} (hr : r < 128) (d : Nat) (f : Flit) (wire : List Flit) :
    let stored := (((h.modIn r d (fun i => { i with wire := wire })).modIn r d (fun i => { i with expect := (f.fseq + 1) % 32, nak := none, resent := 0 })).storeFlit r d f).sendFlits 8 r d
    (stored.linkIn r d).expect = (f.fseq + 1) % 32 ∧ (stored.linkIn r d).nak = none ∧ (stored.linkIn r d).resent = 0 ∧
      (f.idx = 0 → tget? (stored.router r).vcs (8 * d + f.vc) = some { mp := f.mp }) ∧
      (f.idx ≠ 0 → ∀ b, tget? (h.router r).vcs (8 * d + f.vc) = some b → tget? (stored.router r).vcs (8 * d + f.vc) = some { b with got := b.got + 1 }) := by
  generalize hg : (h.modIn r d (fun i => { i with wire := wire })).modIn r d (fun i => { i with expect := (f.fseq + 1) % 32, nak := none, resent := 0 }) = g
  intro stored
  obtain ⟨hvcs, hexpect, hnak, hresent⟩ := sendFlits_kept hr d 8 (g.storeFlit r d f)
  obtain ⟨hexpect', hnak', hresent'⟩ := storeFlit_link g r d f
  obtain ⟨hfirst, hnext⟩ := storeFlit_vcs (h := g) (r := r) (d := d) (f := f)
  have hlink : g.linkIn r d = { h.linkIn r d with wire := wire, expect := (f.fseq + 1) % 32, nak := none, resent := 0 } := by rw [← hg, linkIn_modIn, linkIn_modIn]
  have hbuf : (g.router r).vcs = (h.router r).vcs := by rw [← hg, vcs_modIn, vcs_modIn]
  refine ⟨(hexpect.trans hexpect').trans (by rw [hlink]), (hnak.trans hnak').trans (by rw [hlink]), (hresent.trans hresent').trans (by rw [hlink]), fun h0 => ?_, fun h0 b hb => ?_⟩
  · exact (congrArg (fun v => tget? v (8 * d + f.vc)) hvcs).trans (hfirst h0)
  · exact (congrArg (fun v => tget? v (8 * d + f.vc)) hvcs).trans (hnext h0 b (by rw [hbuf]; exact hb))

/-- Settles O39. -/
theorem meshFlitsAndHops : Obligations.MeshFlitsAndHops := by
  unfold Obligations.MeshFlitsAndHops
  refine ⟨fun s r d hr hd => ?_, fun s r i v b hr hv hb hdone => ?_, fun h r mp hf hdc hs hk hp hdt hr hdest => hopsOf_unicast hf hdc hs hk hp hdt⟩
  · intro h i
    refine ⟨fun hwire ok => ?_, fun f rest hwire => ?_⟩
    · rw [exec_meshFlitReceive, execMeshFlitReceive, atUnit_in hr, onHw_next, if_neg (Nat.not_le.2 hd)]
      dsimp only
      rw [hwire]
    · intro taken awaited
      have hflit := execMeshFlitReceive_flit hr hd hwire
      have hgo : ∀ {a b : Hw}, awaited = true → (if awaited = false then a else b) = b := fun haw => if_neg (by rw [haw]; decide)
      refine ⟨fun haw ok => (hflit ok).trans (by rw [if_pos haw]), fun haw hres => ⟨_, (hflit false).trans (congrArg (fun h => Host.Outcome.next (s.withHw h)) ((hgo haw).trans
          ((if_pos rfl).trans (if_pos hres)))), resend_named h r d f.fseq rest⟩,
        fun haw hres => (hflit false).trans (congrArg (fun h => Host.Outcome.next (s.withHw h)) ((hgo haw).trans ((if_pos rfl).trans (if_neg (Nat.not_lt.2 hres))))),
        fun haw => ⟨_, (hflit true).trans (congrArg (fun h => Host.Outcome.next (s.withHw h)) ((hgo haw).trans (if_neg (by decide)))), flit_taken hr d f rest⟩⟩
  · intro h key
    refine ⟨fun hgood q hhops hready hbeaten => ?_, fun hgood hwait hsome => ?_, fun hbad hall => ?_, fun hbad hpart => ?_⟩
    · have hmade := execMeshPacketRoute_good hr hv hb hdone hgood
      dsimp only at hmade
      rw [hhops, foldl_hop_made hready hbeaten, if_neg (not_not.2 rfl)] at hmade
      exact hmade
    · have hmade := execMeshPacketRoute_good hr hv hb hdone hgood
      dsimp only at hmade
      rw [foldl_hops_stay hwait, List.nil_append, if_pos hsome] at hmade
      exact hmade.trans (congrArg (fun h => Host.Outcome.next (s.withHw h)) (modVc_congr hb rfl))
    · exact (execMeshPacketRoute_bad hr hv hb hdone hbad).trans (by rw [if_pos hall])
    · exact (execMeshPacketRoute_bad hr hv hb hdone hbad).trans (by rw [if_neg (Nat.not_le.2 hpart)]; rfl)

end Sys2Proof.Machine
end

section
/-!
Injection into the mesh, memory nodes, and relays (R143, R158, R167, R168, R175, R378).
-/

namespace Sys2Proof.Machine
open Sys2Proof

theorem modCx_congr {h : Hw} {c : Nat} {f g : Complex → Complex} (hfg : f (h.cx c) = g (h.cx c)) : h.modCx c f = h.modCx c g := by
  simp only [Hw.modCx, hfg]

theorem enterLocal_vcs (h : Hw) (r input v : Nat) (mp : MeshPkt) : tget? ((h.enterLocal r input v mp).router r).vcs (8 * input + v) = some { mp := mp, got := mp.flits } := by
  rw [Hw.enterLocal, vcs_countRouter, router_modRouter]
  exact tget?_tput _ _ _

theorem cx_countRouter (h : Hw) (r i n c : Nat) : (h.countRouter r i n).cx c = h.cx c := rfl

theorem enterLocal_cx (h : Hw) (r input v : Nat) (mp : MeshPkt) (c : Nat) : (h.enterLocal r input v mp).cx c = h.cx c := rfl

/-! ### Injection entries -/

section
variable {s : State} {c : Nat} {mp : MeshPkt} {rest : List InjEntry} (hc : c < 144) (hattach : (s.hw.cx c).attach ≠ .detached) (hsafe : s.hw.faults.state ≠ .safe)
  (hinject : (s.hw.cx c).inject = { ptr := none, parts := [mp] } :: rest)
include hc hattach hsafe hinject

/-- An entry of the first place that is ready is the one that goes. -/
theorem inject_find (hready : s.hw.entryReady c (if c < 128 then 4 else 5) { ptr := none, parts := [mp] } = true) :
    ¬ (144 ≤ c ∧ s.hw.faults.state ≠ .safe) ∧ ¬ (144 ≤ c ∨ (s.hw.cx c).attach = .detached ∨ s.hw.faults.state = .safe) ∧
    (s.hw.cx c).inject.find? (s.hw.entryReady c (if c < 128 then 4 else 5)) = some { ptr := none, parts := [mp] } ∧
    (s.hw.cx c).inject.idxOf { ptr := none, parts := [mp] } = 0 := by
  refine ⟨fun h => Nat.not_le.2 hc h.1, ?_, ?_, ?_⟩
  · rintro (h | h | h)
    exacts [Nat.not_le.2 hc h, hattach h, hsafe h]
  · rw [hinject, List.find?_cons_of_pos hready]
  · rw [hinject, List.idxOf_cons_self]

/-- One whose path passes a router being fenced is discarded. -/
theorem execMeshInject_discarded (hdiscard : s.hw.injectDiscard mp = true) :
    execMeshInject c s = .next (s.withHw ((s.hw.meshDrop (cxRouter c)).modCx c (fun x => { x with inject := x.inject.eraseIdx 0 }))) := by
  obtain ⟨hnode, hmay, hfind, hidx⟩ := inject_find hc hattach hsafe hinject (by rw [Hw.entryReady]; dsimp only; rw [hdiscard, Bool.true_or])
  rw [execMeshInject, atUnit_in (by omega), onHw_next]
  dsimp only
  rw [if_neg hnode, if_neg hmay, hfind]
  dsimp only
  rw [hidx, Option.any_none, if_neg Bool.false_ne_true]
  simp only [hdiscard, if_true]
  rfl

/-- One that is ready enters the router. -/
theorem execMeshInject_enters {v : Nat} (hdiscard : s.hw.injectDiscard mp = false) (hv : s.hw.localVc (cxRouter c) (if c < 128 then 4 else 5) mp.cls = some v) :
    execMeshInject c s = .next (s.withHw (((s.hw.modCx c (fun x => x.spend { ptr := none, parts := [mp] })).enterLocal (cxRouter c) (if c < 128 then 4 else 5) v mp).modCx c (fun x => {
          x with inject := x.inject.eraseIdx 0 }))) := by
  obtain ⟨hnode, hmay, hfind, hidx⟩ := inject_find hc hattach hsafe hinject (by rw [Hw.entryReady]; dsimp only; rw [hdiscard, hv, Bool.false_or, Option.isSome_some, Bool.true_and])
  rw [execMeshInject, atUnit_in (by omega), onHw_next]
  dsimp only
  rw [if_neg hnode, if_neg hmay, hfind]
  dsimp only
  rw [hidx, Option.any_none, if_neg Bool.false_ne_true]
  simp only [hdiscard, hv, Bool.false_eq_true, if_false]
  rfl

end

theorem execMeshInject_idle {s : State} {c : Nat} (hc : c < 144) (hidle : (s.hw.cx c).attach = .detached ∨ s.hw.faults.state = .safe) : execMeshInject c s = .next s := by
  rw [execMeshInject, atUnit_in (by omega), onHw_next]
  dsimp only
  rw [if_neg (by omega), if_pos (.inr hidle)]
  rfl

/-- A memory node puts its first packet into its router. -/
theorem execMeshInject_node {s : State} {c v : Nat} {mp : MeshPkt} {rest : List MeshPkt} (hlow : 144 ≤ c) (hc : c < 152) (hsafe : s.hw.faults.state ≠ .safe)
    (hout : tget [] s.hw.mesh.nodeOut (cxRouter c) = mp :: rest) (hdiscard : s.hw.mesh.discarding = []) (hv : s.hw.localVc (cxRouter c) 5 mp.cls = some v) :
    execMeshInject c s = .next (s.withHw ((s.hw.modMesh (fun m => { m with nodeOut := tmod [] m.nodeOut (cxRouter c) (·.erase mp) })).enterLocal (cxRouter c) 5 v mp)) := by
  have hnone : ∀ h : Hw, h.mesh.discarding = [] → h.injectDiscard mp = false := by
    intro h hd
    rw [Hw.injectDiscard, hd]
    rfl
  have hnone' : (s.hw.modMesh (fun m => { m with nodeOut := tmod [] m.nodeOut (cxRouter c) (·.erase mp) })).injectDiscard mp = false := hnone _ hdiscard
  have hv' : (s.hw.modMesh (fun m => { m with nodeOut := tmod [] m.nodeOut (cxRouter c) (·.erase mp) })).localVc (cxRouter c) 5 mp.cls = some v := hv
  have hfind : (mp :: rest).find? (fun mp => s.hw.injectDiscard mp || (s.hw.localVc (cxRouter c) 5 mp.cls).isSome) = some mp :=
    List.find?_cons_of_pos (by rw [hv]; exact Bool.or_true _)
  rw [execMeshInject, atUnit_in hc, onHw_next]
  dsimp only
  rw [if_pos ⟨hlow, hsafe⟩, Hw.nodeInject]
  dsimp only
  rw [hout, hfind]
  dsimp only
  rw [if_neg (by rw [hnone']; decide), hv']

/-! ### Relays -/

/-- Each mesh packet of one packet's entry has the base's kind and targets. -/
theorem meshParts_fields {base q : MeshPkt} (hq : q ∈ meshParts base) : q.kind = base.kind ∧ q.mask = base.mask := by
  have hseal : ∀ part last flits, let m := ({ base with part := part, lastPart := last, flits := flits } : MeshPkt).seal
      m.kind = base.kind ∧ m.mask = base.mask := fun _ _ _ => ⟨rfl, rfl⟩
  by_cases hn : base.pkt.len ≤ 4096
  · rw [meshParts, if_pos hn] at hq
    rw [List.mem_singleton.1 hq]
    exact hseal _ _ _
  · rw [meshParts, if_neg hn] at hq
    rcases List.mem_cons.1 hq with hq | hq
    · rw [hq]
      exact hseal _ _ _
    · rw [List.mem_singleton.1 hq]
      exact hseal _ _ _

/-- A leg that is all there and has no port of this complex: the packet takes the relay buffer, and the sweep waits to be injected. -/
theorem execRelaySweep_sweeps {s : State} {c p : Nat} {mp : MeshPkt} (hc : c < 128) (hattach : (s.hw.cx c).attach ≠ .detached) (hrelay : (s.hw.cx c).relayIn = [mp])
    (hpart : mp.part = 0) (hlast : mp.lastPart = true) (hptr : (s.hw.cx c).freePtr c 4 = some p) (hown : (portsOf mp.ports).filter (fun q => decide (s.hw.sendHome q = c)) = [])
    (hsweep : maskOf ((routersOf mp.mask).filter (fun r => decide (r ≠ c))) ≠ 0) :
    let sweep := maskOf ((routersOf mp.mask).filter (fun r => decide (r ≠ c)))
    execRelaySweep c s = .next (s.withHw ((s.hw.modCx c (fun x => {
      x.take p { pkt := mp.pkt, cls := 4, owner := 3, refs := b2n (decide (sweep ≠ 0)), epoch := mp.epoch, relay := some (mp.src, mp.cls), begun := true } with
        relayIn := x.relayIn.filter (fun q => ¬ (q.pkt = mp.pkt ∧ q.src = mp.src)),
        inject := x.inject ++ [{ ptr := some p, parts := meshParts { mp with kind := 4, mask := sweep, src := c, dest := c, part := 0, lastPart := true } }],
        handoff := x.handoff })).countRouter c 14)) := by
  intro sweep
  have hwhole : wholeIn [mp] mp = true := if_pos ⟨hpart, hlast⟩
  rw [execRelaySweep, atUnit_in (by omega), onHw_next]
  dsimp only
  rw [hrelay, List.find?_cons_of_pos hwhole]
  have hmay : ¬ (128 ≤ c ∨ (s.hw.cx c).attach = .detached) := by
    rintro (h | h)
    exacts [Nat.not_le.2 hc h, hattach h]
  dsimp only
  rw [if_neg hmay, hptr]
  dsimp only
  rw [hown, if_neg (by rintro ⟨h, -⟩; exact hsweep h)]
  simp only [hsweep, if_false, if_true]
  rfl

/-- Settles O40. -/
theorem injectionAndRelays : Obligations.InjectionAndRelays := by
  unfold Obligations.InjectionAndRelays
  intro s c h x input
  refine ⟨fun mp v rest hc hattach hsafe hinject hdiscard hv => ⟨_, execMeshInject_enters hc hattach hsafe hinject hdiscard hv, ?_, ?_⟩,
    fun mp rest hc hattach hsafe hinject hdiscard => execMeshInject_discarded hc hattach hsafe hinject hdiscard, fun hc hidle => execMeshInject_idle hc hidle,
    fun mp v rest hlow hc hsafe hout hdiscard hv => ⟨_, execMeshInject_node hlow hc hsafe hout hdiscard hv, enterLocal_vcs _ _ 5 v mp, ?_⟩,
    fun mp p hc hattach hrelay hpart hlast hptr hown hsweep => ?_, fun mp rest hc hcredits => ?_⟩
  · exact enterLocal_vcs _ _ _ v mp
  · rw [cx_modCx, enterLocal_cx, cx_modCx]
    exact congrArg (fun l => l.eraseIdx 0) hinject
  · have hread : tget [] (tmod [] h.mesh.nodeOut (cxRouter c) (·.erase mp)) (cxRouter c) = (tget [] h.mesh.nodeOut (cxRouter c)).erase mp := tget_tput _ _ _ _
    exact hread.trans (by rw [hout, List.erase_cons_head])
  · have hown' : (portsOf mp.ports).filter (fun q => decide (s.hw.sendHome q = c)) = [] := List.filter_eq_nil_iff.2 (fun q hq => by simpa using hown q hq)
    refine ⟨_, execRelaySweep_sweeps hc hattach hrelay hpart hlast hptr hown' hsweep, ?_, ?_, ?_⟩
    · rw [cx_countRouter, cx_modCx]
      dsimp only
      rw [hrelay, List.filter_cons_of_neg (by simp)]
      rfl
    · refine ⟨{ pkt := mp.pkt, cls := ptrClass p, owner := 3, refs := 1, epoch := mp.epoch, relay := some (mp.src, mp.cls), begun := true }, ?_, rfl, rfl, rfl⟩
      rw [Hw.buf?, cx_countRouter, cx_modCx, decide_eq_true hsweep]
      exact tget?_tput _ _ _
    · rw [cx_countRouter, cx_modCx]
      exact ⟨_, rfl, rfl, fun q hq => meshParts_fields hq⟩
  · rw [exec_relayCreditReceive, execRelayCreditReceive, atUnit_in hc, onHw_next]
    refine congrArg (fun h => Host.Outcome.next (s.withHw h)) (modCx_congr ?_)
    rw [hcredits]

end Sys2Proof.Machine
end

section
/-!
The selection of a packet for the link (R113, R192, R196, R467).
-/

namespace Sys2Proof.Machine
open Sys2Proof

/-! ### Giving a buffer back -/

theorem release_ports (h : Hw) (c p : Nat) (b : Buf) : (h.release c p b).ports = h.ports := by
  unfold Hw.release
  exact foldl_preserves (P := fun h' : Hw => h'.ports = h.ports) (f := fun h m => h.renameEarly c m) (b := h.setCx c _) (fun _ _ hports => hports) _ rfl

/-- A reference dropped by its owner, or by a unit that may free the buffer, touches no port. -/
theorem dropRef_ports {h : Hw} {c p by_ : Nat} {b : Buf} (port : Option Nat) (hok : h.ptrOk c p = true) (hb : h.buf? c p = some b) (howner : ownerMatches b.owner by_ = true) :
    (h.dropRef c p by_ port).ports = h.ports := by
  rw [Hw.dropRef, if_neg (not_not.2 hok), hb]
  dsimp only
  rw [if_pos howner]
  split
  · rfl
  · exact release_ports h c p b

/-- A port, but for the cells it has freed. -/
def Port.ButFreed (x y : Port) : Prop := { y with link := { y.link with freed := x.link.freed } } = x

theorem Port.ButFreed.fields {x y : Port} (hfreed : x.ButFreed y) : y.queues = x.queues ∧ y.link.held = x.link.held ∧ y.link.txPkts = x.link.txPkts := by
  rw [← hfreed]
  exact ⟨rfl, rfl, rfl⟩

theorem butFreed_freeCells (h : Hw) (q cls n p : Nat) : (h.port p).ButFreed ((h.freeCells q cls n).port p) := by
  by_cases hq : p = q
  · subst hq
    rw [Hw.freeCells, Hw.modLink, port_modPort]
    rfl
  · rw [Hw.freeCells, Hw.modLink, port_modPort_ne h _ hq]
    rfl

theorem port_of_ports {h h' : Hw} (hports : h'.ports = h.ports) (p : Nat) : h'.port p = h.port p := by rw [Hw.port, hports]; rfl

theorem dropInjected_port {h : Hw} {c ptr by_ : Nat} {b : Buf} (port : Option Nat) (hok : h.ptrOk c ptr = true) (hb : h.buf? c ptr = some b) (howner : ownerMatches b.owner by_ = true)
    (p : Nat) : (h.port p).ButFreed ((h.dropInjected c ptr by_ port).port p) := by
  have hports := dropRef_ports port hok hb howner
  rw [Hw.dropInjected, hb]
  dsimp only
  generalize h.dropRef c ptr by_ port = h1 at hports ⊢
  rw [← port_of_ports hports p]
  split
  · rfl
  · generalize hfree : (if b.ingress < 264 then h1.freeCells b.ingress b.pkt.cls b.pkt.cells else h1) = h2
    have hkeep : (h1.port p).ButFreed (h2.port p) := by
      rw [← hfree]
      split
      · exact butFreed_freeCells _ _ _ _ p
      · rfl
    split
    · exact hkeep
    · exact hkeep

/-! ### Selection -/

section
variable {s : State} {p : Nat} (hp : p < 264) (hlehr : s.hw.inLehr = false)
include hp hlehr

theorem execPacketSelect_awake : execPacketSelect p s = .next (s.withHw (if (s.hw.port p).link.txPkts ≠ [] then s.hw.discardWinnowed p else s.hw.selectOne p)) := by
  rw [execPacketSelect, atUnit_in hp, onHw_next, if_neg (by rw [hlehr]; decide)]

end

theorem emptied_keeps (x : Port) (q : Nat) : ((x.emptied q).queue q).entries = (x.queue q).entries ∧ ((x.emptied q).queue q).tokens = (x.queue q).tokens ∧
    (x.emptied q).link = x.link := by
  have hclass : ∀ (x : Port) (c d : Nat) (f : Bool), (x.setClass c d f).queues = x.queues ∧ (x.setClass c d f).link = x.link := by
    intro x c d f
    unfold Port.setClass
    split <;> exact ⟨rfl, rfl⟩
  have hqueue : ∀ (x : Port) (f : Queue → Queue), (x.modQueue q f).queue q = f (x.queue q) := fun x f => by simp [Port.queue, Port.modQueue]
  unfold Port.emptied
  split
  · exact ⟨rfl, rfl, rfl⟩
  · dsimp only
    split
    · rw [hqueue]
      exact ⟨rfl, rfl, rfl⟩
    · obtain ⟨hqueues, hlink⟩ := hclass (x.modQueue q (fun u => { u with deficit := 0, fresh := true })) (q / 16) 0 true
      rw [Port.queue, hqueues, hlink]
      have hread := hqueue x (fun u => { u with deficit := 0, fresh := true })
      rw [Port.queue] at hread
      rw [hread]
      exact ⟨rfl, rfl, rfl⟩

/-- A port whose queue q has lost its head, a packet k of counted length l, to the link: the bucket and the credits are charged with it. -/
def Port.charged (x : Port) (q l : Nat) (rest : List QEntry) (k : Pkt) : Port :=
  let x := (x.modQueue q (fun u => { u with
    entries := rest, tokens := if u.shaper.enable then u.tokens - (l : Int) * 65536 else u.tokens,
    txPackets := sat64 (u.txPackets + 1), txBytes := sat64 (u.txBytes + l) })).emptied q
  { x with link := { x.link with
    txPkts := x.link.txPkts ++ [{ pkt := k, rest := k.unitBytes }],
    held := lmod 0 x.link.held k.cls (· - (k.cells : Int)), outstanding := lmod 0 x.link.outstanding k.cls (· + k.cells) } }

theorem charged_fields (x : Port) (q l : Nat) (rest : List QEntry) (k : Pkt) : let y := x.charged q l rest k
    (y.queue q).entries = rest ∧ (y.queue q).tokens = (if (x.queue q).shaper.enable then (x.queue q).tokens - (l : Int) * 65536 else (x.queue q).tokens) ∧
      y.link.held = lmod 0 x.link.held k.cls (· - (k.cells : Int)) ∧ y.link.txPkts = x.link.txPkts ++ [{ pkt := k, rest := k.unitBytes }] := by
  intro y
  have hqueue : ∀ (x : Port) (f : Queue → Queue), (x.modQueue q f).queue q = f (x.queue q) := fun x f => by simp [Port.queue, Port.modQueue]
  obtain ⟨hentries, htokens, hlink⟩ := emptied_keeps (x.modQueue q (fun u => { u with
    entries := rest, tokens := if u.shaper.enable then u.tokens - (l : Int) * 65536 else u.tokens,
    txPackets := sat64 (u.txPackets + 1), txBytes := sat64 (u.txBytes + l) })) q
  rw [hqueue] at hentries htokens
  exact ⟨hentries, htokens, congrArg (fun k' : Link => lmod 0 k'.held k.cls (· - (k.cells : Int))) hlink, congrArg (fun k' : Link => k'.txPkts ++ [{ pkt := k, rest := k.unitBytes }]) hlink⟩

section
variable {h : Hw} {p q : Nat} {e : QEntry} {rest : List QEntry} {b : Buf} (hentries : ((h.port p).queue q).entries = e :: rest)
  (hb : h.buf? (h.home p) e.ptr = some b) (hok : h.ptrOk (h.home p) e.ptr = true) (howner : ownerMatches b.owner (egressOwner p) = true)
include hentries hb hok

theorem takeHead_eq : h.takeHead p q =
    (h.modPort p (fun x => x.charged q ((h.port p).counted b.pkt) rest b.pkt)).dropInjected (h.home p) e.ptr (egressOwner p) (some p) := by
  rw [Hw.takeHead, hentries]
  dsimp only
  rw [if_pos hok, hb]
  rfl

include howner

/-- What the head of a queue leaves when it is selected. -/
theorem takeHead_port : let y := h.port p
    let x := (h.takeHead p q).port p
    (x.queue q).entries = rest ∧ (x.queue q).tokens = (if (y.queue q).shaper.enable then (y.queue q).tokens - (y.counted b.pkt : Int) * 65536 else (y.queue q).tokens) ∧
      x.link.held = lmod 0 y.link.held b.pkt.cls (· - (b.pkt.cells : Int)) ∧ x.link.txPkts = y.link.txPkts ++ [{ pkt := b.pkt, rest := b.pkt.unitBytes }] := by
  intro y x
  obtain ⟨hrest, htokens, hheld, htx⟩ := charged_fields y q (y.counted b.pkt) rest b.pkt
  have hfreed := dropInjected_port (h := h.modPort p (fun x => x.charged q ((h.port p).counted b.pkt) rest b.pkt)) (some p) hok hb howner p
  rw [← takeHead_eq hentries hb hok, port_modPort] at hfreed
  obtain ⟨hqueues, hheld', htx'⟩ := hfreed.fields
  have hqueue : x.queue q = (y.charged q (y.counted b.pkt) rest b.pkt).queue q := by
    rw [Port.queue]
    exact congrArg (fun t => (tget? t q).getD (queueInit q)) hqueues
  rw [hqueue]
  exact ⟨hrest, htokens, hheld'.trans hheld, htx'.trans htx⟩

end

/-- Settles O41. -/
theorem packetSelected : Obligations.PacketSelected := by
  unfold Obligations.PacketSelected
  refine ⟨fun s p hp hlehr => ?_, fun h p q e rest b hentries hb hok howner => ?_, fun h p n room hroom => ?_⟩
  · have hrun := execPacketSelect_awake hp hlehr
    intro h may
    have hone : (s.hw.port p).link.txPkts = [] → exec (.packetSelect p) s = .next (s.withHw (s.hw.selectOne p)) := fun hnone => hrun.trans (by rw [if_neg (not_not.2 hnone)])
    refine ⟨fun hmay x q hq => ?_, fun hmay hq => ?_, fun hmay => ?_⟩
    · obtain ⟨hup, hsafe, hnone⟩ := hmay
      refine (hone hnone).trans (congrArg (fun h => Host.Outcome.next (s.withHw h)) ((if_neg (fun hor => hor.elim (fun hn => hn hup) hsafe)).trans ?_))
      rw [hq]
    · obtain ⟨hup, hsafe, hnone⟩ := hmay
      refine (hone hnone).trans (congrArg (fun h => Host.Outcome.next (s.withHw h)) ((if_neg (fun hor => hor.elim (fun hn => hn hup) hsafe)).trans ?_))
      rw [hq]
    · by_cases hnone : (s.hw.port p).link.txPkts = []
      · refine (hone hnone).trans (congrArg (fun h => Host.Outcome.next (s.withHw h)) (if_pos ?_))
        by_contra hneither
        obtain ⟨hup, hsafe⟩ := not_or.1 hneither
        exact hmay ⟨not_not.1 hup, hsafe, hnone⟩
      · exact hrun.trans (by rw [if_pos hnone])
  · intro y bytes h'
    obtain ⟨hrest, htokens, hheld, htx⟩ := takeHead_port hentries hb hok howner
    refine ⟨hrest, htokens.trans ?_, hheld, htx⟩
    split
    · rfl
    · exact (Int.sub_zero _).symm
  · cases n with
    | zero => rfl
    | succ n => exact if_pos hroom

end Sys2Proof.Machine
end

section
/-!
The transmission of link blocks, their replay and the timeout (R104, R107, R110, R111, R467).
-/

namespace Sys2Proof.Machine
open Sys2Proof

/-! ### The block that is framed -/

/-- The header word of a block sent new: its kind, the kind of its unit 0, FIRST_START and its sequence number. -/
def headWord (kind kind0 first lseq : Nat) : Word := w32 (kind * 2 ^ 30 + kind0 * 2 ^ 27 + first * 2 ^ 20 + lseq)

theorem headWord_toNat {kind kind0 first lseq : Nat} (hkind : kind ≤ 2) (hkind0 : kind0 ≤ 2) (hfirst : first ≤ 64) (hlseq : lseq < 2 ^ 16) :
    (headWord kind kind0 first lseq).toNat = kind * 2 ^ 30 + kind0 * 2 ^ 27 + first * 2 ^ 20 + lseq := w32_toNat_of_lt (by omega)

/-- A block with a header word reads back what went into it. -/
theorem headWord_fields {b : LinkBlock} {kind kind0 first lseq : Nat} (hb : b.h0 = headWord kind kind0 first lseq) (hkind : kind ≤ 2) (hkind0 : kind0 ≤ 2) (hfirst : first ≤ 64)
    (hlseq : lseq < 2 ^ 16) : b.kind = kind ∧ b.replay = false ∧ b.unit0Kind = kind0 ∧ b.firstStart = first ∧ b.lseq = lseq := by
  have hword := headWord_toNat hkind hkind0 hfirst hlseq
  simp only [LinkBlock.kind, LinkBlock.replay, LinkBlock.unit0Kind, LinkBlock.firstStart, LinkBlock.lseq, hb, bits, hword, BitVec.getLsbD, Nat.testBit_eq_decide_div_mod_eq,
    Nat.shiftRight_eq_div_pow, decide_eq_false_iff_not]
  omega

/-- The acknowledgement fields that a block with the words of now shows. -/
theorem ackWords_fields {b : LinkBlock} {k : Link} (hb : b.h1 = k.ackWords.1) :
    b.ackSeq = (k.expect + 2 ^ 16 - 1) % 2 ^ 16 ∧ b.nak = k.nak ∧ b.pair = k.pairBit := by
  have hlt (x : Bool) : b2n x ≤ 1 := by cases x <;> decide
  have hbit (x : Bool) : decide (b2n x = 1) = x := by cases x <;> rfl
  have hword : b.h1.toNat = (k.expect + 2 ^ 16 - 1) % 2 ^ 16 * 2 ^ 16 + b2n k.ackValid * 2 ^ 15 + b2n k.nak * 2 ^ 14 + b2n k.pairBit * 2 ^ 13 := by
    have hvalid := hlt k.ackValid
    have hnak := hlt k.nak
    have hpair := hlt k.pairBit
    rw [hb]
    exact w32_toNat_of_lt (by omega)
  have hvalid := hlt k.ackValid
  have hnak := hlt k.nak
  have hpair := hlt k.pairBit
  refine ⟨?_, ?_, ?_⟩
  · rw [LinkBlock.ackSeq, bits, hword, Nat.shiftRight_eq_div_pow]
    omega
  · rw [LinkBlock.nak, BitVec.getLsbD, hword, Nat.testBit_eq_decide_div_mod_eq]
    conv_rhs => rw [← hbit k.nak]
    congr 1
    apply propext
    omega
  · rw [LinkBlock.pair, BitVec.getLsbD, hword, Nat.testBit_eq_decide_div_mod_eq]
    conv_rhs => rw [← hbit k.pairBit]
    congr 1
    apply propext
    omega

/-- A sealed block is good when its fields are. -/
theorem good_seal {b : LinkBlock} (hkind : b.kind = 1 ∨ b.kind = 2) (hunit : b.unit0Kind ≠ 3) (hfirst : b.firstStart ≤ 64) : b.seal.good = true := by
  have hcrc : crc32 b.seal.bytes = b.seal.crc.toNat := (w32_toNat_of_lt (crc32_lt b.bytes)).symm
  exact decide_eq_true ⟨hcrc, hkind, hunit, hfirst⟩

theorem firstStartOf_le {off : Nat} (hoff : off ≤ 64) (q : List TxPkt) : firstStartOf off q ≤ 64 := by
  unfold firstStartOf
  split
  · split <;> omega
  · exact hoff

/-! ### What a port has sent -/

/-- A link, but for the cells it has sent. -/
def Link.ButSent (k k' : Link) : Prop := { k' with sentCells := k.sentCells } = k

theorem txCount_butSent (h : Hw) (p : Nat) (q : Pkt) : (h.port p).link.ButSent ((Hw.txCount p h q).port p).link := by
  rw [Hw.txCount, Hw.count, port_modPort, Hw.count, port_modPort]
  dsimp only
  rw [link_modLink]
  rfl

theorem txCounts_butSent (h : Hw) (p : Nat) (l : List Pkt) : (h.port p).link.ButSent ((l.foldl (Hw.txCount p) h).port p).link := by
  refine foldl_preserves (P := fun h' : Hw => (h.port p).link.ButSent (h'.port p).link) (f := Hw.txCount p) (b := h) ?_ l rfl
  intro h' q hsent
  have hone := txCount_butSent h' p q
  simp only [Link.ButSent] at hsent hone ⊢
  rw [← hone] at hsent
  exact hsent

/-- A block that a port has sent new: it is good, it carries the link's sequence number, acknowledgement and credit pair, and its kind says whether it is kept. -/
def Link.SentNew (k : Link) (kind : Nat) (b : LinkBlock) : Prop :=
  b.good = true ∧ b.lseq = k.lseq ∧ b.ackSeq = (k.expect + 2 ^ 16 - 1) % 2 ^ 16 ∧ b.nak = k.nak ∧ b.pair = k.pairBit ∧ b.replay = false ∧ b.kind = kind

theorem sentNew_seal {k : Link} {kind kind0 first : Nat} {b : LinkBlock} (hkind : kind = 1 ∨ kind = 2) (hkind0 : kind0 ≤ 2) (hfirst : first ≤ 64) (hlseq : k.lseq < 2 ^ 16)
    (hhead : b.h0 = headWord kind kind0 first k.lseq) (hacks : b.h1 = k.ackWords.1) : k.SentNew kind b.seal := by
  obtain ⟨hbkind, hbreplay, hbunit, hbfirst, hblseq⟩ := headWord_fields hhead (by omega) hkind0 hfirst hlseq
  obtain ⟨hack, hnak, hpair⟩ := ackWords_fields hacks
  exact ⟨good_seal (by omega) (by omega) (by omega), hblseq, hack, hnak, hpair, hbreplay, hbkind⟩

theorem admitMgmt_none {k : Link} (hmgmt : k.txMgmt = []) : k.admitMgmt = k := by rw [Link.admitMgmt, hmgmt]

theorem port_draw (h : Hw) (p : Nat) : h.draw.1.port p = h.port p := rfl

/-- Whether a port's next block is SEQUENCED. -/
def Hw.sequences (h : Hw) (p : Nat) : Bool := decide ((h.port p).link.txPkts ≠ [] ∧ (h.port p).link.kept.length < 512 ∧ ¬ decide (h.faults.state = .safe))

/-- What a port has sent with no management message waiting: one block, kept when it is SEQUENCED. -/
theorem sendBlock_link (h : Hw) (p : Nat) (hmgmt : (h.port p).link.txMgmt = []) (hlseq : (h.port p).link.lseq < 2 ^ 16) : ∃ b,
    let k := (h.port p).link
    let k' := ((h.sendBlock p).port p).link
    k.SentNew (if h.sequences p then 1 else 2) b ∧ k'.sentBlocks = [b] ∧ k'.pairBit = !k.pairBit ∧
    (h.sequences p = true → k'.lseq = (k.lseq + 1) % 2 ^ 16 ∧ ∃ q, k'.kept = k.kept ++ [q] ∧ q.blk = b ∧ q.lseq = k.lseq) ∧
    (h.sequences p = false → k'.lseq = k.lseq ∧ k'.kept = k.kept ∧ k'.txPkts = k.txPkts) := by
  obtain ⟨f, hf⟩ : ∃ f, f = Hw.sendBlock := ⟨_, rfl⟩
  rw [← hf]
  delta Hw.sendBlock at hf
  rw [hf]
  beta_reduce
  clear hf f
  dsimp only
  generalize hd : (h.modLink p _).draw = d
  obtain ⟨sh, hlink⟩ : ∃ sh, (d.1.port p).link = { (h.port p).link with shown := sh } := by
    rw [← hd, port_draw]
    by_cases hhold : h.withholds p = true
    · refine ⟨(h.port p).link.shown, (link_modLink h p _).trans ?_⟩
      simp only [hhold, if_true, admitMgmt_none hmgmt, ite_self]
    · refine ⟨(h.port p).link.freed, (link_modLink h p _).trans ?_⟩
      simp only [hhold, Bool.false_eq_true, if_false]
      split
      · rfl
      · exact admitMgmt_none hmgmt
  clear hd
  obtain ⟨h1, off⟩ := d
  dsimp only at hlink ⊢
  rw [hlink]
  dsimp only
  have hseq : decide ((h.port p).link.txPkts ≠ [] ∧ (h.port p).link.kept.length < 512 ∧ ¬ decide (h.faults.state = .safe) = true) = h.sequences p := rfl
  rw [hseq]
  generalize h.sequences p = seqd
  clear hseq
  generalize hunit0 : (if (h.port p).link.sendMarker = true ∧ ¬ h1.isV16 p = true then ((1 : Nat), markerUnit h1.time _ off)
    else if (h.port p).link.sendNotice ≠ 0 then (2, padUnit (beBytes (w32 ((h.port p).link.sendNotice * 2 ^ 24)))) else (0, [])) = ku
  have hkind0 : ku.1 ≤ 2 := by
    rw [← hunit0]
    split
    · exact Nat.le_succ 1
    · split
      · exact Nat.le_refl 2
      · exact Nat.zero_le 2
  obtain ⟨kind0, unit0⟩ := ku
  generalize hacks : Link.ackWords _ = acks
  obtain ⟨w1, w2⟩ := acks
  dsimp only at hkind0 ⊢
  generalize hfill : (if seqd = true then fillUnits _ _ else ([], (h.port p).link.txPkts, [], [])) = units
  obtain ⟨us, rest, inside, ended⟩ := units
  dsimp only
  generalize hfirst : (if seqd = true then firstStartOf _ _ else _) = first
  have hfirst64 : first ≤ 64 := by
    have hused : (if kind0 = 0 then 0 else 1) ≤ 64 := by split <;> omega
    rw [← hfirst]
    split
    · exact firstStartOf_le hused _
    · exact hused
  generalize hblk : LinkBlock.seal _ = b
  have hnew : (h.port p).link.SentNew (if seqd = true then 1 else 2) b := by
    rw [← hblk]
    exact sentNew_seal (by split <;> simp) hkind0 hfirst64 hlseq rfl (congrArg Prod.fst hacks).symm
  generalize hh2 : Hw.modLanes _ _ _ = h2
  have hsent := txCounts_butSent h2 p ended
  have hlink2 := congrArg (fun x : Hw => (x.port p).link) hh2
  rw [Hw.modLanes, port_modPort] at hlink2
  dsimp only at hlink2
  rw [link_modLink, hlink] at hlink2
  dsimp only at hlink2
  rw [← hlink2] at hsent
  clear hlink2 hh2
  refine ⟨b, hnew, congrArg Link.sentBlocks hsent, (congrArg Link.pairBit hsent).trans ?_, ?_, ?_⟩
  · cases (h.port p).link.pairBit <;> rfl
  · intro hseqd
    refine ⟨(congrArg Link.lseq hsent).trans (if_pos hseqd), _, (congrArg Link.kept hsent).trans (if_pos hseqd), rfl, rfl⟩
  · intro hseqd
    have hnot : ¬ seqd = true := by rw [hseqd]; exact Bool.false_ne_true
    rw [if_neg hnot] at hfill
    exact ⟨(congrArg Link.lseq hsent).trans (if_neg hnot), (congrArg Link.kept hsent).trans (if_neg hnot),
      (congrArg Link.txPkts hsent).trans (congrArg (fun u => u.2.1) hfill).symm⟩

/-! ### The blocks of a replay -/

/-- The kept block `q` as it is resent, `i` blocks into a replay. -/
def Link.resentAt (k : Link) (i : Nat) (q : Kept) : LinkBlock :=
  let acks := { k with pairBit := k.pairBit ^^ decide (i % 2 = 1) }.ackWords
  ({ q.blk with h0 := q.blk.h0 ||| w32 (2 ^ 29), h1 := acks.1, h2 := acks.2 } : LinkBlock).seal

theorem resend_length (k : Link) (l : List Kept) : (k.resend l).length = l.length := by
  induction l generalizing k with
  | nil => rfl
  | cons q l ih => exact congrArg (· + 1) (ih _)

theorem xor_parity (x : Bool) (i : Nat) : ((!x) ^^ decide (i % 2 = 1)) = (x ^^ decide ((i + 1) % 2 = 1)) := by
  by_cases hodd : i % 2 = 1
  · have heven : ¬ (i + 1) % 2 = 1 := by omega
    simp only [hodd, heven, decide_true, decide_false]
    cases x <;> rfl
  · have hodd' : (i + 1) % 2 = 1 := by omega
    simp only [hodd, hodd', decide_true, decide_false]
    cases x <;> rfl

theorem resend_get? {k : Link} {l : List Kept} {i : Nat} {q : Kept} (hq : l[i]? = some q) : (k.resend l)[i]? = some (k.resentAt i q) := by
  induction l generalizing k i with
  | nil => cases hq
  | cons q' l ih =>
    cases i with
    | zero =>
      obtain rfl : q' = q := Option.some.inj hq
      rw [Link.resentAt, show decide (0 % 2 = 1) = false from rfl, Bool.xor_false]
      rfl
    | succ i =>
      refine (ih (k := { k with pairBit := !k.pairBit }) hq).trans ?_
      rw [Link.resentAt, Link.resentAt, xor_parity]

/-- The link of a port whose replay has been taken up. -/
def Hw.replayTaken (h : Hw) (p : Nat) : Hw := h.modLink p (fun k => { k with replayFrom := none })

/-- A link as its next block shows it: the freed cells are told, unless the port withholds them. -/
def Hw.shownLink (h : Hw) (p : Nat) : Link := if h.withholds p then (h.port p).link else { (h.port p).link with shown := (h.port p).link.freed }

/-- The link `x` once the blocks of `k` that `again` names have been resent. -/
def Link.resent (k : Link) (again : Kept → Bool) (x : Link) : Link :=
  { x with
    shown := k.shown, sentBlocks := k.resend (k.kept.filter again), pairBit := x.pairBit ^^ decide ((k.resend (k.kept.filter again)).length % 2 = 1),
    kept := x.kept.map (fun q => if again q then { q with resent := q.resent + 1 } else q) }

/-- Whether a kept block is among those that a replay from `n` sends again. -/
def Kept.again (n : Nat) (q : Kept) : Bool := (q.lseq + 2 ^ 16 - n) % 2 ^ 16 < 512

section
variable {s : State} {p n : Nat} (hp : p < 264) (hlehr : s.hw.inLehr = false) (hup : (s.hw.port p).link.up = true) (hreplay : (s.hw.port p).link.replayFrom = some n)
include hp hlehr hup hreplay

theorem linkReplay_spent (hspent : (s.hw.port p).link.kept.any (fun q => q.again n && decide (3 ≤ q.resent)) = true) :
    exec (.linkReplay p) s = .next (s.withHw (((s.hw.replayTaken p).report 0x902 1 (unitNo 14 p) 3).fastRetrain p true)) := by
  rw [exec_linkReplay, execLinkReplay, atUnit_in hp, onHw_next]
  dsimp only
  rw [hlehr, if_neg Bool.false_ne_true, hreplay]
  exact congrArg (fun x => Host.Outcome.next (s.withHw x)) ((if_neg (not_not.2 hup)).trans (if_pos hspent))

theorem linkReplay_resends (hfresh : ¬ (s.hw.port p).link.kept.any (fun q => q.again n && decide (3 ≤ q.resent)) = true) (hany : (s.hw.port p).link.kept.any (Kept.again n) = true) :
    exec (.linkReplay p) s = .next (s.withHw (((s.hw.replayTaken p).report 0x901 0 (unitNo 14 p) 1).modLink p ((s.hw.shownLink p).resent (Kept.again n)))) := by
  rw [exec_linkReplay, execLinkReplay, atUnit_in hp, onHw_next]
  dsimp only [Hw.shownLink]
  rw [hlehr, if_neg Bool.false_ne_true, hreplay]
  refine congrArg (fun x => Host.Outcome.next (s.withHw x)) ((if_neg (not_not.2 hup)).trans ((if_neg hfresh).trans ((if_pos hany).trans ?_)))
  have hholds : (s.hw.modLink p fun k => { k with replayFrom := none }).withholds p = s.hw.withholds p := by
    rw [Hw.withholds, Hw.withholds, Hw.modLink, port_modPort]
    rfl
  rw [hholds]
  rfl

end

theorem replayTaken_link (h : Hw) (p : Nat) : ((h.replayTaken p).port p).link = { (h.port p).link with replayFrom := none } := link_modLink h p _

/-- Settles O43: a new block is read off the words it is framed with; a replay's blocks follow the list of those kept; an exhausted replay and a timeout are what they
are said to do. -/
theorem linkTransmission : Obligations.LinkTransmission := by
  intro s p hp hlehr hup h k again g j
  refine ⟨?_, ?_, ?_, ?_⟩
  · intro hawake hreplay
    refine ⟨?_, ?_⟩
    · rw [exec_linkBlockTransmit, execLinkBlockTransmit, atUnit_in hp, onHw_next]
      refine congrArg (fun x => Host.Outcome.next (s.withHw x)) ((if_neg ?_).trans (if_pos hup))
      rw [hlehr, hawake]
      rintro (hf | hf | ⟨-, hf⟩)
      · cases hf
      · cases hf
      · change k.replayFrom.isSome = true at hf
        rw [hreplay] at hf
        cases hf
    · intro hmgmt hlseq _
      obtain ⟨b, ⟨hgood, hblseq, hack, hnak, hpair, hbreplay, hkind⟩, hsent, hpairBit, hseqd, hnull⟩ := sendBlock_link g p hmgmt hlseq
      refine ⟨b, hsent, hgood, hblseq, hack, hnak, hpair, hbreplay, hpairBit, ?_, ?_⟩
      · intro hpkts hkept hsafe
        have hsequences : g.sequences p = true := decide_eq_true ⟨hpkts, hkept, fun hdec => hsafe (of_decide_eq_true hdec)⟩
        exact ⟨hkind.trans (if_pos hsequences), hseqd hsequences⟩
      · intro hcases
        have hsequences : g.sequences p = false := by
          refine decide_eq_false ?_
          rintro ⟨hpkts, hkept, hsafe⟩
          obtain hnone | hmany | hs := hcases
          · exact hpkts hnone
          · exact absurd hkept (Nat.not_lt.2 hmany)
          · exact hsafe (decide_eq_true hs)
        exact ⟨hkind.trans (by rw [hsequences]; rfl), hnull hsequences⟩
  · intro n hreplay hsome hfresh
    have hany : k.kept.any (again n) = true := by
      obtain ⟨q, hq, hagain⟩ := hsome
      exact List.any_eq_true.2 ⟨q, hq, hagain⟩
    have hspent : ¬ k.kept.any (fun q => again n q && decide (3 ≤ q.resent)) = true := by
      intro hex
      obtain ⟨q, hq, hboth⟩ := List.any_eq_true.1 hex
      obtain ⟨hagain, hthree⟩ := Bool.and_eq_true_iff.1 hboth
      exact absurd (hfresh q hq hagain) (Nat.not_lt.2 (of_decide_eq_true hthree))
    have hkept : (h.shownLink p).kept = k.kept := by rw [Hw.shownLink]; split <;> rfl
    have hlink : (((h.replayTaken p).report 0x901 0 (unitNo 14 p) 1).port p).link = { k with replayFrom := none } := by
      rw [port_report]
      exact replayTaken_link h p
    have hlength := resend_length (h.shownLink p) ((h.shownLink p).kept.filter (Kept.again n))
    rw [hkept] at hlength
    refine ⟨_, linkReplay_resends hp hlehr hup hreplay hspent hany, ?_⟩
    rw [link_modLink, Link.resent, hlink, hkept]
    dsimp only
    refine ⟨hlength, ?_, ?_, rfl, rfl, ?_⟩
    · rw [hlength]
      rfl
    · intro i q hq
      refine (resend_get? hq).trans (congrArg some ?_)
      rw [Hw.shownLink]
      split <;> rfl
    · exact report_c0Occ (h.replayTaken p) 0x901 _ 1 [] false true
  · intro n q hreplay hq hagain hthree
    exact linkReplay_spent hp hlehr hup hreplay (List.any_eq_true.2 ⟨q, hq, Bool.and_eq_true_iff.2 ⟨hagain, decide_eq_true hthree⟩⟩)
  · intro q rest hawake hkept
    refine ⟨h.modLink p (fun k => { k with lastNak := none, replayFrom := some q.lseq }), ?_, link_modLink h p _⟩
    rw [exec_replayTimeout, execReplayTimeout, atUnit_in hp, onHw_next]
    refine congrArg (fun x => Host.Outcome.next (s.withHw x)) ((if_neg ?_).trans ?_)
    · rw [hlehr, hawake, hup]
      decide
    · rw [Hw.modLink, Hw.modLink, Hw.modPort, Hw.modPort]
      rw [hkept]

end Sys2Proof.Machine
end

section
/-!
The training of a port, its retrains and its loss (R408 to R410, R412 to R414, R416 to R418).
-/

namespace Sys2Proof.Machine
open Sys2Proof

/-! ### What the shared operations leave of a port -/

theorem port_raise (h : Hw) (code : Nat) (data : List Word) (p : Nat) : (h.raise code data).port p = h.port p := rfl

theorem lanes_modLanes (h : Hw) (p : Nat) (f : Lanes → Lanes) : ((h.modLanes p f).port p).lanes = f (h.port p).lanes := congrArg Port.lanes (port_modPort h p _)

/-- The ports of two states differ in their lanes alone. -/
def Hw.LanesApart (h h' : Hw) : Prop := ∀ q, { (h'.port q) with lanes := (h.port q).lanes } = h.port q

theorem Hw.LanesApart.of_ports {h h' : Hw} (hports : h'.ports = h.ports) : h.LanesApart h' := fun q => by rw [port_of_ports hports q]

theorem Hw.LanesApart.trans {h1 h2 h3 : Hw} (h12 : h1.LanesApart h2) (h23 : h2.LanesApart h3) : h1.LanesApart h3 := by
  intro q
  have hq := h12 q
  rw [← h23 q] at hq
  exact hq

theorem Hw.LanesApart.link {h h' : Hw} (hlanes : h.LanesApart h') (q : Nat) : (h'.port q).link = (h.port q).link := by rw [← hlanes q]

theorem Hw.LanesApart.modLanes (h : Hw) (p : Nat) (f : Lanes → Lanes) : h.LanesApart (h.modLanes p f) := by
  intro q
  by_cases hq : q = p
  · subst hq
    rw [Hw.modLanes, port_modPort]
  · rw [Hw.modLanes, port_modPort_ne h _ hq]

/-! ### A fence and the ports -/

/-- The fence of a unit that is neither a complex nor a router changes no more of a port than its lanes. -/
theorem fenceAction_lanesApart (h : Hw) {u : Nat} (hcx : u / 4096 ≠ 4) (hrouter : u / 4096 ≠ 5) : h.LanesApart (h.fenceAction u) := by
  unfold Hw.fenceAction
  dsimp only
  split
  case h_1 => exact .of_ports rfl
  case h_2 hkind => exact absurd hkind hcx
  case h_3 hkind => exact absurd hkind hrouter
  case h_4 => exact .modLanes h _ _
  case h_5 => exact .modLanes h _ _
  all_goals exact .of_ports rfl

theorem tellExhausted_ports (h : Hw) (row scope : Nat) : (h.tellExhausted row scope).ports = h.ports := by
  unfold Hw.tellExhausted
  split <;> rfl

theorem tellSpare_ports (h : Hw) (u : Nat) : (h.tellSpare u).ports = h.ports := by
  unfold Hw.tellSpare
  split
  · split
    · exact tellExhausted_ports h _ _
    · rfl
  · rfl

theorem checkWorkingSet_ports (h : Hw) : h.checkWorkingSet.ports = h.ports := by
  unfold Hw.checkWorkingSet
  dsimp only
  split
  · rfl
  · split
    · rfl
    · exact report_ports _ _ _ _ _ _ _ _

theorem fenceOne_lanesApart (h : Hw) {u : Nat} (s : Nat) (hcx : u / 4096 ≠ 4) (hrouter : u / 4096 ≠ 5) : h.LanesApart (h.fenceOne u s) := by
  by_cases hfenced : h.isFenced u = true
  · rw [Hw.fenceOne, if_pos hfenced]
    exact .of_ports rfl
  · rw [Hw.fenceOne, if_neg hfenced]
    dsimp only
    rw [if_neg hrouter]
    generalize hmarked : Hw.raise _ _ _ = h1
    have hports : h1.ports = h.ports := by rw [← hmarked]; rfl
    have htold : h.LanesApart (h1.tellSpare u) := .of_ports ((tellSpare_ports h1 u).trans hports)
    exact (htold.trans (fenceAction_lanesApart _ hcx hrouter)).trans (.of_ports (checkWorkingSet_ports _))

theorem loseStack_lanesApart (h : Hw) {k : Nat} (hk : k = 0 ∨ k = 1) (s : Nat) : h.LanesApart (h.loseStack k s) := by
  unfold Hw.loseStack
  split
  · exact .of_ports rfl
  · have hkind : unitNo 10 k / 4096 = 10 := by rw [unitNo]; omega
    have hfence := fenceOne_lanesApart h s (u := unitNo 10 k) (by omega) (by omega)
    exact hfence.trans (.of_ports (report_ports _ _ _ _ _ _ _ _))

theorem checkStacks_lanesApart (h : Hw) (s : Nat) : h.LanesApart (h.checkStacks s) := by
  unfold Hw.checkStacks
  have hone (h : Hw) {k : Nat} (hk : k = 0 ∨ k = 1) :
      h.LanesApart (if 1 < h.fencedIn 8 k ∨ (List.range 4).all (fun n => h.routerOut (nodeRouter (4 * k + n))) then h.loseStack k s else h) := by
    split
    · exact loseStack_lanesApart h hk s
    · exact .of_ports rfl
  exact (hone h (.inl rfl)).trans (hone _ (.inr rfl))

theorem cascade_none (h : Hw) {u : Nat} (hkind : 5 < u / 4096) : h.cascade u = none := by
  unfold Hw.cascade
  dsimp only
  split
  case h_4 => rfl
  all_goals omega

/-- A unit whose class has no cascade to a complex: beside the lanes, its fence leaves the ports alone. -/
theorem fence_lanesApart (h : Hw) {u : Nat} (s : Nat) (hkind : 5 < u / 4096) : h.LanesApart (h.fence u s) := by
  have hboth := (fenceOne_lanesApart h s (u := u) (by omega) (by omega)).trans (checkStacks_lanesApart _ s)
  unfold Hw.fence
  dsimp only
  rw [cascade_none _ hkind]
  exact hboth

/-! ### Retrains and lost links -/

theorem dropChannel_lanesApart (h : Hw) {p f : Nat} (hp : p < 264) (hf : f < 5) (forced : Bool) : h.LanesApart (h.dropChannel p f forced) := by
  unfold Hw.dropChannel
  dsimp only
  generalize hu : (if (h.port p).lanes.electrical = true then unitNo 7 (4 * (p - 256) + f) else unitNo 6 (5 * p + f)) = u
  generalize (if (h.port p).lanes.electrical = true then 0x905 else 0x904) = src
  have hkind : 5 < u / 4096 := by
    rw [← hu]
    split <;> rw [unitNo] <;> omega
  have hfence := (Hw.LanesApart.of_ports (report_ports h src 1 u 3 [] forced false)).trans (fence_lanesApart _ src hkind)
  exact (hfence.trans (.modLanes _ p _)).trans (.of_ports (raise_ports _ _ _))

theorem substituteChannel_lanesApart (h : Hw) {p : Nat} (hp : p < 264) (must : Bool) : h.LanesApart (h.substituteChannel p must) := by
  have hmapped {f : Nat} (hf : f ∈ (List.range (chanCount (h.port p).lanes)).filter (fun i => decide ((h.port p).lanes.rxMap.getD i 7 < 4))) : f < 5 := by
    have hrange := List.mem_range.1 (List.mem_filter.1 hf).1
    have hcount : chanCount (h.port p).lanes ≤ 5 := by rw [chanCount]; split <;> omega
    omega
  unfold Hw.substituteChannel
  dsimp only
  split
  case h_1 f hfind => exact dropChannel_lanesApart h hp (hmapped (List.mem_of_find?_eq_some hfind)) _
  case h_2 =>
    split
    · exact .of_ports rfl
    · split
      · exact .of_ports rfl
      · next f hget => exact dropChannel_lanesApart h.draw.1 hp (hmapped (List.mem_of_getElem? hget)) _

/-- A FAST retrain keeps what the link layer kept. -/
theorem fastRetrain_port (h : Hw) {p : Nat} (hp : p < 264) (must : Bool) (hup : (h.port p).lanes.state = 2) :
    ((h.fastRetrain p must).port p).lanes.state = 3 ∧ ((h.fastRetrain p must).port p).link = { (h.port p).link with up := false, sendNotice := 2, paramsEchoed := false } := by
  have hlanes : h.LanesApart ((h.countLane p 1).substituteChannel p must) := (Hw.LanesApart.modLanes h p _).trans (substituteChannel_lanesApart _ hp must)
  rw [Hw.fastRetrain]
  dsimp only
  rw [if_neg (not_not.2 hup)]
  generalize (h.countLane p 1).substituteChannel p must = h1 at hlanes ⊢
  refine ⟨?_, ?_⟩
  · rw [Hw.modLink, port_modPort]
    dsimp only
    rw [lanes_modLanes]
  · rw [link_modLink, Hw.modLanes, port_modPort]
    dsimp only
    rw [hlanes.link p]

/-- A blind bring-up trains a port that is enabled, with a fresh link layer. -/
theorem blindBringUp_port (h : Hw) (p : Nat) :
    let l := (h.port p).lanes
    let x := (h.blindBringUp p).port p
    x.lanes.state = (if (l.next.getD l.cfg).enable then 1 else 0) ∧ x.lanes.rxMap = startMap l ∧ x.link = {} ∧ x.absent = (h.port p).absent ∧ x.glean = (h.port p).glean := by
  have hport : (h.random 32).1.port p = h.port p := rfl
  unfold Hw.blindBringUp
  dsimp only
  rw [hport]
  split
  · rw [Hw.countLane, Hw.modLanes, port_modPort, port_setPort]
    exact ⟨rfl, rfl, rfl, rfl, rfl⟩
  · rw [port_setPort]
    exact ⟨rfl, rfl, rfl, rfl, rfl⟩

/-- A port that becomes absent loses its link layer and its discovery. -/
theorem portAbsent_port (h : Hw) (p cause : Nat) :
    let l := (h.port p).lanes
    let x := (h.portAbsent p cause).port p
    x.absent = true ∧ x.link = {} ∧ x.glean.state = 0 ∧ x.lanes.cfg = l.cfg ∧ x.lanes.next = l.next := by
  unfold Hw.portAbsent
  dsimp only
  generalize hgone : (if lostKept (h.port p).link = [] then h else h.count p 15 _) = h1
  generalize hshort : (if (h.port p).link.unstarted.length = 0 then h1 else h1.count p 23 _) = h2
  generalize hwas : (if decide ((h.port p).lanes.state = 2 ∨ (h.port p).lanes.state = 3) = true then h2.countLane p 3 else h2) = h3
  have hlanes1 : (h1.port p).lanes = (h.port p).lanes := by
    rw [← hgone]
    split
    · rfl
    · rw [Hw.count, port_modPort]
  have hlanes2 : (h2.port p).lanes = (h.port p).lanes := by
    rw [← hshort, ← hlanes1]
    split
    · rfl
    · rw [Hw.count, port_modPort]
  have hlanes3 : (h3.port p).lanes.cfg = (h.port p).lanes.cfg ∧ (h3.port p).lanes.next = (h.port p).lanes.next := by
    rw [← hwas, ← hlanes2]
    split
    · rw [Hw.countLane, lanes_modLanes]
      exact ⟨rfl, rfl⟩
    · exact ⟨rfl, rfl⟩
  split
  · rw [port_raise, port_modPort]
    exact ⟨rfl, rfl, rfl, hlanes3⟩
  · rw [port_modPort]
    exact ⟨rfl, rfl, rfl, hlanes3⟩

theorem linkLost_port (h : Hw) (p cause : Nat) :
    let l := (h.port p).lanes
    let x := (h.linkLost p cause).port p
    x.absent = true ∧ x.link = {} ∧ x.glean.state = 0 ∧ x.lanes.state = if (l.next.getD l.cfg).enable then 1 else 0 := by
  obtain ⟨habsent, -, hglean, hcfg, hnext⟩ := portAbsent_port h p cause
  obtain ⟨hstate, -, hlink, habsent', hglean'⟩ := blindBringUp_port (h.portAbsent p cause) p
  dsimp only [Hw.linkLost]
  rw [habsent', hglean', hstate, hcfg, hnext]
  exact ⟨habsent, hlink, hglean, rfl⟩

/-- A port that comes UP. -/
theorem linkUp_port (h : Hw) (p : Nat) :
    ((h.linkUp p).port p).lanes = { (h.port p).lanes with state := 2, fast := false, idleCount := 0 } ∧ ((h.linkUp p).port p).link.up = true ∧ ((h.linkUp p).port p).absent = false := by
  unfold Hw.linkUp
  dsimp only
  rw [port_raise, Hw.sendParams, Hw.modLink, port_modPort, port_setPort]
  exact ⟨rfl, rfl, rfl⟩

/-! ### Training frames -/

section
variable {h : Hw} {p : Nat}

theorem settleReady_keeps (l : Lanes) : l.settleReady = { l with allReady := l.readyNow } := rfl

theorem readyNow_looped {l : Lanes} (hlooped : l.looped = true) : l.readyNow = false := decide_eq_false (fun hready => hready.2.1 hlooped)

theorem takeFrame_looped {ch : Nat} {f : List Word} (hmode : fld f 0 20 20 = b2n (h.isV16 p)) (hnonce : wnat f 2 = (h.port p).lanes.nonce) (hloop : (h.port p).lanes.loopMode = 0) :
    ((h.takeFrame p ch f).port p).lanes.looped = true ∧ ((h.takeFrame p ch f).port p).lanes.allReady = false := by
  unfold Hw.takeFrame
  dsimp only
  rw [if_neg (not_not.2 hmode), if_pos ⟨hnonce, hloop⟩]
  split
  · next hlooped =>
    rw [lanes_modLanes]
    exact ⟨hlooped, readyNow_looped hlooped⟩
  · rw [port_raise, lanes_modLanes]
    exact ⟨rfl, readyNow_looped rfl⟩

theorem takeFrame_counts {ch : Nat} {f : List Word} (hmode : fld f 0 20 20 = b2n (h.isV16 p)) (hnonce : wnat f 2 ≠ (h.port p).lanes.nonce) :
    let l := (h.port p).lanes
    let l' := ((h.takeFrame p ch f).port p).lanes
    (l'.chan ch).frames = min 3 ((l.chan ch).frames + 1) ∧ (l'.chan ch).partnerReady = decide (fld f 0 19 19 = 1) ∧ l'.partnerAll = decide (fld f 0 18 18 = 1) ∧
      l'.txMap = (if mapWidth (mapOfWord (wnat f 1)) ≠ 0 then mapOfWord (wnat f 1) else l.txMap) ∧ l'.rxMap = l.rxMap ∧ l'.state = l.state := by
  unfold Hw.takeFrame
  dsimp only
  rw [if_neg (not_not.2 hmode), if_neg (fun hown => hnonce hown.1), lanes_modLanes]
  dsimp only [Lanes.settleReady, Lanes.modChan, Lanes.chan]
  simp only [tmod, tget_tput, and_self]

end

/-! ### Adaptation -/

theorem adapt_reached {c : RxChan} {fom target : Nat} (hfom : target ≤ fom) : c.adapt fom target false = { c with fom := min fom 255, ready := true, good := 16 } :=
  if_pos ⟨hfom, Bool.false_ne_true⟩

theorem adapt_below {c : RxChan} {fom target : Nat} (hfom : fom < target) : (c.adapt fom target false).ready = false := by
  rw [RxChan.adapt]
  dsimp only
  rw [if_neg (fun hreached => absurd hreached.1 (Nat.not_le.2 hfom)), if_neg Bool.false_ne_true, if_neg Bool.false_ne_true]
  dsimp only
  split
  · rfl
  · split
    · rfl
    · split
      · rfl
      · split <;> rfl

/-! ### The commands of a training port -/

section
variable {s : State} {p : Nat} (hp : p < 264) (hlehr : s.hw.inLehr = false)
include hp hlehr

theorem trainingFrame_taken {ch : Nat} {f : List Word} (hch : ch < chanCount (s.hw.port p).lanes) (hfenced : ch ∉ (s.hw.port p).lanes.fenced) (hgood : frameGood f = true)
    (hstate : (s.hw.port p).lanes.state = 1) : exec (.trainingFrameReceive p ch f) s = .next (s.withHw (s.hw.takeFrame p ch f)) := by
  rw [exec_trainingFrameReceive, execTrainingFrameReceive, atUnit_in hp, onHw_next]
  refine congrArg (fun x => Host.Outcome.next (s.withHw x)) ((if_neg ?_).trans (if_pos (.inl hstate)))
  rintro (hin | hout | hcut | hbad)
  · exact Bool.false_ne_true (hlehr.symm.trans hin)
  · exact absurd hch (Nat.not_lt.2 hout)
  · exact hfenced (List.contains_iff_mem.1 hcut)
  · exact hbad hgood

theorem adaptStep_measured {ch fom : Nat} (hch : ch < chanCount (s.hw.port p).lanes) (hfenced : ch ∉ (s.hw.port p).lanes.fenced) (hstate : (s.hw.port p).lanes.state = 1)
    (hlock : 3 ≤ ((s.hw.port p).lanes.chan ch).frames) :
    exec (.adaptStep p ch fom) s = .next (s.withHw (s.hw.modLanes p (fun l => (l.modChan ch (fun c => c.adapt fom (fomTarget (s.hw.port p).lanes) false)).settleReady))) := by
  rw [exec_adaptStep, execAdaptStep, atUnit_in hp, onHw_next]
  refine congrArg (fun x => Host.Outcome.next (s.withHw x)) ((if_neg ?_).trans (if_pos ⟨.inl hstate, hlock⟩))
  rintro (hin | hout | hcut)
  · exact Bool.false_ne_true (hlehr.symm.trans hin)
  · exact absurd hch (Nat.not_lt.2 hout)
  · exact hfenced (List.contains_iff_mem.1 hcut)

omit hlehr in
theorem adaptStep_unlocked {ch fom : Nat} (hstate : (s.hw.port p).lanes.state = 1) (hlock : ((s.hw.port p).lanes.chan ch).frames < 3) : exec (.adaptStep p ch fom) s = .next s := by
  rw [exec_adaptStep, execAdaptStep, atUnit_in hp, onHw_next]
  dsimp only
  rw [if_neg (c := (_ ∧ 3 ≤ _)) (fun hmeasured => absurd hlock (Nat.not_lt.2 hmeasured.2)), if_neg (c := (_ = 2 ∧ _)) (fun hserving => by rw [hstate] at hserving; cases hserving.1), ite_self]
  rfl

theorem readyCountdownEnd_starts (hstate : (s.hw.port p).lanes.state = 1 ∨ (s.hw.port p).lanes.state = 3) (hready : (s.hw.port p).lanes.allReady = true)
    (hpartner : (s.hw.port p).lanes.partnerAll = true) : ∃ h', exec (.readyCountdownEnd p) s = .next (s.withHw h') ∧ (h'.port p).lanes.txData = true ∧
      if (s.hw.port p).lanes.rxData && (s.hw.port p).lanes.heardBlock then (h'.port p).lanes.state = 2 ∧ (h'.port p).link.up = true ∧ (h'.port p).absent = false
      else (h'.port p).lanes.state = (s.hw.port p).lanes.state := by
  have hlanes := lanes_modLanes s.hw p (fun l => { l with txData := true })
  have hguard : ¬ (s.hw.inLehr = true ∨ ¬ ((s.hw.port p).lanes.state = 1 ∨ (s.hw.port p).lanes.state = 3) ∨ ¬ (s.hw.port p).lanes.allReady = true ∨ ¬ (s.hw.port p).lanes.partnerAll = true) := by
    rw [hlehr, hready, hpartner]
    simp only [Bool.false_eq_true, false_or, not_true, or_false, not_not]
    exact hstate
  rw [exec_readyCountdownEnd, execReadyCountdownEnd, atUnit_in hp, onHw_next]
  dsimp only
  rw [if_neg hguard]
  refine ⟨_, rfl, ?_⟩
  generalize hstarted : s.hw.modLanes p (fun l => { l with txData := true }) = h1 at hlanes ⊢
  by_cases hheard : (s.hw.port p).lanes.rxData = true ∧ (s.hw.port p).lanes.heardBlock = true
  · obtain ⟨hup, hlink, habsent⟩ := linkUp_port h1 p
    rw [if_pos hheard, if_pos (Bool.and_eq_true_iff.2 hheard), hup, hlanes]
    exact ⟨rfl, rfl, hlink, habsent⟩
  · rw [if_neg hheard, if_neg (fun hboth => hheard (Bool.and_eq_true_iff.1 hboth)), hlanes]
    exact ⟨rfl, rfl⟩

omit hlehr in
theorem readyCountdownEnd_waits (hwaits : (s.hw.port p).lanes.allReady = false ∨ (s.hw.port p).lanes.partnerAll = false) : exec (.readyCountdownEnd p) s = .next s := by
  rw [exec_readyCountdownEnd, execReadyCountdownEnd, atUnit_in hp, onHw_next]
  refine congrArg (fun x => Host.Outcome.next (s.withHw x)) (if_pos ?_)
  obtain hready | hpartner := hwaits
  · exact .inr (.inr (.inl (by rw [hready]; exact Bool.false_ne_true)))
  · exact .inr (.inr (.inr (by rw [hpartner]; exact Bool.false_ne_true)))

end

theorem narrowMap_none (l : Lanes) : narrowMap l [] = none := by
  rw [narrowMap, List.mergeSort_nil]
  exact if_pos (.inl rfl)

theorem fenceChannel_rxMap (h : Hw) (p f : Nat) (m : List Nat) : ((h.fenceChannel p f m).port p).lanes.rxMap = m := by
  rw [Hw.fenceChannel, port_raise, lanes_modLanes]
  rfl

section
variable {s : State} {p : Nat} (hp : p < 264) (hlehr : s.hw.inLehr = false) (hstate : (s.hw.port p).lanes.state = 1)
include hp hlehr hstate

/-- With no channel ready at the time limit, the port waits to retry. -/
theorem trainTimeout_waits (hnone : ∀ i, i < chanCount (s.hw.port p).lanes → ((s.hw.port p).lanes.chan i).ready = false) :
    ∃ h', exec (.trainTimeout p) s = .next (s.withHw h') ∧ (h'.port p).lanes.state = 5 ∧ s.hw.Tells h' 0x0903 := by
  have hready : (List.range (chanCount (s.hw.port p).lanes)).filter (fun i => decide (((s.hw.port p).lanes.chan i).ready = true ∧ ¬ (s.hw.port p).lanes.fenced.contains i = true)) = [] := by
    refine List.filter_eq_nil_iff.2 fun i hi htrue => ?_
    have hlow := hnone i (List.mem_range.1 hi)
    exact Bool.false_ne_true (hlow.symm.trans (of_decide_eq_true htrue).1)
  rw [exec_trainTimeout, execTrainTimeout, atUnit_in hp, onHw_next]
  dsimp only
  rw [if_neg (by rw [hlehr, hstate]; decide), hready]
  have hspare : (List.range (chanCount (s.hw.port p).lanes)).find? (fun i => decide ((s.hw.port p).lanes.rxMap.getD i 7 = 6 ∧ ([] : List Nat).contains i = true)) = none :=
    List.find?_eq_none.2 fun i _ htrue => Bool.false_ne_true (of_decide_eq_true htrue).2
  rw [hspare, narrowMap_none]
  generalize hfailed : (List.range _).find? (fun i => decide ((s.hw.port p).lanes.rxMap.getD i 7 < 4 ∧ ¬ ((s.hw.port p).lanes.chan i).ready = true)) = failed
  cases failed <;> refine ⟨_, rfl, ?_, fun hon => raise_last (s.hw.modLanes p (fun l => { l.unready with state := 5 })) 0x0903 _ hon⟩
  all_goals rw [port_raise, lanes_modLanes]

/-- At the time limit the spare takes the lane of a channel that failed. -/
theorem trainTimeout_spares {f sp : Nat}
    (hfailed : (List.range (chanCount (s.hw.port p).lanes)).find? (fun i => decide ((s.hw.port p).lanes.rxMap.getD i 7 < 4) && ! ((s.hw.port p).lanes.chan i).ready) = some f)
    (hspare : (List.range (chanCount (s.hw.port p).lanes)).find?
      (fun i => decide ((s.hw.port p).lanes.rxMap.getD i 7 = 6) && ((s.hw.port p).lanes.chan i).ready && ! (s.hw.port p).lanes.fenced.contains i) = some sp) :
    exec (.trainTimeout p) s = .next (s.withHw (s.hw.fenceChannel p f (((s.hw.port p).lanes.rxMap.set f 7).set sp ((s.hw.port p).lanes.rxMap.getD f 7)))) := by
  generalize hl : (s.hw.port p).lanes = l at *
  have hfailed' : (List.range (chanCount l)).find? (fun i => decide (l.rxMap.getD i 7 < 4 ∧ ¬ (l.chan i).ready = true)) = some f := by
    rw [← hfailed]
    refine congrFun (congrArg List.find? (funext fun i => ?_)) _
    cases (l.chan i).ready <;> simp
  have hspare' : (List.range (chanCount l)).find? (fun i => decide (l.rxMap.getD i 7 = 6 ∧
      ((List.range (chanCount l)).filter (fun i => decide ((l.chan i).ready = true ∧ ¬ l.fenced.contains i = true))).contains i = true)) = some sp := by
    rw [← hspare]
    refine List.find?_congr fun i hi => ?_
    rw [Bool.eq_iff_iff]
    simp only [decide_eq_true_eq, Bool.and_eq_true, List.contains_eq_mem, List.mem_filter, hi, true_and, Bool.not_eq_true', decide_eq_false_iff_not, and_assoc]
  rw [exec_trainTimeout, execTrainTimeout, atUnit_in hp, onHw_next]
  dsimp only
  rw [hl, if_neg (by rw [hlehr, hstate]; decide), hfailed', hspare']

end

/-- Settles O44: what a frame, a step of adaptation and each limit of time do, then what a bring-up, a retrain and a loss leave of the port. -/
theorem portTraining : Obligations.PortTraining := by
  refine ⟨?_, ?_, ?_⟩
  · intro s p ch f hp hlehr h l run hch hfenced hgood hstate
    have hrun : run = .next (s.withHw (h.takeFrame p ch f)) := trainingFrame_taken hp hlehr hch hfenced hgood hstate
    refine ⟨fun hmode => hrun.trans ?_, fun hmode hnonce hloop => ⟨_, hrun, takeFrame_looped hmode hnonce hloop⟩, fun hmode hnonce => ⟨_, hrun, ?_⟩⟩
    · rw [Hw.takeFrame]
      exact congrArg (fun x => Host.Outcome.next (s.withHw x)) (if_pos hmode)
    · obtain ⟨hframes, hready, hall, htx, hrx, hst⟩ := takeFrame_counts (ch := ch) hmode hnonce
      exact ⟨hframes, hready, hall, htx, hrx, hst.trans hstate⟩
  · intro s p ch fom hp hlehr h l hch hfenced
    refine ⟨fun hstate hlock hfom => ⟨_, adaptStep_measured hp hlehr hch hfenced hstate hlock, ?_⟩, fun hstate hlock hfom => ⟨_, adaptStep_measured hp hlehr hch hfenced hstate hlock, ?_⟩,
      fun hstate hlock => adaptStep_unlocked hp hstate hlock⟩
    · rw [lanes_modLanes, settleReady_keeps, Lanes.chan, Lanes.modChan]
      dsimp only
      rw [tmod, tget_tput, adapt_reached hfom]
      exact ⟨rfl, rfl, rfl⟩
    · rw [lanes_modLanes, settleReady_keeps, Lanes.chan, Lanes.modChan]
      dsimp only
      rw [tmod, tget_tput]
      exact adapt_below hfom
  · intro s p hp hlehr h l
    refine ⟨readyCountdownEnd_starts hp hlehr, readyCountdownEnd_waits hp, trainTimeout_waits hp hlehr, ?_, ?_, ?_, ?_, ?_, fun cause => linkLost_port h p cause⟩
    · intro f sp hstate hfailed hspare
      exact ⟨_, trainTimeout_spares hp hlehr hstate hfailed hspare, fenceChannel_rxMap h p f _⟩
    · intro hstate
      obtain ⟨hst, hmap, hlink, -, -⟩ := blindBringUp_port h p
      refine ⟨h.blindBringUp p, ?_, hst, hmap, hlink⟩
      rw [exec_retryExpiry, execRetryExpiry, atUnit_in hp, onHw_next]
      refine congrArg (fun x => Host.Outcome.next (s.withHw x)) (if_neg ?_)
      rintro (hin | hother)
      · exact Bool.false_ne_true (hlehr.symm.trans hin)
      · exact hother hstate
    · intro hstate
      rw [exec_retrainLimitExpiry, execRetrainLimitExpiry, atUnit_in hp, onHw_next]
      refine congrArg (fun x => Host.Outcome.next (s.withHw x)) (if_neg ?_)
      rintro (hin | hother)
      · exact Bool.false_ne_true (hlehr.symm.trans hin)
      · exact hother hstate
    · intro hstate hquiet
      rw [exec_allChannelsLost, execAllChannelsLost, atUnit_in hp, onHw_next]
      refine congrArg (fun x => Host.Outcome.next (s.withHw x)) ((if_neg ?_).trans (if_neg ?_))
      · rintro (hin | hother)
        · exact Bool.false_ne_true (hlehr.symm.trans hin)
        · exact hother (.inl hstate)
      · rintro ⟨-, hheard⟩
        exact Bool.false_ne_true (hquiet.symm.trans hheard)
    · intro hstate must
      obtain ⟨hst, hlink⟩ := fastRetrain_port h hp must hstate
      dsimp only
      rw [hlink]
      exact ⟨hst, rfl, rfl, rfl, rfl, rfl⟩

end Sys2Proof.Machine
end

section
/-!
Channels that lose their signal, sleeping transmitters and the laser modules (R107, R415, R416, R421, R425 to R427).
-/

namespace Sys2Proof.Machine
open Sys2Proof

/-! ### What a fence keeps -/

theorem enterSafe_fenced (h : Hw) (s : Nat) : (h.enterSafe s).faults.fenced = h.faults.fenced := by
  unfold Hw.enterSafe
  split <;> rfl

theorem report_fenced (h : Hw) (s cls unit action : Nat) (data : List Word) (forced notify : Bool) :
    (h.report s cls unit action data forced notify).faults.fenced = h.faults.fenced := by
  unfold Hw.report
  dsimp only
  split
  · rfl
  · split
    · exact enterSafe_fenced _ s
    · rfl

/-- What a fence brings with it changes no port and no laser, and ends no fence. -/
def Hw.FencesOn (h h' : Hw) : Prop := h'.ports = h.ports ∧ h'.lasers = h.lasers ∧ h.faults.fenced ⊆ h'.faults.fenced

theorem Hw.FencesOn.refl (h : Hw) : h.FencesOn h := ⟨rfl, rfl, List.Subset.refl _⟩

theorem Hw.FencesOn.trans {h1 h2 h3 : Hw} (h12 : h1.FencesOn h2) (h23 : h2.FencesOn h3) : h1.FencesOn h3 :=
  ⟨h23.1.trans h12.1, h23.2.1.trans h12.2.1, List.Subset.trans h12.2.2 h23.2.2⟩

theorem report_fencesOn (h : Hw) (s cls unit action : Nat) (data : List Word) (forced notify : Bool) : h.FencesOn (h.report s cls unit action data forced notify) :=
  ⟨report_ports h s cls unit action data forced notify, report_lasers h s cls unit action data forced notify,
    by rw [report_fenced]; exact List.Subset.refl _⟩

theorem tellSpare_fencesOn (h : Hw) (u : Nat) : h.FencesOn (h.tellSpare u) := by
  unfold Hw.tellSpare
  split
  · split
    · unfold Hw.tellExhausted
      split
      · exact .refl h
      · exact ⟨rfl, rfl, List.Subset.refl _⟩
    · exact .refl h
  · exact .refl h

theorem checkWorkingSet_fencesOn (h : Hw) : h.FencesOn h.checkWorkingSet := by
  unfold Hw.checkWorkingSet
  dsimp only
  split
  · exact ⟨rfl, rfl, List.Subset.refl _⟩
  · split
    · exact ⟨rfl, rfl, List.Subset.refl _⟩
    · exact report_fencesOn (h.modFaults _) _ _ _ _ _ _ _

/-- The fence of a unit, taken apart: the unit is marked, and what its fence does follows. -/
theorem fenceOne_steps (h : Hw) {u : Nat} (s : Nat) (hrouter : u / 4096 ≠ 5) (hnew : u ∉ h.faults.fenced) : ∃ h1, h.FencesOn h1 ∧ u ∈ h1.faults.fenced ∧ (h1.fenceAction u).FencesOn (h.fenceOne u s) := by
  have hfenced : ¬ h.isFenced u = true := fun hin => hnew (List.contains_iff_mem.1 hin)
  rw [Hw.fenceOne, if_neg hfenced]
  dsimp only
  rw [if_neg hrouter]
  generalize hmarked : Hw.raise _ _ _ = h1
  have hmark : h.FencesOn h1 ∧ u ∈ h1.faults.fenced := by
    rw [← hmarked]
    exact ⟨⟨rfl, rfl, List.subset_append_left _ _⟩, List.mem_append_right _ (List.mem_singleton_self u)⟩
  have htold := tellSpare_fencesOn h1 u
  exact ⟨h1.tellSpare u, hmark.1.trans htold, htold.2.2 hmark.2, checkWorkingSet_fencesOn _⟩

theorem loseStack_fencesOn (h : Hw) {k : Nat} (hk : k = 0 ∨ k = 1) (s : Nat) : h.FencesOn (h.loseStack k s) := by
  have hkind : unitNo 10 k / 4096 = 10 := by rw [unitNo]; omega
  unfold Hw.loseStack
  split
  · exact .refl h
  · next hfenced =>
    obtain ⟨h1, hmark, -, hdone⟩ := fenceOne_steps h s (u := unitNo 10 k) (by omega) (fun hin => hfenced (List.contains_iff_mem.2 hin))
    have haction : h1.fenceAction (unitNo 10 k) = h1 := by
      unfold Hw.fenceAction
      dsimp only
      rw [hkind]
      rfl
    rw [haction] at hdone
    exact (hmark.trans hdone).trans (report_fencesOn _ _ _ _ _ _ _ _)

theorem checkStacks_fencesOn (h : Hw) (s : Nat) : h.FencesOn (h.checkStacks s) := by
  have hone (h : Hw) {k : Nat} (hk : k = 0 ∨ k = 1) :
      h.FencesOn (if 1 < h.fencedIn 8 k ∨ (List.range 4).all (fun n => h.routerOut (nodeRouter (4 * k + n))) then h.loseStack k s else h) := by
    split
    · exact loseStack_fencesOn h hk s
    · exact .refl h
  exact (hone h (.inl rfl)).trans (hone _ (.inr rfl))

/-- A laser module that is fenced is neither enabled nor live, and no port has changed. -/
theorem fence_laser (h : Hw) {m : Nat} (hm : m < 16) (s : Nat) (hnew : unitNo 8 m ∉ h.faults.fenced) :
    (h.fence (unitNo 8 m) s).ports = h.ports ∧ unitNo 8 m ∈ (h.fence (unitNo 8 m) s).faults.fenced ∧ m ∉ (h.fence (unitNo 8 m) s).lasers.enabled ∧
      m ∉ (h.fence (unitNo 8 m) s).lasers.live := by
  have hkind : unitNo 8 m / 4096 = 8 := by rw [unitNo]; omega
  have hindex : unitNo 8 m % 4096 = m := by rw [unitNo]; omega
  obtain ⟨h1, hmark, hin, hdone⟩ := fenceOne_steps h s (u := unitNo 8 m) (by omega) hnew
  have hboth := hdone.trans (checkStacks_fencesOn _ s)
  unfold Hw.fence
  dsimp only
  rw [cascade_none _ (by omega)]
  dsimp only
  generalize (h.fenceOne (unitNo 8 m) s).checkStacks s = h3 at hboth ⊢
  unfold Hw.fenceAction at hboth
  dsimp only at hboth
  rw [hkind, hindex] at hboth
  obtain ⟨hports, hlasers, hfences⟩ := hboth
  rw [hlasers]
  exact ⟨hports.trans hmark.1, hfences hin, fun hmem => of_decide_eq_true (List.mem_filter.1 hmem).2 rfl, fun hmem => of_decide_eq_true (List.mem_filter.1 hmem).2 rfl⟩

/-! ### The loss of a photonic engine's light -/

theorem portAbsent_keeps (h : Hw) (p cause : Nat) : (h.portAbsent p cause).lasers = h.lasers ∧ (h.portAbsent p cause).faults = h.faults ∧
    ∀ q, q ≠ p → (h.portAbsent p cause).port q = h.port q := by
  unfold Hw.portAbsent
  dsimp only
  generalize hgone : (if lostKept (h.port p).link = [] then h else h.count p 15 _) = h1
  generalize hshort : (if (h.port p).link.unstarted.length = 0 then h1 else h1.count p 23 _) = h2
  generalize hwas : (if decide ((h.port p).lanes.state = 2 ∨ (h.port p).lanes.state = 3) = true then h2.countLane p 3 else h2) = h3
  have hkeep1 : h1.lasers = h.lasers ∧ h1.faults = h.faults ∧ ∀ q, q ≠ p → h1.port q = h.port q := by
    rw [← hgone]
    split
    · exact ⟨rfl, rfl, fun q _ => rfl⟩
    · exact ⟨rfl, rfl, fun q hq => port_modPort_ne h _ hq⟩
  have hkeep2 : h2.lasers = h1.lasers ∧ h2.faults = h1.faults ∧ ∀ q, q ≠ p → h2.port q = h1.port q := by
    rw [← hshort]
    split
    · exact ⟨rfl, rfl, fun q _ => rfl⟩
    · exact ⟨rfl, rfl, fun q hq => port_modPort_ne h1 _ hq⟩
  have hkeep3 : h3.lasers = h2.lasers ∧ h3.faults = h2.faults ∧ ∀ q, q ≠ p → h3.port q = h2.port q := by
    rw [← hwas]
    split
    · exact ⟨rfl, rfl, fun q hq => port_modPort_ne h2 _ hq⟩
    · exact ⟨rfl, rfl, fun q _ => rfl⟩
  have hlasers := hkeep3.1.trans (hkeep2.1.trans hkeep1.1)
  have hfaults := hkeep3.2.1.trans (hkeep2.2.1.trans hkeep1.2.1)
  have hports (q : Nat) (hq : q ≠ p) := (hkeep3.2.2 q hq).trans ((hkeep2.2.2 q hq).trans (hkeep1.2.2 q hq))
  split
  · exact ⟨hlasers, hfaults, fun q hq => (port_raise _ _ _ q).trans ((port_modPort_ne h3 _ hq).trans (hports q hq))⟩
  · exact ⟨hlasers, hfaults, fun q hq => (port_modPort_ne h3 _ hq).trans (hports q hq)⟩

theorem blindBringUp_keeps (h : Hw) (p : Nat) : (h.blindBringUp p).lasers = h.lasers ∧ (h.blindBringUp p).faults = h.faults ∧ ∀ q, q ≠ p → (h.blindBringUp p).port q = h.port q := by
  unfold Hw.blindBringUp
  dsimp only
  split
  · exact ⟨rfl, rfl, fun q hq => (port_modPort_ne _ _ hq).trans (port_setPort_ne (h.random 32).1 _ hq)⟩
  · exact ⟨rfl, rfl, fun q hq => port_setPort_ne (h.random 32).1 _ hq⟩

theorem linkLost_keeps (h : Hw) (p cause : Nat) : (h.linkLost p cause).lasers = h.lasers ∧ (h.linkLost p cause).faults = h.faults ∧
    ∀ q, q ≠ p → (h.linkLost p cause).port q = h.port q := by
  obtain ⟨hlasers, hfaults, hports⟩ := portAbsent_keeps h p cause
  obtain ⟨hlasers', hfaults', hports'⟩ := blindBringUp_keeps (h.portAbsent p cause) p
  exact ⟨hlasers'.trans hlasers, hfaults'.trans hfaults, fun q hq => (hports' q hq).trans (hports q hq)⟩

/-- A port of a photonic engine that has lost its light: one that trains or serves becomes absent. -/
def Hw.darken (h : Hw) (p : Nat) : Hw := if (h.port p).lanes.state = 0 ∨ (h.port p).lanes.state = 4 then h else h.linkLost p 6

theorem darken_keeps (h : Hw) (p : Nat) : (h.darken p).lasers = h.lasers ∧ (h.darken p).faults = h.faults := by
  unfold Hw.darken
  split
  · exact ⟨rfl, rfl⟩
  · obtain ⟨hlasers, hfaults, -⟩ := linkLost_keeps h p 6
    exact ⟨hlasers, hfaults⟩

theorem darken_absent {h : Hw} {q : Nat} (p : Nat) (habsent : (h.port q).absent = true) : ((h.darken p).port q).absent = true := by
  unfold Hw.darken
  split
  · exact habsent
  · by_cases hq : q = p
    · rw [hq]
      exact (linkLost_port h p 6).1
    · rw [(linkLost_keeps h p 6).2.2 q hq]
      exact habsent

/-- Every port of the list that trains or serves becomes absent. -/
theorem darkened_absent (l : List Nat) (h : Hw) {q : Nat} (hq : q ∈ l) (hstate : (h.port q).lanes.state ≠ 0 ∧ (h.port q).lanes.state ≠ 4) : ((l.foldl Hw.darken h).port q).absent = true := by
  induction l generalizing h with
  | nil => cases hq
  | cons p l ih =>
    by_cases hp : q = p
    · subst hp
      have hdark : ((h.darken q).port q).absent = true := by
        rw [Hw.darken, if_neg (not_or.2 hstate)]
        exact (linkLost_port h q 6).1
      exact foldl_preserves (P := fun h' : Hw => (h'.port q).absent = true) (fun _ r habsent => darken_absent r habsent) l hdark
    · have hin : q ∈ l := (List.mem_cons.1 hq).resolve_left hp
      have hkept : (h.darken p).port q = h.port q := by
        unfold Hw.darken
        split
        · rfl
        · exact (linkLost_keeps h p 6).2.2 q hp
      exact ih (h.darken p) hin (by rw [hkept]; exact hstate)

/-- What the loss of a module's light keeps, and what becomes of its photonic engine's ports when both modules are out. -/
theorem peLight_steps (h : Hw) (m : Nat) : (h.peLight m true).lasers = h.lasers ∧ h.faults.fenced ⊆ (h.peLight m true).faults.fenced ∧
    (2 * (m / 2) ∉ h.lasers.live → 2 * (m / 2) + 1 ∉ h.lasers.live → ∀ p, 32 * (m / 2) ≤ p → p < 32 * (m / 2) + 32 →
      (h.port p).lanes.state ≠ 0 → (h.port p).lanes.state ≠ 4 → ((h.peLight m true).port p).absent = true) := by
  unfold Hw.peLight
  dsimp only
  split
  · next hlive =>
    refine ⟨rfl, List.Subset.refl _, fun hnorth hsouth => ?_⟩
    obtain hin | hin := hlive
    · exact absurd (List.contains_iff_mem.1 hin) hnorth
    · exact absurd (List.contains_iff_mem.1 hin) hsouth
  · have hdarken : (fun (h : Hw) (p : Nat) => if (h.port p).lanes.state = 0 ∨ (h.port p).lanes.state = 4 then h else h.linkLost p 6) = Hw.darken := rfl
    rw [if_pos rfl, hdarken]
    generalize hlist : (List.range 32).map (32 * (m / 2) + ·) = l
    have hreport := report_fencesOn h 0x907 1 (unitNo 15 (8 + m / 2)) 7 [] false false
    obtain ⟨hports, hlasers, hfences⟩ := hreport
    generalize h.report 0x907 1 (unitNo 15 (8 + m / 2)) 7 = h1 at hports hlasers hfences ⊢
    have hkeep : (l.foldl Hw.darken h1).lasers = h1.lasers ∧
        (l.foldl Hw.darken h1).faults = h1.faults := by
      refine foldl_preserves (P := fun h' : Hw => h'.lasers = h1.lasers ∧ h'.faults = h1.faults) (fun h' r hkept => ?_) _ ⟨rfl, rfl⟩
      obtain ⟨hl, hf⟩ := darken_keeps h' r
      exact ⟨hl.trans hkept.1, hf.trans hkept.2⟩
    refine ⟨hkeep.1.trans hlasers, ?_, fun _ _ p hlow hhigh hoff hloop => ?_⟩
    · rw [hkeep.2]
      exact hfences
    · refine darkened_absent l h1 (hlist ▸ List.mem_map.2 ⟨p - 32 * (m / 2), List.mem_range.2 (by omega), by omega⟩) ?_
      rw [port_of_ports hports]
      exact ⟨hoff, hloop⟩

/-! ### Channels of a port in service -/

section
variable {s : State} {p ch : Nat} (hp : p < 264) (hlehr : s.hw.inLehr = false) (hch : ch < chanCount (s.hw.port p).lanes) (hstate : (s.hw.port p).lanes.state = 2)

/-- A port whose channel has lost its signal. -/
def Hw.signalLost (h : Hw) (p ch : Nat) : Hw := h.modLanes p (fun l => (l.modChan ch (fun c => { c with los := true, ready := false, frames := 0 })).settleReady)

theorem signalLost_port (h : Hw) (p ch : Nat) : ((h.signalLost p ch).port p).lanes.state = (h.port p).lanes.state ∧ (((h.signalLost p ch).port p).lanes.chan ch).los = true ∧
    ((h.signalLost p ch).port p).link = (h.port p).link := by
  rw [Hw.signalLost, Hw.modLanes, port_modPort, settleReady_keeps, Lanes.modChan, Lanes.chan]
  dsimp only
  rw [tmod, tget_tput]
  exact ⟨rfl, rfl, rfl⟩

include hp hlehr hch hstate

theorem lossOfSignal_serving : exec (.lossOfSignal p ch) s = .next (s.withHw (
    if 4 ≤ (s.hw.port p).lanes.rxMap.getD ch 7 then s.hw.signalLost p ch
    else if (s.hw.port p).lanes.sleepHeard = true then (s.hw.signalLost p ch).modLanes p (fun l => { l with rxAsleep := true })
    else (s.hw.signalLost p ch).fastRetrain p true)) := by
  rw [exec_lossOfSignal, execLossOfSignal, atUnit_in hp, onHw_next]
  refine congrArg (fun x => Host.Outcome.next (s.withHw x)) ((if_neg ?_).trans ?_)
  · rintro (hin | hout | hoff | hretry)
    · exact Bool.false_ne_true (hlehr.symm.trans hin)
    · exact absurd hch (Nat.not_lt.2 hout)
    · exact absurd (hstate.symm.trans hoff) (by decide)
    · exact absurd (hstate.symm.trans hretry) (by decide)
  · by_cases hspare : 4 ≤ (s.hw.port p).lanes.rxMap.getD ch 7
    · exact (if_pos hspare).trans (if_pos hspare).symm
    · refine (if_neg hspare).trans (Eq.trans ?_ (if_neg hspare).symm)
      by_cases hheard : (s.hw.port p).lanes.sleepHeard = true
      · exact (if_pos ⟨hstate, hheard⟩).trans (if_pos hheard).symm
      · exact (if_neg (fun hboth => hheard hboth.2)).trans ((if_pos hstate).trans (if_neg hheard).symm)

omit hstate in
theorem laneFomLow_told (hstate : (s.hw.port p).lanes.state = 2) (hlow : 64 ≤ ((s.hw.port p).lanes.chan ch).lowTicks) (htold : ((s.hw.port p).lanes.chan ch).lowTold = false) :
    exec (.laneFomLow p ch) s =
      .next (s.withHw ((s.hw.modLanes p (fun l => l.modChan ch (fun c => { c with lowTold := true }))).report 0x908 0 (unitNo 14 p) 0 [w32 p, w32 ch])) := by
  rw [exec_laneFomLow, execLaneFomLow, atUnit_in hp, onHw_next]
  refine congrArg (fun x => Host.Outcome.next (s.withHw x)) (if_neg ?_)
  rintro (hin | hout | hother | hearly | hdone)
  · exact Bool.false_ne_true (hlehr.symm.trans hin)
  · exact absurd hch (Nat.not_lt.2 hout)
  · exact hother hstate
  · exact absurd hlow (Nat.not_le.2 hearly)
  · exact Bool.false_ne_true (htold.symm.trans hdone)

end

theorem laneFomLow_silent {s : State} {p ch : Nat} (hp : p < 264) (hdone : ((s.hw.port p).lanes.chan ch).lowTicks < 64 ∨ ((s.hw.port p).lanes.chan ch).lowTold = true) :
    exec (.laneFomLow p ch) s = .next s := by
  rw [exec_laneFomLow, execLaneFomLow, atUnit_in hp, onHw_next]
  exact congrArg (fun x => Host.Outcome.next (s.withHw x)) (if_pos (.inr (.inr (.inr hdone))))

/-! ### Sleep and wake -/

theorem notice_code : fld (beWords (padUnit (padUnit (beBytes (w32 (2 ^ 24)))))) 0 31 24 = 1 := by decide

theorem seal_kind (b : LinkBlock) : b.seal.kind = b.kind := by rw [LinkBlock.kind, LinkBlock.kind, LinkBlock.seal]

theorem seal_unit0Kind (b : LinkBlock) : b.seal.unit0Kind = b.unit0Kind := by rw [LinkBlock.unit0Kind, LinkBlock.unit0Kind, LinkBlock.seal]

/-- A transmitter that sleeps has sent its notice in a NULL block. -/
theorem sleepTx_port (h : Hw) (p : Nat) (hlseq : (h.port p).link.lseq < 2 ^ 16) : ∃ b, ((h.sleepTx p).port p).lanes.txAsleep = true ∧ ((h.sleepTx p).port p).link.sentBlocks = [b] ∧ b.good = true ∧
    b.kind = 2 ∧ b.unit0Kind = 2 ∧ fld (beWords (b.unitAt 0)) 0 31 24 = 1 := by
  unfold Hw.sleepTx
  dsimp only
  generalize (h.port p).link.ackWords = acks
  obtain ⟨w1, w2⟩ := acks
  dsimp only
  generalize hb : ({ h0 := _, h1 := w1, h2 := w2, units := _, crc := 0 } : LinkBlock) = b
  have hhead : b.h0 = headWord 2 2 1 (h.port p).link.lseq := by rw [← hb, headWord, Nat.one_mul]
  have hunits : b.units = [padUnit (beBytes (w32 (2 ^ 24)))] := by rw [← hb]
  obtain ⟨hkind, -, hunit, hfirst, -⟩ := headWord_fields hhead (Nat.le_refl 2) (Nat.le_refl 2) (by omega) hlseq
  refine ⟨b.seal, ?_, ?_, good_seal (.inr hkind) (by omega) (by omega), (seal_kind b).trans hkind, (seal_unit0Kind b).trans hunit, ?_⟩
  · rw [Hw.countLane, lanes_modLanes, lanes_modLanes]
  · rw [Hw.countLane, Hw.modLanes, port_modPort, Hw.modLanes, port_modPort]
    dsimp only
    rw [link_modLink]
  · have hat : b.seal.unitAt 0 = padUnit (padUnit (beBytes (w32 (2 ^ 24)))) := by
      rw [LinkBlock.unitAt, LinkBlock.seal]
      dsimp only
      rw [hunits]
      rfl
    rw [hat]
    exact notice_code

section
variable {s : State} {p : Nat} (hp : p < 264) (hlehr : s.hw.inLehr = false)
include hp hlehr

theorem rxWake_wakes (hasleep : (s.hw.port p).lanes.rxAsleep = true) (hstate : (s.hw.port p).lanes.state = 2) : ∃ h', exec (.rxWake p) s = .next (s.withHw h') ∧
    if ∃ i, i < chanCount (s.hw.port p).lanes ∧ (s.hw.port p).lanes.rxMap.getD i 7 < 4 ∧ ((s.hw.port p).lanes.chan i).fom < fomTarget (s.hw.port p).lanes
    then (h'.port p).lanes.state = 3
    else (h'.port p).lanes.state = 2 ∧ (h'.port p).lanes.rxAsleep = false ∧ (h'.port p).lanes.rxMap = (s.hw.port p).lanes.rxMap := by
  have hguard : ¬ (s.hw.inLehr = true ∨ ¬ (s.hw.port p).lanes.rxAsleep = true) := by
    rw [hlehr, hasleep]
    decide
  rw [exec_rxWake, execRxWake, atUnit_in hp, onHw_next]
  dsimp only
  rw [if_neg hguard]
  refine ⟨_, rfl, ?_⟩
  generalize hwoken : s.hw.modLanes p _ = h1
  have hlanes : (h1.port p).lanes.state = 2 ∧ (h1.port p).lanes.rxAsleep = false ∧ (h1.port p).lanes.rxMap = (s.hw.port p).lanes.rxMap := by
    rw [← hwoken, lanes_modLanes]
    exact ⟨hstate, rfl, rfl⟩
  by_cases hshort : ∃ i, i < chanCount (s.hw.port p).lanes ∧ (s.hw.port p).lanes.rxMap.getD i 7 < 4 ∧ ((s.hw.port p).lanes.chan i).fom < fomTarget (s.hw.port p).lanes
  · obtain ⟨i, hi, hlow⟩ := id hshort
    rw [if_pos hshort, if_pos (List.any_eq_true.2 ⟨i, List.mem_range.2 hi, decide_eq_true hlow⟩)]
    exact (fastRetrain_port h1 hp false hlanes.1).1
  · rw [if_neg hshort, if_neg]
    · exact hlanes
    · intro hany
      obtain ⟨i, hi, hlow⟩ := List.any_eq_true.1 hany
      exact hshort ⟨i, List.mem_range.1 hi, of_decide_eq_true hlow⟩

end

/-- Settles O45: each event is read off its guard, and what a retrain, a fence and the loss of a photonic engine's light do is said once. -/
theorem laneAndLaserEvents : Obligations.LaneAndLaserEvents := by
  refine ⟨?_, ?_, ?_⟩
  · intro s p ch hp hlehr h l hch
    obtain ⟨hst, hlos, hlink⟩ := signalLost_port h p ch
    refine ⟨fun hstate hmap hquiet => ⟨_, lossOfSignal_serving hp hlehr hch hstate, ?_⟩, fun hstate hmap hheard => ⟨_, lossOfSignal_serving hp hlehr hch hstate, ?_⟩,
      fun hstate hmap => ⟨_, lossOfSignal_serving hp hlehr hch hstate, ?_⟩, laneFomLow_told hp hlehr hch, laneFomLow_silent hp⟩
    · rw [if_neg (Nat.not_le.2 hmap), if_neg (fun hheard => Bool.false_ne_true (hquiet.symm.trans hheard))]
      obtain ⟨hthree, hnotice⟩ := fastRetrain_port (h.signalLost p ch) hp true (hst.trans hstate)
      exact ⟨hthree, by rw [hnotice]⟩
    · rw [if_neg (Nat.not_le.2 hmap), if_pos hheard, lanes_modLanes]
      exact ⟨rfl, hst.trans hstate⟩
    · rw [if_pos hmap]
      exact ⟨hlos, hst.trans hstate, hlink⟩
  · intro s p hp hlehr h x l
    refine ⟨?_, ?_, ?_, rxWake_wakes hp hlehr⟩
    · intro hsleep hstate hawake hidle hwork hkept hnak hlseq
      obtain ⟨b, hasleep, hsent, hblock⟩ := sleepTx_port h p hlseq
      refine ⟨h.sleepTx p, b, ?_, hasleep, hsent, hblock⟩
      rw [exec_txSleep, execTxSleep, atUnit_in hp, onHw_next]
      refine congrArg (fun x => Host.Outcome.next (s.withHw x)) (if_neg ?_)
      rintro (hin | hno | hother | hgone | hbusy | hsome | hwait | hbad)
      · exact Bool.false_ne_true (hlehr.symm.trans hin)
      · exact hno hsleep
      · exact hother hstate
      · exact Bool.false_ne_true (hawake.symm.trans hgone)
      · exact absurd hidle (Nat.not_le.2 hbusy)
      · exact Bool.false_ne_true (hwork.symm.trans hsome)
      · exact hwait hkept
      · exact Bool.false_ne_true (hnak.symm.trans hbad)
    · intro hcases
      rw [exec_txSleep, execTxSleep, atUnit_in hp, onHw_next]
      refine congrArg (fun x => Host.Outcome.next (s.withHw x)) (if_pos ?_)
      obtain hwork | hbusy | hno := hcases
      · exact .inr (.inr (.inr (.inr (.inr (.inl hwork)))))
      · exact .inr (.inr (.inr (.inr (.inl hbusy))))
      · exact .inr (.inl (fun hsleep => Bool.false_ne_true (hno.symm.trans hsleep)))
    · intro hasleep hcases
      rw [exec_txWake, execTxWake, atUnit_in hp, onHw_next]
      refine congrArg (fun x => Host.Outcome.next (s.withHw x)) (if_neg ?_)
      rintro (hin | hawake | hnothing)
      · exact Bool.false_ne_true (hlehr.symm.trans hin)
      · exact hawake hasleep
      · exact hnothing hcases
  · intro s m hm henabled h
    have hon : s.hw.lasers.enabled.contains m = true := List.contains_iff_mem.2 henabled
    refine ⟨?_, ?_, ?_⟩
    · intro hdark hkept
      have hguard : ¬ (¬ s.hw.lasers.enabled.contains m = true ∨ s.hw.lasers.releasing.contains m = true ∨ s.hw.lasers.live.contains m = true) := by
        rintro (hoff | hout | hlive)
        · exact hoff hon
        · exact hkept (List.contains_iff_mem.1 hout)
        · exact hdark (List.contains_iff_mem.1 hlive)
      refine ⟨?_, ?_⟩
      · rw [exec_laserInputLive, execLaserInputLive, atUnit_in hm, onHw_next]
        exact congrArg (fun x => Host.Outcome.next (s.withHw x)) (if_neg hguard)
      · rw [exec_laserNotReady, execLaserNotReady, atUnit_in hm, onHw_next]
        exact congrArg (fun x => Host.Outcome.next (s.withHw x)) (if_neg hguard)
    · intro hcases
      have hguard : ¬ s.hw.lasers.enabled.contains m = true ∨ s.hw.lasers.releasing.contains m = true ∨ s.hw.lasers.live.contains m = true := by
        obtain hlive | hout := hcases
        · exact .inr (.inr (List.contains_iff_mem.2 hlive))
        · exact .inr (.inl (List.contains_iff_mem.2 hout))
      refine ⟨?_, ?_⟩
      · rw [exec_laserInputLive, execLaserInputLive, atUnit_in hm, onHw_next]
        exact congrArg (fun x => Host.Outcome.next (s.withHw x)) (if_pos hguard)
      · rw [exec_laserNotReady, execLaserNotReady, atUnit_in hm, onHw_next]
        exact congrArg (fun x => Host.Outcome.next (s.withHw x)) (if_pos hguard)
    · intro hlive hnew
      obtain ⟨hports, hin, hoff, hdark⟩ := fence_laser (h.report 0x906 1 (unitNo 8 m) 3) hm 0x906 (by rw [report_fenced]; exact hnew)
      have hports' := hports.trans (report_ports h _ _ _ _ _ _ _)
      refine ⟨((h.report 0x906 1 (unitNo 8 m) 3).fence (unitNo 8 m) 0x906).peLight m true, ?_, ?_⟩
      · rw [exec_laserInputLost, execLaserInputLost, atUnit_in hm, onHw_next]
        refine congrArg (fun x => Host.Outcome.next (s.withHw x)) (if_neg ?_)
        rintro (hno | hlost)
        · exact hno hon
        · exact hlost (List.contains_iff_mem.2 hlive)
      · generalize (h.report 0x906 1 (unitNo 8 m) 3).fence (unitNo 8 m) 0x906 = h2 at hports' hin hoff hdark ⊢
        obtain ⟨hlasers, hfences, hdarken⟩ := peLight_steps h2 m
        rw [hlasers]
        refine ⟨hfences hin, hoff, hdark, fun p hlow hhigh hnorth hsouth hst hst4 => ?_⟩
        have hport := port_of_ports hports' p
        exact hdarken hnorth hsouth p hlow hhigh (by rw [hport]; exact hst) (by rw [hport]; exact hst4)

end Sys2Proof.Machine
end

section
/-!
Glean messages and the states of a port's discovery (R437 to R439, R441, R442).
-/

namespace Sys2Proof.Machine
open Sys2Proof

/-! ### A buffer that has just been taken -/

theorem tileCx_lt {k t : Nat} (hk : k < 8) (ht : t < 16) : tileCx k t < 128 := by
  rw [tileCx, cxAt]
  omega

theorem primaryHome_lt {p : Nat} (hp : p < 264) : primaryHome p < 128 := by
  unfold primaryHome
  split
  · exact tileCx_lt (by omega) (by omega)
  · rw [cxAt]
    omega

theorem alternateHome_lt {p : Nat} (hp : p < 264) : alternateHome p < 128 := by
  unfold alternateHome
  split
  · exact tileCx_lt (by omega) (by omega)
  · have hxor : (p - 256) ^^^ 2 < 2 ^ 3 := Nat.xor_lt_two_pow (by omega) (by omega)
    rw [cxAt]
    omega

theorem home_lt (h : Hw) {p : Nat} (hp : p < 264) : h.home p < 128 := by
  unfold Hw.home
  split
  · exact alternateHome_lt hp
  · exact primaryHome_lt hp

/-- A pointer made of a buffer's number passes the range checks of R129. -/
theorem mkPtr_inRange {c k n slice idx : Nat} (hc : c < 128) (hk : k ≤ 4) (hslice : slice < n) (hn : n ≤ 16) (hidx : idx < perSlice k) : ptrInRange c n (mkPtr c k slice idx) = true := by
  refine decide_eq_true ?_
  have hstride : idx * strideUnits k < 2 ^ 14 ∧ 0 < strideUnits k := by
    interval_cases k <;> simp only [perSlice] at hidx <;> simp only [strideUnits] <;> omega
  have hptr : mkPtr c k slice idx = c * 2 ^ 24 + k * 2 ^ 21 + slice * 2 ^ 16 + idx * strideUnits k := rfl
  have hcls : ptrClass (mkPtr c k slice idx) = k := by
    rw [ptrClass, bits, hptr, Nat.shiftRight_eq_div_pow]
    omega
  have hlow : bits (mkPtr c k slice idx) 13 0 = idx * strideUnits k := by
    rw [bits, hptr, Nat.shiftRight_eq_div_pow]
    omega
  rw [hcls, hlow, Nat.mul_mod_left, Nat.mul_div_cancel _ hstride.2]
  simp only [ptrSlice, bits, hptr, Nat.shiftRight_eq_div_pow]
  exact ⟨by omega, hk, by omega, by omega, by omega, trivial, hidx⟩

theorem presetSlices_le (p : Nat) : presetSlices p ≤ 16 := by
  unfold presetSlices
  split <;> omega

theorem freePtr_inRange {x : Complex} {c k ptr : Nat} (hc : c < 128) (hk : k ≤ 4) (hfree : x.freePtr c k = some ptr) : ptrInRange c x.slices ptr = true := by
  obtain ⟨i, hfind, rfl⟩ := Option.map_eq_some_iff.1 hfree
  have hi : i < x.openSlices * perSlice k := List.mem_range.1 (List.mem_of_find?_eq_some hfind)
  have hper : 0 < perSlice k := by
    interval_cases k <;> simp only [perSlice] <;> omega
  have hslice : i / perSlice k < x.openSlices := Nat.div_lt_of_lt_mul (by rwa [Nat.mul_comm])
  have hopen : x.openSlices ≤ x.slices := Nat.min_le_left _ _
  exact mkPtr_inRange hc hk (by omega) (presetSlices_le x.preset) (Nat.mod_lt i hper)

/-- A buffer just taken holds its packet; of the state beside the complex nothing has changed. -/
theorem alloc_buf? {h h' : Hw} {c ptr : Nat} {b : Buf} (halloc : h.alloc c b = some (h', ptr)) :
    (h.cx c).pick c b.pkt.len b.reserve = some ptr ∧ h' = h.modCx c (fun x => x.take ptr b) ∧ h'.buf? c ptr = some { b with cls := ptrClass ptr } := by
  obtain ⟨ptr', hpick, heq⟩ := Option.map_eq_some_iff.1 halloc
  obtain ⟨rfl, rfl⟩ := Prod.mk.inj heq
  refine ⟨hpick, rfl, ?_⟩
  rw [Hw.buf?, cx_modCx, Complex.take]
  exact tget?_tput _ _ _

/-- A buffer just taken has a pointer that passes the checks. -/
theorem alloc_ok {h h' : Hw} {c ptr : Nat} {b : Buf} (hc : c < 128) (hstate : b.state = 1) (halloc : h.alloc c b = some (h', ptr)) :
    h'.ports = h.ports ∧ h'.buf? c ptr = some { b with cls := ptrClass ptr } ∧ h'.ptrOk c ptr = true := by
  obtain ⟨hpick, rfl, hbuf⟩ := alloc_buf? halloc
  have hrange : ptrInRange c (h.cx c).slices ptr = true := by
    obtain ⟨k, hk, hfree⟩ := List.exists_of_findSome?_eq_some hpick
    have hk4 : k ≤ 4 := by
      have := List.mem_range.1 (List.mem_filter.1 hk).1
      omega
    split at hfree
    · exact freePtr_inRange hc hk4 hfree
    · cases hfree
  refine ⟨rfl, hbuf, ?_⟩
  rw [Hw.ptrOk, hbuf, cx_modCx]
  exact Bool.and_eq_true_iff.2 ⟨hrange, decide_eq_true ⟨rfl, hstate⟩⟩

/-! ### What sending a message leaves of a port's discovery -/

/-- What a port knows of its partner: state, cause, the other port, the last valid message and whether it was two-way. -/
def Glean.known (g : Glean) : Nat × Nat × Nat × Option (List Word) × Bool := (g.state, g.cause, g.other, g.last, g.twoWay)

theorem glean_modGlean (h : Hw) (p : Nat) (f : Glean → Glean) : ((h.modGlean p f).port p).glean = f (h.port p).glean := congrArg Port.glean (port_modPort h p _)

theorem glean_count (h : Hw) (p i n q : Nat) : ((h.count p i n).port q).glean = (h.port q).glean := by
  by_cases hq : q = p
  · subst hq
    rw [Hw.count, port_modPort]
  · rw [Hw.count, port_modPort_ne h _ hq]

theorem glean_modLink (h : Hw) (p : Nat) (f : Link → Link) : ((h.modLink p f).port p).glean = (h.port p).glean := by rw [Hw.modLink, port_modPort]

/-- An entry whose pointer passes its checks joins a queue, and no port's discovery changes. -/
theorem enqueue_glean {h : Hw} {p : Nat} {e : QEntry} (hok : h.ptrOk (h.home p) e.ptr = true) {b : Buf} (hb : h.buf? (h.home p) e.ptr = some b) :
    ((h.enqueue p e).port p).glean = (h.port p).glean := by
  unfold Hw.enqueue
  dsimp only
  rw [if_pos hok, Hw.entryPkt, hb, Option.map_some]
  dsimp only
  rw [port_modPort]
  split
  · exact glean_count (h.modBuf _ _ _) p 26 1 p
  · rfl

theorem firmwareSend_glean (h : Hw) {p : Nat} (hp : p < 264) (k : Pkt) : ((h.firmwareSend p k).port p).glean = (h.port p).glean := by
  unfold Hw.firmwareSend
  split
  · rfl
  · split
    · exact glean_count h p 25 1 p
    · split
      · exact glean_count h p 24 1 p
      · next h' ptr halloc =>
        obtain ⟨hports, hbuf, hok⟩ := alloc_ok (home_lt h hp) rfl halloc
        have hport := port_of_ports hports p
        have hhome : h'.home p = h.home p := by rw [Hw.home, hport, Hw.home]
        rw [enqueue_glean (b := _) (by rw [hhome]; exact hok) (by rw [hhome]; exact hbuf), hport]

theorem sendGlean_known (uid : List Byte) (h : Hw) {p : Nat} (hp : p < 264) : ((h.sendGlean uid p).port p).glean.known = (h.port p).glean.known := by
  unfold Hw.sendGlean
  split
  · rfl
  · dsimp only
    rw [glean_modGlean, firmwareSend_glean h hp]
    rfl

/-! ### The comparison with the plan -/

theorem setGlean_keeps (h : Hw) (p st cause other : Nat) : ((h.setGlean p st cause other).port p).glean.known =
    (st, cause, other, (h.port p).glean.last, (h.port p).glean.twoWay) := by
  rw [Hw.setGlean, glean_modGlean]
  rfl

theorem goMissing_known (h : Hw) (q p : Nat) : ((h.goMissing q).port p).glean.known = (h.port p).glean.known := by
  unfold Hw.goMissing
  split
  · rfl
  · rw [port_raise]
    by_cases hq : p = q
    · subst hq
      rw [glean_modGlean]
      rfl
    · rw [Hw.modGlean, port_modPort_ne h _ hq]

theorem comparePort_known {h : Hw} {p : Nat} {m : List Word} (hlast : (h.port p).glean.last = some m) :
    ((h.comparePort p).port p).glean.known = ((h.disc.outcome p m).1, (h.disc.outcome p m).2.1, (h.disc.outcome p m).2.2, some m, (h.port p).glean.twoWay) := by
  unfold Hw.comparePort
  dsimp only
  rw [hlast]
  dsimp only
  generalize h.disc.outcome p m = out
  obtain ⟨st, cause, q⟩ := out
  dsimp only
  have hset := setGlean_keeps h p st cause q
  rw [hlast] at hset
  generalize h.setGlean p st cause q = h1 at hset ⊢
  split
  · split
    · exact hset
    · exact hset
  · generalize htold : (if (h.port p).glean.state = 4 ∧ (h.port p).glean.cause = cause ∧ (h.port p).glean.other = q then h1 else h1.raise 0x0A02 _) = h2
    have hset2 : (h2.port p).glean.known = (st, cause, q, some m, (h.port p).glean.twoWay) := by
      rw [← htold]
      split <;> exact hset
    split
    · split
      · exact hset2
      · rw [goMissing_known]
        exact hset2
    · split
      · rw [goMissing_known]
        exact hset2
      · exact hset2

/-! ### A glean message that firmware takes -/

section
variable {h : Hw} {p : Nat} {k : Pkt}

/-- The peer that a message names. -/
def peerOf (w : Option (List Word)) : Option (Nat × Nat × Nat) := w.map (fun w => (wnat w 1, wnat w 2, fld w 3 15 0))

/-- A port that has heard the message `m`. -/
def Hw.heard (h : Hw) (p : Nat) (m : List Word) : Hw := h.modGlean p (fun g => { g with
  last := some m, twoWay := h.twoWay p m, lastTick := h.time.tick, messages := sat32 (g.messages + 1), silent := 0,
  sendNow := g.sendNow || (peerOf (h.port p).glean.last ≠ peerOf (some m)) })

theorem heard_known (h : Hw) (p : Nat) (m : List Word) : ((h.heard p m).port p).glean.known =
    ((h.port p).glean.state, (h.port p).glean.cause, (h.port p).glean.other, some m, h.twoWay p m) := by
  rw [Hw.heard, glean_modGlean]
  rfl

/-- What a message makes of a port that has heard it. -/
def Hw.judged (h : Hw) (p : Nat) (m : List Word) : Hw :=
  let g := (h.port p).glean
  if h.twoWay p m then
    (if g.state = 1 ∨ g.state = 2 ∨ (g.state = 4 ∧ g.cause = 6) ∨ g.last.map identityOf ≠ some (identityOf m) then (h.heard p m).comparePort p else h.heard p m)
  else if g.state = 1 then (h.heard p m).setGlean p 2 0 0
  else h.heard p m

theorem takeGlean_valid (uid : List Byte) (hlen : k.payload.length = 64) (hversion : fld (beWords k.payload) 0 31 24 = 1) (hlow : 1 ≤ fld (beWords k.payload) 0 23 16)
    (hhigh : fld (beWords k.payload) 0 23 16 ≤ 3) : h.takeGlean uid p k =
      if ((h.judged p (beWords k.payload)).port p).glean.sendNow then (h.judged p (beWords k.payload)).sendGlean uid p else h.judged p (beWords k.payload) := by
  unfold Hw.takeGlean
  exact if_neg (by omega)

theorem judged_known (h : Hw) (p : Nat) (m : List Word) :
    let g := ((h.judged p m).port p).glean
    g.last = some m ∧ g.twoWay = h.twoWay p m ∧
      (h.twoWay p m = true → (h.port p).glean.state = 1 ∨ (h.port p).glean.state = 2 → (g.state, g.cause, g.other) = h.disc.outcome p m) ∧
      (h.twoWay p m = false → g.state = if (h.port p).glean.state = 1 then 2 else (h.port p).glean.state) := by
  have hheard := heard_known h p m
  have hdisc : (h.heard p m).disc = h.disc := rfl
  unfold Hw.judged
  dsimp only
  generalize h.heard p m = h1 at hheard hdisc ⊢
  simp only [Glean.known, Prod.mk.injEq] at hheard
  obtain ⟨hst, -, -, hlast, htwo⟩ := hheard
  have hcompare := comparePort_known hlast
  simp only [Glean.known, Prod.mk.injEq] at hcompare
  obtain ⟨cst, ccause, cother, clast, ctwo⟩ := hcompare
  have hset := setGlean_keeps h1 p 2 0 0
  simp only [Glean.known, Prod.mk.injEq] at hset
  obtain ⟨sst, -, -, slast, stwo⟩ := hset
  split
  · next htrue =>
    split
    · refine ⟨clast, ctwo.trans htwo, fun _ _ => ?_, fun hfalse => absurd (hfalse.symm.trans htrue) Bool.false_ne_true⟩
      rw [cst, ccause, cother, hdisc]
    · next hnone =>
      exact ⟨hlast, htwo, fun _ hearly => absurd (hearly.elim .inl (fun htwo => .inr (.inl htwo))) hnone, fun hfalse => absurd (hfalse.symm.trans htrue) Bool.false_ne_true⟩
  · next hnot =>
    split
    · next hone => exact ⟨slast.trans hlast, stwo.trans htwo, fun htrue => absurd htrue hnot, fun _ => sst⟩
    · exact ⟨hlast, htwo, fun htrue => absurd htrue hnot, fun _ => hst⟩

theorem takeGlean_known (uid : List Byte) (hp : p < 264) (hlen : k.payload.length = 64) (hversion : fld (beWords k.payload) 0 31 24 = 1) (hlow : 1 ≤ fld (beWords k.payload) 0 23 16)
    (hhigh : fld (beWords k.payload) 0 23 16 ≤ 3) : ((h.takeGlean uid p k).port p).glean.known = ((h.judged p (beWords k.payload)).port p).glean.known := by
  rw [takeGlean_valid uid hlen hversion hlow hhigh]
  split
  · exact sendGlean_known uid _ hp
  · rfl

/-- The arrival of a packet's last byte changes the port's link and its counters alone. -/
theorem arrive_keeps (h : Hw) (p : Nat) (k : Pkt) : (∃ ports, h.arrive p k = { h with ports := ports }) ∧ ((h.arrive p k).port p).glean = (h.port p).glean ∧
    (h.arrive p k).home p = h.home p := by
  unfold Hw.arrive
  split
  · exact ⟨⟨_, rfl⟩, glean_modLink h p _, by rw [Hw.home, Hw.modLink, port_modPort]; rfl⟩
  · refine ⟨⟨_, rfl⟩, ?_, ?_⟩
    · rw [Hw.rxCount, glean_count, glean_count, glean_modLink]
    · rw [Hw.home, Hw.rxCount, Hw.count, port_modPort, Hw.count, port_modPort, Hw.modLink, port_modPort]
      rfl

end

/-- A message that passes its checks reaches firmware. -/
theorem gleanReceive_taken {s : State} {p : Nat} {k : Pkt} (hp : p < 264) (hlehr : s.hw.inLehr = false) (hup : (s.hw.port p).link.up = true) (htype : k.ptype = 5)
    (hcheck : (s.hw.arrive p k).linkCheck p k = none) (hroute : (s.hw.cdRouter (cxHalf (s.hw.home p))).isSome = true) :
    exec (.gleanReceive p k) s = .next (s.withHw (((s.hw.arrive p k).takeGlean s.fuses.deviceUid p k).freeCells p k.cls k.cells)) := by
  have hroute' : ((s.hw.arrive p k).cdRouter (cxHalf ((s.hw.arrive p k).home p))).isSome = true := by
    obtain ⟨⟨ports, hports⟩, -, hhome⟩ := arrive_keeps s.hw p k
    rw [hhome, hports]
    exact hroute
  rw [exec_gleanReceive, execGleanReceive, atUnit_in hp, onHw_next]
  refine congrArg (fun x => Host.Outcome.next (s.withHw x)) ((if_neg ?_).trans ?_)
  · rintro (hin | hdown | hother)
    · exact Bool.false_ne_true (hlehr.symm.trans hin)
    · exact hdown hup
    · exact hother htype
  · rw [Hw.recvGlean, hcheck]
    dsimp only
    rw [if_pos hroute']

/-! ### What firmware finds of the partners -/

theorem goMissing_missing (h : Hw) (p : Nat) : ((h.goMissing p).port p).glean.missing = true := by
  unfold Hw.goMissing
  split
  · assumption
  · rw [port_raise, glean_modGlean]

theorem goMissing_tells {h : Hw} {p : Nat} (hmissing : (h.port p).glean.missing = false) : h.Tells (h.goMissing p) 0x0A03 := by
  intro hon
  rw [Hw.goMissing, if_neg (by rw [hmissing]; exact Bool.false_ne_true)]
  exact raise_last (h.modGlean p _) 0x0A03 _ hon

theorem openPort_winnow (h : Hw) (p : Nat) : (h.openPort p).mesh.winnow.getLsbD p = false ∧
    ∀ q, q ≠ p → (h.openPort p).mesh.winnow.getLsbD q = h.mesh.winnow.getLsbD q := by
  have hbit (q : Nat) : (h.openPort p).mesh.winnow.getLsbD q = (h.mesh.winnow.getLsbD q && (decide (q < 264) && !(decide (q < 264) && decide (p = q)))) := by
    rw [Hw.openPort, modMesh_mesh, BitVec.getLsbD_and, BitVec.getLsbD_not, BitVec.getLsbD_ofNat, Nat.testBit_two_pow]
  refine ⟨?_, fun q hq => ?_⟩
  · rw [hbit, decide_eq_true rfl, Bool.and_true, Bool.and_not_self, Bool.and_false]
  · have hne : decide (p = q) = false := decide_eq_false (fun heq => hq heq.symm)
    rw [hbit, hne, Bool.and_false, Bool.not_false, Bool.and_true]
    by_cases hlt : q < 264
    · rw [decide_eq_true hlt, Bool.and_true]
    · rw [BitVec.getLsbD_of_ge _ _ (Nat.not_lt.1 hlt), Bool.false_and]

/-- Settles O46: a message is followed from its arrival to the comparison with the plan; the steps of E4 are read off their guards. -/
theorem gleanMessages : Obligations.GleanMessages := by
  refine ⟨?_, ?_⟩
  · intro s p k hp hlehr hup htype h m hcheck hroute hlen hversion hlow hhigh
    refine ⟨_, gleanReceive_taken hp hlehr hup htype hcheck hroute, ?_⟩
    obtain ⟨⟨ports, hports⟩, hglean, -⟩ := arrive_keeps s.hw p k
    have hknown := takeGlean_known (h := h) s.fuses.deviceUid hp hlen hversion hlow hhigh
    have hjudged := judged_known h p m
    have hfree : (((h.takeGlean s.fuses.deviceUid p k).freeCells p k.cls k.cells).port p).glean = ((h.takeGlean s.fuses.deviceUid p k).port p).glean := glean_modLink _ p _
    have htwo : h.twoWay p m = s.hw.twoWay p m := by
      change (s.hw.arrive p k).twoWay p m = _
      rw [hports]
      rfl
    have hdisc : h.disc = s.hw.disc := by
      change (s.hw.arrive p k).disc = _
      rw [hports]
    dsimp only at hjudged ⊢
    rw [hglean, htwo, hdisc] at hjudged
    rw [hfree]
    simp only [Glean.known, Prod.mk.injEq] at hknown
    obtain ⟨hst, hcause, hother, hlast, htwoWay⟩ := hknown
    rw [hst, hcause, hother, hlast, htwoWay]
    exact hjudged
  · intro s p hp h g
    refine ⟨?_, ?_, ?_, ?_, ?_, ?_, ?_, ?_, ?_⟩
    · intro hslot hstate hdue
      refine ⟨h.noEcho p, ?_, ?_⟩
      · rw [exec_gleanNoEcho, execGleanNoEcho, atUnit_in hp, atEdge_zero hslot]
      · have hecho : h.noEcho p = (h.setGlean p 4 6 0).raise 0x0A02 [w32 (p + 6 * 2 ^ 16), w32 (wnat ((h.port p).glean.last.getD []) 7)] :=
          if_neg (by rintro (hother | hearly); exacts [hother hstate, absurd hdue (Nat.not_le.2 hearly)])
        rw [hecho, port_raise, Hw.setGlean, glean_modGlean]
        exact ⟨rfl, rfl, fun hon => raise_last (h.modGlean p _) 0x0A02 _ hon⟩
    · intro hslot
      refine ⟨?_, ?_, ?_⟩
      · rw [exec_gleanNoEcho, execGleanNoEcho, atUnit_in hp, atEdge_later hslot]
      · rw [exec_neighbourMissing, execNeighbourMissing, atUnit_in hp, atEdge_later hslot]
      · rw [exec_rejoinHoldEnd, execRejoinHoldEnd, atUnit_in hp, atEdge_later hslot]
    · intro hcases
      rw [exec_gleanNoEcho, execGleanNoEcho, atUnit_in hp, atEdge, onHw_next]
      refine congrArg (fun x => Host.Outcome.next (s.withHw x)) ?_
      rw [Hw.noEcho, if_pos hcases, ite_self]
    · intro hslot hexpect hstate hdue hmissing
      refine ⟨h.goMissing p, ?_, goMissing_missing h p, goMissing_tells hmissing⟩
      rw [exec_neighbourMissing, execNeighbourMissing, atUnit_in hp, atEdge_zero hslot]
      refine congrArg (fun x => Host.Outcome.next (s.withHw x)) (if_neg ?_)
      rintro (hnone | hplanned | hearly)
      · exact hexpect hnone
      · exact hstate hplanned
      · exact absurd hdue (Nat.not_le.2 hearly)
    · intro hcases
      have hsame : h.notFound p = h := by
        unfold Hw.notFound
        dsimp only
        split
        · rfl
        · next hfound =>
          refine if_pos ?_
          obtain hnone | hplanned | hmissing := hcases
          · exact absurd (.inl hnone) hfound
          · exact absurd (.inr (.inl hplanned)) hfound
          · exact hmissing
      rw [exec_neighbourMissing, execNeighbourMissing, atUnit_in hp, atEdge, onHw_next]
      refine congrArg (fun x => Host.Outcome.next (s.withHw x)) ?_
      rw [hsame, ite_self]
    · intro hstate hsilent
      refine ⟨(h.setGlean p 1 0 0).goMissing p, ?_, ?_, goMissing_missing _ p⟩
      · rw [exec_gleanSilence, execGleanSilence, atUnit_in hp, onHw_next]
        refine congrArg (fun x => Host.Outcome.next (s.withHw x)) (if_neg ?_)
        rintro (hother | hearly)
        · exact hother hstate
        · exact absurd hsilent (Nat.not_le.2 hearly)
      · have hknown := (goMissing_known (h.setGlean p 1 0 0) p p).trans (setGlean_keeps h p 1 0 0)
        exact (Prod.mk.inj hknown).1
    · intro hearly
      rw [exec_gleanSilence, execGleanSilence, atUnit_in hp, onHw_next]
      exact congrArg (fun x => Host.Outcome.next (s.withHw x)) (if_pos (.inr hearly))
    · intro hslot hopen
      refine ⟨h.openPort p, ?_, openPort_winnow h p⟩
      rw [exec_rejoinHoldEnd, execRejoinHoldEnd, atUnit_in hp, atEdge_zero hslot]
      exact congrArg (fun x => Host.Outcome.next (s.withHw x)) (if_pos hopen)
    · intro hclosed
      rw [exec_rejoinHoldEnd, execRejoinHoldEnd, atUnit_in hp, atEdge, onHw_next]
      refine congrArg (fun x => Host.Outcome.next (s.withHw x)) ?_
      rw [if_neg (fun hopen => Bool.false_ne_true (hclosed.symm.trans hopen)), ite_self]

end Sys2Proof.Machine
end

section
/-!
A contribution at its home (R263 to R265, R279, Table 9.2).
-/

namespace Sys2Proof.Machine
open Sys2Proof

/-! ### The checks of the home in their order -/

section
variable {h : Hw} {c : Nat} {mp : MeshPkt} {x : Group} {n : Gen} {i : Nat} {o : Chunk}

theorem verdict_gone (hgrp : h.grp? mp.pkt.grp = none) : h.verdict c mp = .gone := by
  rw [Hw.verdict]
  dsimp only
  rw [hgrp]

section
variable (hgrp : h.grp? mp.pkt.grp = some x)
include hgrp

theorem verdict_closed (hclosed : x.state = .closed) : h.verdict c mp = .drop 1 := by
  rw [Hw.verdict]
  dsimp only
  rw [hgrp]
  exact if_pos (.inl hclosed)

variable (hopen : x.state ≠ .closed) (hidle : (h.job x.cfg.job).running = none)
include hopen hidle

omit hgrp in
theorem open_of : ¬ (x.state = .closed ∨ (h.job x.cfg.job).running.isSome = true) := by
  rw [hidle]
  rintro (hclosed | hsome)
  · exact hopen hclosed
  · cases hsome

theorem verdict_noGen (hgen : x.genLow mp.pkt.gen = none) : h.verdict c mp = .drop 6 := by
  rw [Hw.verdict]
  dsimp only
  rw [hgrp]
  refine (if_neg (open_of hopen hidle)).trans ?_
  rw [hgen]

variable (hgen : x.genLow mp.pkt.gen = some n)
include hgen

theorem verdict_noEntry (hentry : x.entryOf mp.pkt = none) : h.verdict c mp = .drop 5 := by
  rw [Hw.verdict]
  dsimp only
  rw [hgrp]
  refine (if_neg (open_of hopen hidle)).trans ?_
  rw [hgen]
  dsimp only
  rw [hentry]

variable (hentry : x.entryOf mp.pkt = some i) (hrank : (memberOf x.cfg i).part = false)
include hentry hrank

theorem verdict_offList (hlist : i ∉ n.list) : h.verdict c mp = .drop 5 := by
  rw [Hw.verdict]
  dsimp only
  rw [hgrp]
  refine (if_neg (open_of hopen hidle)).trans ?_
  rw [hgen]
  dsimp only
  rw [hentry]
  refine if_pos ⟨?_, fun hin => hlist (List.contains_iff_mem.1 hin)⟩
  rw [hrank]
  exact Bool.false_ne_true

/-- A RANK entry of the generation's list: what is left of the home's checks. -/
theorem verdict_listed (hlist : i ∈ n.list) : h.verdict c mp =
    (let oc := tget? n.open_ mp.pkt.chunk
     if (x.gen? n.no).isNone ∨ n.done.contains mp.pkt.chunk ∨ oc.any (·.ending) then .drop 6
     else if (oc.elim n.lost (·.lost)).contains i then .drop 6
     else if oc.any (fun o => o.counted.contains i) then .drop 8
     else
       let at_ := oc.elim (locCx (h.locate h.mesh.injEpoch (homeOf mp.pkt.grp n.homes mp.pkt.chunk))) (·.cx)
       if oc.any (fun o => o.slotLost ∨ o.frozen) then .hold
       else if at_ ≠ c then .away at_
       else if (h.cx c).attach ≠ .serving then .hold
       else if oc.isNone ∧ ¬ (x.slotFree mp.pkt.grp n mp.pkt.chunk ∧ x.bankFree mp.pkt.grp n mp.pkt.chunk) then .hold
       else if x.cfg.ordered ∧ ¬ x.cfg.gather ∧ ¬ (if (h.contribAtt x n).isNone then h.orderedDue c x n mp.pkt i else x.inOrder n mp.pkt.chunk i) then .hold
       else .add) := by
  rw [Hw.verdict]
  dsimp only
  rw [hgrp]
  refine (if_neg (open_of hopen hidle)).trans ?_
  rw [hgen]
  dsimp only
  rw [hentry]
  refine (if_neg ?_).trans (if_neg ?_)
  · rintro ⟨-, hoff⟩
    exact hoff (List.contains_iff_mem.2 hlist)
  · rintro ⟨hpart, -⟩
    exact Bool.false_ne_true (hrank.symm.trans hpart)

theorem verdict_finished (hlist : i ∈ n.list) (hdone : x.gen? n.no = none ∨ mp.pkt.chunk ∈ n.done) : h.verdict c mp = .drop 6 := by
  rw [verdict_listed hgrp hopen hidle hgen hentry hrank hlist]
  refine if_pos ?_
  obtain hnone | hin := hdone
  · exact .inl (Option.isNone_iff_eq_none.2 hnone)
  · exact .inr (.inl (List.contains_iff_mem.2 hin))

variable (hlist : i ∈ n.list) (hflight : x.gen? n.no ≠ none) (hpending : mp.pkt.chunk ∉ n.done) (hchunk : tget? n.open_ mp.pkt.chunk = some o) (hending : o.ending = false)
include hlist hflight hpending hchunk hending

/-- A RANK entry whose chunk is open: whether it is LOST there or counted, then where the slot lies. -/
theorem verdict_open : h.verdict c mp =
    if o.lost.contains i then .drop 6
    else if o.counted.contains i then .drop 8
    else if decide (o.slotLost = true ∨ o.frozen = true) = true then .hold
    else if o.cx ≠ c then .away o.cx
    else if (h.cx c).attach ≠ .serving then .hold
    else if x.cfg.ordered ∧ ¬ x.cfg.gather ∧ ¬ (if (h.contribAtt x n).isNone then h.orderedDue c x n mp.pkt i else x.inOrder n mp.pkt.chunk i) then .hold
    else .add := by
  rw [verdict_listed hgrp hopen hidle hgen hentry hrank hlist]
  dsimp only
  rw [hchunk]
  refine (if_neg ?_).trans ?_
  · rintro (hnone | hin | hend)
    · exact hflight (Option.isNone_iff_eq_none.1 hnone)
    · exact hpending (List.contains_iff_mem.1 hin)
    · exact Bool.false_ne_true (hending.symm.trans hend)
  · rw [if_neg (c := ((some o).isNone = true ∧ _)) (fun hnone => Bool.false_ne_true hnone.1)]
    rfl

end

end

/-! ### A contribution that has just come in -/

/-- A contribution that a rank sends matches no PARTIAL entry. -/
theorem not_partial_of_entry {x : Group} {k : Pkt} {i : Nat} (hentry : x.entryOf k = some i) (hrank : (memberOf x.cfg i).part = false) : k.partialBit = false := by
  by_contra hpartial
  rw [Group.entryOf, if_pos (Bool.eq_true_of_not_eq_false hpartial)] at hentry
  split at hentry
  · cases hentry
  · obtain ⟨a, -, hpart⟩ := Option.bind_eq_some_iff.1 hentry
    have hmem := (List.mem_filter.1 (List.mem_of_head? hpart)).2
    exact Bool.false_ne_true (hrank.symm.trans (of_decide_eq_true hmem).1)

section
variable {s : State} {c : Nat} {mp : MeshPkt} (hc : c < 144) (hattach : (s.hw.cx c).attach ≠ .detached) (hheld : (s.hw.cx c).held = []) (hwork : (s.hw.cx c).work = [mp])
  (htype : mp.pkt.ptype = 2) (hwhole : wholeIn [mp] mp = true) (htake : s.hw.canTake c mp = true)

/-- The state in which the home acts on a contribution that has come in. -/
def Hw.takenIn (h : Hw) (c : Nat) (mp : MeshPkt) : Hw := (h.partialIn c mp.pkt (h.verdict c mp)).modCx c (fun x => { x with work := [] })

theorem partialIn_cxs (h : Hw) (c : Nat) (k : Pkt) (v : Verdict) : (h.partialIn c k v).cxs = h.cxs := by
  unfold Hw.partialIn
  dsimp only
  split
  · rfl
  · exact modGrp_cxs h _ _

theorem cx_of_cxs {h h' : Hw} (hcxs : h'.cxs = h.cxs) (c : Nat) : h'.cx c = h.cx c := by rw [Hw.cx, hcxs]; rfl

include hc hattach hheld hwork htype hwhole htake

theorem contribAtHome_settles : exec (.contribAtHome c) s =
    .next (s.withHw ((s.hw.takenIn c mp).settleContrib c { mp := mp, half := if mp.pkt.partialBit then s.hw.reserveHalf c mp.pkt else none } (s.hw.verdict c mp))) := by
  rw [exec_contribAtHome, execContribAtHome, atUnit_in hc, onHw_next]
  dsimp only
  rw [if_neg hattach, hheld, List.find?_nil, hwork]
  dsimp only
  have hfilter : [mp].filter (fun mp => decide (mp.pkt.ptype = 2)) = [mp] := by rw [List.filter_singleton, decide_eq_true htype]; rfl
  have hfind : [mp].find? (fun q => wholeIn [mp] q && s.hw.canTake c q) = some mp := by rw [List.find?_singleton, hwhole, htake]; rfl
  rw [hfilter, hfind]
  dsimp only
  rw [Hw.takenIn, modCx_congr (g := fun x => { x with work := [] })]
  rw [cx_of_cxs (partialIn_cxs _ _ _ _), hwork]
  simp

end

theorem partialIn_whole {h : Hw} {c : Nat} {k : Pkt} (v : Verdict) (hpartial : k.partialBit = false) : h.partialIn c k v = h := by
  rw [Hw.partialIn, if_pos (.inl (by rw [hpartial]; exact Bool.false_ne_true))]

/-- A contribution that must wait goes into a shared buffer of its home. -/
theorem holdAtHome_waits {h : Hw} {c : Nat} {mp : MeshPkt} (hpartial : mp.pkt.partialBit = false) (hheld : (h.cx c).held = []) (hpick : ((h.cx c).pick c mp.pkt.len false).isSome = true) :
    ∃ q p b, ((h.holdAtHome c mp).cx c).held = [q] ∧ q.mp = mp ∧ q.half = none ∧ q.ptr = some p ∧ (h.holdAtHome c mp).buf? c p = some b ∧ b.pkt = mp.pkt := by
  obtain ⟨ptr, hptr⟩ := Option.isSome_iff_exists.1 hpick
  have halloc : h.alloc c { pkt := mp.pkt, cls := 0, owner := homeUnit, epoch := mp.epoch } =
      some (h.modCx c (fun x => x.take ptr { pkt := mp.pkt, cls := 0, owner := homeUnit, epoch := mp.epoch }), ptr) := by
    rw [Hw.alloc]
    exact congrArg (Option.map _) hptr
  obtain ⟨-, -, hbuf⟩ := alloc_buf? halloc
  have hkept : (h.cx c).held = ((h.modCx c (fun x => x.take ptr { pkt := mp.pkt, cls := 0, owner := homeUnit, epoch := mp.epoch })).cx c).held := by rw [cx_modCx]; rfl
  rw [Hw.holdAtHome]
  dsimp only
  rw [if_neg (by rw [hpartial]; exact Bool.false_ne_true), halloc]
  dsimp only
  rw [if_neg (by rw [hpartial]; exact Bool.false_ne_true)]
  generalize h.modCx c _ = h1 at hbuf hkept ⊢
  have hcx : ((h1.modCx c (fun x => { x with held := x.held ++ [{ mp := mp, ptr := some ptr }] })).countG mp.pkt.grp 10).cx c =
      { (h1.cx c) with held := (h1.cx c).held ++ [{ mp := mp, ptr := some ptr }] } := by
    rw [Hw.countG, cx_of_cxs (modGrp_cxs _ _ _), cx_modCx]
  refine ⟨{ mp := mp, ptr := some ptr }, ptr, { pkt := mp.pkt, cls := ptrClass ptr, owner := homeUnit, epoch := mp.epoch }, ?_, rfl, rfl, rfl, ?_, rfl⟩
  · rw [hcx, ← hkept, hheld]
    rfl
  · rw [Hw.buf?, hcx]
    exact hbuf

/-! ### A contribution that is added -/

section
variable {h : Hw} {c : Nat} {mp : MeshPkt} {x : Group} {n : Gen} {i : Nat} {o : Chunk} (hgrp : h.grp? mp.pkt.grp = some x) (hgens : x.gens = [n]) (hlow : n.no % 2 ^ 16 = mp.pkt.gen)
  (hentry : x.entryOf mp.pkt = some i) (hrank : (memberOf x.cfg i).part = false) (hchunk : tget? n.open_ mp.pkt.chunk = some o) (hgather : x.cfg.gather = false)
  (hordered : x.cfg.ordered = false) (hbuiltin : h.contribAtt x n = none)

/-- A generation whose chunk `k` has taken the contribution of entry `i`. -/
def Gen.withAdded (n : Gen) (x : Group) (k : Pkt) (i : Nat) (o : Chunk) : Gen :=
  let sum := addInto x.cfg x.cfg.arith.mode i k o.accs o.ctr
  { n with open_ := tput n.open_ k.chunk { o with accs := sum.1, ctr := sum.2, counted := o.counted ++ [i] }, received := n.received + 1 }

include hgrp hgens

theorem modGen_only (f : Gen → Gen) : (h.modGen mp.pkt.grp n.no f).grp? mp.pkt.grp = some { x with gens := [f n] } := by
  rw [Hw.modGen, grp?_modGrp, hgrp, Option.map_some, Group.modGen, hgens, List.map_singleton, if_pos rfl]

include hlow hentry hrank hchunk hgather hordered hbuiltin

/-- A contribution added at its home, when its chunk does not finish with it. -/
theorem addContrib_added (hgoes : ({ x with gens := [n.withAdded x mp.pkt i o] } : Group).mayFinish (n.withAdded x mp.pkt i o) mp.pkt.chunk = false) {half : Option (Nat × Bool)} :
    h.addContrib c { mp := mp, half := half } = (h.spendAdd c mp.pkt.grp x).modGen mp.pkt.grp n.no (fun n => n.withAdded x mp.pkt i o) := by
  have hfind : (h.grp? mp.pkt.grp).bind (fun x => (x.gens.find? (fun n => decide (n.no % 2 ^ 16 = mp.pkt.gen))).bind (fun n => (x.entryOf mp.pkt).map (fun i => (x, n, i)))) = some (x, n, i) := by
    rw [hgrp, Option.bind_some, hgens, List.find?_singleton, decide_eq_true hlow, if_pos rfl, Option.bind_some, hentry, Option.map_some]
  have hspent : (h.spendAdd c mp.pkt.grp x).grp? mp.pkt.grp = some x := hgrp
  rw [Hw.addContrib]
  dsimp only
  rw [hfind]
  dsimp only
  rw [hbuiltin, hgather, hordered, hchunk]
  dsimp only [Option.getD_some]
  rw [if_neg Bool.false_ne_true, if_neg Bool.false_ne_true]
  generalize h.spendAdd c mp.pkt.grp x = h1 at hspent ⊢
  have hcount : h1.countIn x n mp.pkt i { o with accs := (addInto x.cfg x.cfg.arith.mode i mp.pkt o.accs o.ctr).1, ctr := (addInto x.cfg x.cfg.arith.mode i mp.pkt o.accs o.ctr).2 } =
      h1.modGen mp.pkt.grp n.no (fun n => n.withAdded x mp.pkt i o) := by
    rw [Hw.countIn]
    dsimp only
    rw [hrank, if_pos Bool.false_ne_true, if_neg Bool.false_ne_true]
    rfl
  rw [hcount, Hw.finishIfDone, modGen_only hspent hgens]
  have hgen : ({ x with gens := [n.withAdded x mp.pkt i o] } : Group).gen? n.no = some (n.withAdded x mp.pkt i o) := by
    rw [Group.gen?, List.find?_singleton]
    exact if_pos (decide_eq_true rfl)
  rw [Option.bind_some, hgen, Option.map_some]
  exact if_neg (fun hdone => Bool.false_ne_true (hgoes.symm.trans hdone.2))

end

/-- Settles O47: the checks are read one after the other; what the home does with its verdict is the state's rules for buffers, generations and counters. -/
theorem contributionAtHome : Obligations.ContributionAtHome := by
  refine ⟨?_, ?_⟩
  · intro h c mp k
    refine ⟨verdict_gone, fun x hgrp hclosed => verdict_closed hgrp hclosed, fun x hgrp hopen hidle hgen => verdict_noGen hgrp hopen hidle hgen, ?_⟩
    intro x n hgrp hopen hidle hgen
    refine ⟨verdict_noEntry hgrp hopen hidle hgen, fun i hentry hrank => ⟨verdict_offList hgrp hopen hidle hgen hentry hrank,
      verdict_finished hgrp hopen hidle hgen hentry hrank, ?_⟩⟩
    intro o hlist hflight hpending hchunk hending
    have hverdict := verdict_open (c := c) hgrp hopen hidle hgen hentry hrank hlist hflight hpending hchunk hending
    refine ⟨fun hlost => hverdict.trans (if_pos (List.contains_iff_mem.2 hlost)), fun hkept hcounted => hverdict.trans ?_, fun hkept hnew hslot hmoving => ?_⟩
    · rw [if_neg (fun hin => hkept (List.contains_iff_mem.1 hin)), if_pos (List.contains_iff_mem.2 hcounted)]
    · rw [if_neg (fun hin => hkept (List.contains_iff_mem.1 hin)), if_neg (fun hin => hnew (List.contains_iff_mem.1 hin)), hslot, hmoving, if_neg (by decide)] at hverdict
      refine ⟨fun haway => hverdict.trans (if_pos haway), fun hhere hout => hverdict.trans ?_, fun hhere hserving hordered => hverdict.trans ?_⟩
      · rw [if_neg (not_not.2 hhere), if_pos hout]
      · rw [if_neg (not_not.2 hhere), if_neg (not_not.2 hserving), hordered, if_neg (fun hdue => Bool.false_ne_true hdue.1)]
  · intro s c mp hc hattach hheld hwork htype hwhole htake h run
    have hrun : run = _ := contribAtHome_settles hc hattach hheld hwork htype hwhole htake
    refine ⟨fun hv => hrun.trans ?_, fun d hv => hrun.trans ?_, fun hv => hrun.trans ?_, fun d hv => hrun.trans ?_, fun hv hwholePkt => ?_, ?_⟩
    · rw [hv]; rfl
    · rw [hv]; rfl
    · rw [hv]; rfl
    · rw [hv]; rfl
    · have hin : s.hw.takenIn c mp = s.hw.modCx c (fun x => { x with work := [] }) := by rw [Hw.takenIn, partialIn_whole _ hwholePkt]
      have hpick : (((s.hw.takenIn c mp).cx c).pick c mp.pkt.len false).isSome = true := by
        rw [Hw.canTake, hv, hwholePkt] at htake
        rw [hin, cx_modCx]
        exact htake
      obtain ⟨q, p, b, hq, hmp, hhalf, hptr, hbuf, hpkt⟩ := holdAtHome_waits hwholePkt (by rw [hin, cx_modCx]; exact hheld) hpick
      rw [hv] at hrun
      exact ⟨_, q, hrun, hq, hmp, hhalf, p, b, hptr, hbuf, hpkt⟩
    · intro x n i o hv hgrp hgens hlow hentry hrank hchunk hgather hordered hbuiltin sum o' n' hgoes
      have hin : s.hw.takenIn c mp = s.hw.modCx c (fun x => { x with work := [] }) := by rw [Hw.takenIn, partialIn_whole _ (not_partial_of_entry hentry hrank)]
      rw [hv, hin] at hrun
      have hadd := addContrib_added (h := s.hw.modCx c (fun x => { x with work := [] })) (c := c) (half := if mp.pkt.partialBit then s.hw.reserveHalf c mp.pkt else none)
        hgrp hgens hlow hentry hrank hchunk hgather hordered hbuiltin hgoes
      refine ⟨_, hrun.trans (congrArg (fun x => Host.Outcome.next (s.withHw x)) hadd), ?_, ?_, fun g hg => ?_⟩
      · exact modGen_only (h := (s.hw.modCx c (fun x => { x with work := [] })).spendAdd c mp.pkt.grp x) hgrp hgens _
      · rw [Hw.modGen, cx_of_cxs (modGrp_cxs _ _ _), Hw.spendAdd, Hw.spendCycles, cx_modCx, cx_modCx]
      · rw [Hw.modGen, grp?_modGrp_ne _ _ hg]
        rfl

end Sys2Proof.Machine
end

section
/-!
PROGRAM_LOAD and PROGRAM_UNLOAD (R335, Table 11.11).
-/

namespace Sys2Proof.Machine
open Sys2Proof

/-! ### A whole image: its checks in their order -/

section
variable {fz : Fuses} {h : Hw} {handle : Nat} {b : List Byte}

theorem loadImage_malformed (hok : imageOk b = false) : loadImage fz h handle b = (h, stInvalid, 4, []) := by
  rw [loadImage, if_pos (by rw [hok]; exact Bool.false_ne_true)]
  rfl

theorem loadImage_unsigned (hok : imageOk b = true) (hauth : imageAuth fz b = false) : loadImage fz h handle b = (h, stAuth, 0, []) := by
  rw [loadImage, if_neg (not_not.2 hok), if_pos (by rw [hauth]; exact Bool.false_ne_true)]
  rfl

variable (hok : imageOk b = true) (hauth : imageAuth fz b = true)
include hok hauth

theorem loadImage_taken (htaken : (tget? h.progs.images handle).isSome = true) : loadImage fz h handle b = (h, stInvalid, 0, []) := by
  rw [loadImage, if_neg (not_not.2 hok), if_neg (not_not.2 hauth), if_pos htaken]
  rfl

theorem loadImage_noRoom (hfree : tget? h.progs.images handle = none) (hroom : h.progs.room (imgWord b 0x0C) = none) :
    loadImage fz h handle b = (h, stNoResource, 7, []) := by
  rw [loadImage, if_neg (not_not.2 hok), if_neg (not_not.2 hauth), if_neg (by rw [hfree]; exact Bool.false_ne_true), hroom]
  rfl

theorem loadImage_loads {base : Nat} (hfree : tget? h.progs.images handle = none) (hroom : h.progs.room (imgWord b 0x0C) = some base) :
    loadImage fz h handle b = (h.modProgs (fun p => { p with images := tput p.images handle (imageOf b base), pieces := tdel p.pieces handle }), stOk, 0,
      [w32 base, w32 (imgWord b 8)]) := by
  rw [loadImage, if_neg (not_not.2 hok), if_neg (not_not.2 hauth), if_neg (by rw [hfree]; exact Bool.false_ne_true), hroom]
end

/-! ### The commands -/

section
variable {s : State} {c : Nat} {r : Request} (hc : c < 16)
include hc

/-- A load over BAR2 answers what the image's checks give. -/
theorem execProgramLoad_bulk {h' : Hw} {st d : Nat} {out : List Word} (ha : s.hw.Asks c 0x0701 r) (hbar : c < 12) (hhandle : fld r.payload 0 5 0 ≠ 0)
    (hlo : 260 ≤ wnat r.payload 2) (hhi : wnat r.payload 2 ≤ 200960) (hpieces : tget? s.hw.progs.pieces (fld r.payload 0 5 0) = none)
    (hload : loadImage s.fuses s.hw (fld r.payload 0 5 0) (memReadList 0 s.hw.ctl.bulk (wnat r.payload 1) (wnat r.payload 2)) = (h', st, d, out))
    (hchans : h'.ctl.chans = s.hw.ctl.chans) : exec (.programLoad c) s = .next (s.withHw (h'.answered c r st d out)) := by
  rw [exec_programLoad, execProgramLoad]
  refine answer_changed hc ha ?_ hchans
  dsimp only
  rw [if_neg hhandle, if_pos hbar, if_neg (by omega), if_neg (by rw [hpieces]; exact Bool.false_ne_true), hload]

/-- The first piece of an image over MCTP, with more to come. -/
theorem execProgramLoad_piece (ha : s.hw.Asks c 0x0701 r) (hmctp : 12 ≤ c) (hhandle : fld r.payload 0 5 0 ≠ 0) (hlo : 260 ≤ wnat r.payload 2) (hhi : wnat r.payload 2 ≤ 200960)
    (h1 : wnat r.payload 1 = 0) (h3 : wnat r.payload 3 = 0) (hmore : (r.payload.drop 4).length * 4 < wnat r.payload 2) (hfree : tget? s.hw.progs.images (fld r.payload 0 5 0) = none) :
    exec (.programLoad c) s = .next (s.withHw
      ((s.hw.modProgs (fun q => { q with pieces := tput q.pieces (fld r.payload 0 5 0) ((r.payload.drop 4).flatMap leBytes) })).answered c r stStaged 0 [])) := by
  have hlen : ((r.payload.drop 4).flatMap leBytes).length < wnat r.payload 2 := by
    rw [length_flatMap_const leBytes_length]
    omega
  rw [exec_programLoad, execProgramLoad]
  refine answer_changed hc ha ?_ rfl
  dsimp only
  rw [if_neg hhandle, if_neg (by omega), if_neg (not_not.2 h1), if_neg (by omega), if_pos h3, List.nil_append, if_neg (by simp only [List.length_nil]; omega),
    if_neg (by rw [hfree]; exact Bool.false_ne_true), if_pos hlen]

/-- An image that is loaded, attached nowhere, and named by no staged attach. -/
theorem execProgramUnload_idle (ha : s.hw.Asks c 0x0704 r) (hloaded : (tget? s.hw.progs.images (fld r.payload 0 5 0)).isSome = true)
    (hatts : ∀ e ∈ s.hw.progs.atts, e.2.handle ≠ fld r.payload 0 5 0) (hstaged : ∀ e ∈ s.hw.ctl.chans, ∀ t ∈ e.2.staging, t.opcode ≠ 0x0702) :
    exec (.programUnload c) s = .next (s.withHw ((s.hw.modProgs (fun q => { q with images := tdel q.images (fld r.payload 0 5 0) })).answered c r stOk 0 [])) := by
  rw [exec_programUnload, execProgramUnload]
  refine answer_changed hc ha ?_ rfl
  refine if_neg ?_
  rintro (hnone | hany | hany)
  · rw [Option.isNone_iff_eq_none] at hnone
    rw [hnone] at hloaded
    exact Bool.false_ne_true hloaded
  · obtain ⟨e, he, ht⟩ := List.any_eq_true.1 hany
    obtain ⟨t, ht, hop⟩ := List.any_eq_true.1 ht
    exact hstaged e he t ht (of_decide_eq_true hop).1
  · obtain ⟨e, he, hh⟩ := List.any_eq_true.1 hany
    exact hatts e he (of_decide_eq_true hh)

/-- An image that is attached. -/
theorem execProgramUnload_attached {e : Nat × Att} (he : e ∈ s.hw.progs.atts) (hh : e.2.handle = fld r.payload 0 5 0) (ha : s.hw.Asks c 0x0704 r) :
    exec (.programUnload c) s = .next (s.withHw (s.hw.answered c r stInvalid 0 [])) := by
  rw [exec_programUnload, execProgramUnload]
  exact answer_unchanged hc ha (if_pos (Or.inr (Or.inr (List.any_eq_true.2 ⟨e, he, decide_eq_true hh⟩))))
end

/-- Settles O49: the checks of a whole image in their order, the first piece over MCTP, and the unloading of an image that nothing uses. -/
theorem programLoading : Obligations.ProgramLoading := by
  unfold Obligations.ProgramLoading
  intro s c r hc h p handle len
  refine ⟨fun ha hbar hhandle hlo hhi hpieces => ⟨fun hok => ?_, fun hok hauth => ?_, fun hok hauth htaken => ?_, fun hok hauth hfree hroom => ?_, fun base hok hauth hfree hroom => ?_⟩,
    fun ha hmctp hhandle hlo hhi h1 h3 hmore hfree => execProgramLoad_piece hc ha hmctp hhandle hlo hhi h1 h3 hmore hfree,
    fun ha hloaded hatts hstaged => execProgramUnload_idle hc ha hloaded hatts hstaged, fun e he hh ha => execProgramUnload_attached hc he hh ha,
    fun hnone => ?_, fun hnone => ?_⟩
  · exact execProgramLoad_bulk hc ha hbar hhandle hlo hhi hpieces (loadImage_malformed hok) rfl
  · exact execProgramLoad_bulk hc ha hbar hhandle hlo hhi hpieces (loadImage_unsigned hok hauth) rfl
  · exact execProgramLoad_bulk hc ha hbar hhandle hlo hhi hpieces (loadImage_taken hok hauth htaken) rfl
  · exact execProgramLoad_bulk hc ha hbar hhandle hlo hhi hpieces (loadImage_noRoom hok hauth hfree hroom) rfl
  · exact execProgramLoad_bulk hc ha hbar hhandle hlo hhi hpieces (loadImage_loads hok hauth hfree hroom) rfl
  · rw [exec_programLoad, execProgramLoad, atUnit_in hc, onHw_next]
    exact congrArg (fun x => Host.Outcome.next (s.withHw x)) (withRequest_none hnone _)
  · rw [exec_programUnload, execProgramUnload, atUnit_in hc, onHw_next]
    exact congrArg (fun x => Host.Outcome.next (s.withHw x)) (withRequest_none hnone _)

end Sys2Proof.Machine
end

section
/-!
Resets, supplies, the thermal trip, boot, the armed reset, and register writes (R43 to R47, R62, R63, R67, R70, R503, R504, R515, R537).
-/

namespace Sys2Proof.Machine
open Sys2Proof

/-! ### What reports and events leave of the control part and of the collector -/

/-- The control part but for what an event that is raised changes. -/
def Hw.CtlTold (h h' : Hw) : Prop := ∃ raised count out ibi, h'.ctl = { h.ctl with raised := raised, eventCount := count, mctpOut := out, i3cIbi := ibi }

theorem Hw.CtlTold.of_ctl {h h' : Hw} (e : h'.ctl = h.ctl) : h.CtlTold h' := ⟨_, _, _, _, e⟩

theorem Hw.CtlTold.trans {h h' h'' : Hw} (t : h.CtlTold h') (t' : h'.CtlTold h'') : h.CtlTold h'' := by
  obtain ⟨_, _, _, _, e⟩ := t
  obtain ⟨_, _, _, _, e'⟩ := t'
  exact ⟨_, _, _, _, by rw [e', e]⟩

theorem raise_ctlTold (h : Hw) (code : Nat) (data : List Word) : h.CtlTold (h.raise code data) := raise_ctl h code data

theorem enterSafe_ctlTold (h : Hw) (s : Nat) : h.CtlTold (h.enterSafe s) := by
  unfold Hw.enterSafe
  split
  · exact .of_ctl rfl
  · exact raise_ctlTold ((h.modFaults _).modMesh _) 0x0B03 _

theorem report_ctlTold (h : Hw) (s cls unit action : Nat) (data : List Word) (forced notify : Bool) : h.CtlTold (h.report s cls unit action data forced notify) := by
  unfold Hw.report
  dsimp only
  split
  · exact .of_ctl rfl
  · split
    · exact enterSafe_ctlTold ((h.modFaults _).modFaults _) s
    · exact .of_ctl rfl

/-- Entry to the safe state leaves the rails and the counts of the sources. -/
theorem enterSafe_faults (h : Hw) (s : Nat) :
    (h.enterSafe s).faults.state = .safe ∧ (h.enterSafe s).faults.railsOut = h.faults.railsOut ∧ (h.enterSafe s).faults.sources = h.faults.sources := by
  unfold Hw.enterSafe
  split
  · next hsafe => exact ⟨hsafe, rfl, rfl⟩
  · exact ⟨rfl, rfl, rfl⟩

/-- An occurrence of class C3 of a source. -/
theorem report_c3 (h : Hw) (s unit action : Nat) (data : List Word) (forced notify : Bool) :
    let f := (h.report s 3 unit action data forced notify).faults
    f.state = .safe ∧ f.railsOut = h.faults.railsOut ∧ (f.src s).worst = max (h.faults.src s).worst 3 := by
  intro f
  obtain ⟨g, hg, hrails, hworst⟩ : ∃ g : Hw, f = (g.enterSafe s).errnSettle.faults ∧ g.faults.railsOut = h.faults.railsOut ∧
      (tget {} g.faults.sources s).worst = max (h.faults.src s).worst 3 := ⟨_, rfl, rfl, by
    simp only [Hw.modFaults, Faults.write, Faults.modSrc, Faults.src, tmod, tget_tput]⟩
  obtain ⟨hsafe, hrails', hsources⟩ := enterSafe_faults g s
  rw [hg]
  exact ⟨hsafe, hrails'.trans hrails, by rw [← hworst, ← hsources]; rfl⟩

/-! ### Boot -/

/-- Firmware of a slot runs on a processor, and serves the channels. -/
def Hw.RunsSlot (h : Hw) (slot mp : Nat) : Prop :=
  h.ctl.phase = .running ∧ h.ctl.runningSlot = slot ∧ h.ctl.activeMp = mp ∧ ∀ c, c < 16 → (h.chan c).enabled = true

section
variable {h h' : Hw} {slot mp : Nat} (hr : h.RunsSlot slot mp)
include hr

theorem Hw.RunsSlot.of_ctl (e : h'.ctl = h.ctl) : h'.RunsSlot slot mp := by
  unfold Hw.RunsSlot Hw.chan
  rw [e]
  exact hr

theorem Hw.RunsSlot.raise (code : Nat) (data : List Word) : (h.raise code data).RunsSlot slot mp := by
  obtain ⟨hphase, hslot, hmp, hchans⟩ := hr
  obtain ⟨_, _, _, _, e⟩ := raise_ctl h code data
  refine ⟨?_, ?_, ?_, fun c hc => ?_⟩
  · rw [e]; exact hphase
  · rw [e]; exact hslot
  · rw [e]; exact hmp
  · rw [chan_raise]; exact hchans c hc

theorem Hw.RunsSlot.reply (ch st d : Nat) (out : List Word) : (h.reply ch st d out).RunsSlot slot mp := by
  obtain ⟨hphase, hslot, hmp, hchans⟩ := hr
  refine ⟨hphase, hslot, hmp, fun c hc => ?_⟩
  by_cases hcc : c = ch
  · subst hcc
    rw [Hw.reply, chan_modChan]
    split <;> exact hchans c hc
  · rw [Hw.reply, chan_modChan_ne _ _ hcc]
    exact hchans c hc
end

theorem blindBringUp_ctl (h : Hw) (p : Nat) : (h.blindBringUp p).ctl = h.ctl := by
  unfold Hw.blindBringUp
  dsimp only
  split <;> rfl

theorem trainAll_ctl (h : Hw) : h.trainAll.ctl = h.ctl := by
  refine foldl_preserves (P := fun g : Hw => g.ctl = h.ctl) (fun g p hg => ?_) _ rfl
  dsimp only
  exact iteInduction (motive := fun x : Hw => x.ctl = h.ctl) (fun _ => (blindBringUp_ctl _ p).trans hg)
    (fun _ => iteInduction (motive := fun x : Hw => x.ctl = h.ctl) (fun _ => (blindBringUp_ctl _ p).trans hg) (fun _ => hg))

/-- The image that runs is named, and its facts are kept. -/
theorem runImage_eq (h : Hw) (slot : Nat) : ∃ v sec hv hm,
    h.runImage slot = h.modCtl (fun c => { c with runningSlot := slot, fwVersion := v, secVersion := sec, handoverVer := hv, handoverMin := hm }) := by
  unfold Hw.runImage
  generalize h.imageFacts slot = facts
  obtain ⟨v, sec, hv, hm⟩ := facts
  exact ⟨v, sec, hv, hm, rfl⟩

/-- Every channel is enabled by the loop over them. -/
theorem enabled_all (t : Tbl Chan) (n : Nat) : ∀ c, c < n →
    (tget {} ((List.range n).foldl (fun t i => tmod {} t i (fun x => { x with enabled := true })) t) c).enabled = true := by
  induction n with
  | zero => intro c hc; omega
  | succ n ih =>
    intro c hc
    rw [List.range_succ, List.foldl_append, List.foldl_cons, List.foldl_nil, tmod]
    by_cases hcn : c = n
    · rw [hcn, tget_tput]
    · rw [tget_tput_ne _ _ hcn]
      exact ih c (by omega)

section
variable {s : State} (hpow : s.hw.powered = true) (hphase : s.hw.ctl.phase = .rom ∨ s.hw.ctl.phase = .booting)
include hpow hphase

theorem boots : ¬ (¬ s.hw.powered = true ∨ (s.hw.ctl.phase ≠ .rom ∧ s.hw.ctl.phase ≠ .booting)) := by
  rintro (hn | ⟨h1, h2⟩)
  · exact hn hpow
  · exact hphase.elim h1 h2

/-- A boot that finds no image. -/
theorem bootComplete_recovery (hpick : s.hw.bootPick s.fuses = none) : ∃ h', exec .bootComplete s = .next (s.withHw h') ∧ h'.ctl.phase = .recovery ∧
    (h'.chan 0).enabled = true ∧ (h'.chan 12).enabled = true ∧ ∀ c, c ≠ 0 → c ≠ 12 → h'.chan c = s.hw.chan c := by
  rw [exec_bootComplete, execBootComplete, onHw_next, if_neg (boots hpow hphase), hpick]
  let on : Chan → Chan := fun x => { x with enabled := true }
  have hchan : ∀ f : Ctl → Ctl, (∀ c, (f c).chans = tmod {} (tmod {} c.chans 0 on) 12 on) → ∀ c, (s.hw.modCtl f).chan c = ((s.hw.modChan 0 on).modChan 12 on).chan c :=
    fun f hf c => by rw [Hw.chan, Hw.chan]; exact congrArg (fun t => tget {} t c) (hf _)
  refine ⟨_, rfl, rfl, ?_, ?_, fun c h0 h12 => ?_⟩
  · rw [hchan _ (fun _ => rfl), chan_modChan_ne _ _ (by decide), chan_modChan]
  · rw [hchan _ (fun _ => rfl), chan_modChan]
  · rw [hchan _ (fun _ => rfl), chan_modChan_ne _ _ h12, chan_modChan_ne _ _ h0]

/-- A boot with an image and nothing recorded to fence. -/
theorem bootComplete_runs {slot : Nat} (hpick : s.hw.bootPick s.fuses = some slot) (hrec : s.hw.faults.recorded = []) (hmp : s.hw.faults.mpFenced.all id = false) :
    ∃ h', exec .bootComplete s = .next (s.withHw h') ∧ h'.RunsSlot slot (if s.hw.faults.mpFenced.getD 0 false then 1 else 0) := by
  rw [exec_bootComplete, execBootComplete, onHw_next, if_neg (boots hpow hphase), hpick]
  dsimp only
  rw [hrec, List.foldl_nil, ite_self, if_neg (by rw [hmp]; exact Bool.false_ne_true)]
  refine ⟨_, rfl, ?_⟩
  generalize (if s.hw.power.lcReset = true then decide (s.hw.ctl.lcTarget = some .retired) else decide (s.fuses.lc = .retired)) = retired
  generalize hrun : (s.hw.runImage slot).modCtl _ = h1
  have r1 : h1.RunsSlot slot (if s.hw.faults.mpFenced.getD 0 false then 1 else 0) := by
    obtain ⟨v, sec, hv, hm, himage⟩ := runImage_eq s.hw slot
    have hchans : h1.ctl.chans = (List.range 16).foldl (fun t i => tmod {} t i (fun x => { x with enabled := true })) s.hw.ctl.chans := by
      simp only [← hrun, himage, Hw.modCtl]
    refine ⟨?_, ?_, ?_, fun c hc => ?_⟩
    · rw [← hrun]; rfl
    · rw [← hrun, himage]; rfl
    · rw [← hrun]; rfl
    · rw [Hw.chan, hchans]
      exact enabled_all s.hw.ctl.chans 16 c hc
  generalize hlit : (if s.hw.power.warmSince.isNone = true ∧ ¬ retired = true then h1.lightUp else h1) = h2
  have r2 : h2.RunsSlot slot (if s.hw.faults.mpFenced.getD 0 false then 1 else 0) := by
    rw [← hlit]
    split
    · exact r1.of_ctl rfl
    · exact r1
  generalize htrain : (if retired = true then h2 else h2.trainAll) = h3
  have r3 : h3.RunsSlot slot (if s.hw.faults.mpFenced.getD 0 false then 1 else 0) := by
    rw [← htrain]
    split
    · exact r2
    · exact r2.of_ctl (trainAll_ctl h2)
  generalize hans : h3.power.warmCh.elim h3 _ = h4
  have r4 : h4.RunsSlot slot (if s.hw.faults.mpFenced.getD 0 false then 1 else 0) := by
    rw [← hans]
    cases h3.power.warmCh with
    | none => exact r3
    | some ch => exact r3.reply ch stOk 0 _
  refine Hw.RunsSlot.of_ctl ?_ rfl
  · split
    · exact r4.raise 0x0D06 [0]
    · exact r4
end

/-! ### Resets and supplies -/

section
variable {s : State}

theorem sysRstNFall_high (hr : s.hw.pins.resetLow = false) : exec .sysRstNFall s = .next (s.withHw s.hw.coldReset) := by
  rw [exec_sysRstNFall, execSysRstNFall, onHw_next, if_neg (by rw [hr]; exact Bool.false_ne_true)]

theorem sysRstNFall_low (hr : s.hw.pins.resetLow = true) : exec .sysRstNFall s = .next s := by
  rw [exec_sysRstNFall, execSysRstNFall, onHw_next, if_pos hr]
  rfl

theorem sysRstNRelease_low (straps : Nat) (hr : s.hw.pins.resetLow = true) : exec (.sysRstNRelease straps) s = .next (s.withHw { s.hw with
    pins := { s.hw.pins with resetLow := false, straps := straps % 128 }, ctl := { s.hw.ctl with wipeActive := true, phase := .rom, linkUp := ! s.hw.ctl.perstLow } }) := by
  rw [exec_sysRstNRelease, execSysRstNRelease, onHw_next, if_neg (not_not.2 hr)]

theorem sysRstNRelease_high (straps : Nat) (hr : s.hw.pins.resetLow = false) : exec (.sysRstNRelease straps) s = .next s := by
  rw [exec_sysRstNRelease, execSysRstNRelease, onHw_next, if_pos (by rw [hr]; exact Bool.false_ne_true)]
  rfl

/-- A rail that leaves its range with SYS_RST_N high. -/
theorem supplyOutOfRange_new {rail : Nat} (hrail : rail < 11) (hnew : rail ∉ s.hw.faults.railsOut) (hr : s.hw.pins.resetLow = false) :
    ∃ h', exec (.supplyOutOfRange rail) s = .next (s.withHw h') ∧ h'.faults.state = .safe ∧ h'.faults.railsOut = s.hw.faults.railsOut ++ [rail] ∧
      (h'.faults.src 0xD03).worst = max (s.hw.faults.src 0xD03).worst 3 := by
  refine ⟨_, ?_, report_c3 (s.hw.modFaults (fun f => { f with railsOut := f.railsOut ++ [rail] })) 0xD03 unitCd 6 [] false false⟩
  rw [exec_supplyOutOfRange, execSupplyOutOfRange, onHw_next, if_neg ?_]
  · exact congrArg (fun x => Host.Outcome.next (s.withHw x)) (if_neg (fun hl => Bool.false_ne_true (hr.symm.trans hl)))
  · rintro (h1 | h1)
    · omega
    · exact hnew (List.contains_iff_mem.1 h1)

theorem supplyOutOfRange_known {rail : Nat} (h : 11 ≤ rail ∨ rail ∈ s.hw.faults.railsOut) : exec (.supplyOutOfRange rail) s = .next s := by
  rw [exec_supplyOutOfRange, execSupplyOutOfRange, onHw_next, if_pos (h.imp_right List.contains_iff_mem.2)]
  rfl

theorem supplyOutTimeout_out (hr : s.hw.pins.resetLow = false) (hrails : s.hw.faults.railsOut ≠ []) : exec .supplyOutTimeout s = .next (s.withHw s.hw.coldReset) := by
  rw [exec_supplyOutTimeout, execSupplyOutTimeout, onHw_next, if_neg]
  rintro (h1 | h1)
  · exact Bool.false_ne_true (hr.symm.trans h1)
  · exact hrails h1

theorem supplyOutTimeout_in (hrails : s.hw.faults.railsOut = []) : exec .supplyOutTimeout s = .next s := by
  rw [exec_supplyOutTimeout, execSupplyOutTimeout, onHw_next, if_pos (Or.inr hrails)]
  rfl

/-- A rail that is back: the last one restarts the quiet timer. -/
theorem supplyInRange_next (rail : Nat) : let left := s.hw.faults.railsOut.filter (· ≠ rail)
    exec (.supplyInRange rail) s = .next (s.withHw (s.hw.modFaults (fun f => if s.hw.faults.railsOut ≠ [] ∧ left = [] then
      { f with railsOut := left, quietStart := s.hw.quietNow, quietDone := false } else { f with railsOut := left }))) := by
  intro left
  rw [exec_supplyInRange, execSupplyInRange, onHw_next]
  refine congrArg (fun x => Host.Outcome.next (s.withHw x)) ?_
  by_cases hlast : s.hw.faults.railsOut ≠ [] ∧ left = []
  · simp only [if_pos hlast]
    exact if_pos hlast
  · simp only [if_neg hlast]
    exact if_neg hlast

theorem refclkLoss_high (hr : s.hw.pins.resetLow = false) : exec .refclkLoss s = .next (s.withHw (s.hw.report 0xD03 3 unitCd 6).coldReset) := by
  rw [exec_refclkLoss, execRefclkLoss, onHw_next, if_neg (by rw [hr]; exact Bool.false_ne_true)]

theorem coldReset_flash (h : Hw) : h.coldReset.ctl.flash = h.ctl.flash := rfl

theorem report_flash (h : Hw) (src cls unit action : Nat) : (h.report src cls unit action).ctl.flash = h.ctl.flash := by
  obtain ⟨_, _, _, _, e⟩ := report_ctlTold h src cls unit action [] false false
  rw [e]

theorem thermalTrip_hot {die : Nat} (hdie : die < 20) (hpow : s.hw.powered = true) (hhot : 125 ≤ s.hw.power.temps.getD die 0) :
    exec (.thermalTrip die) s = .next (s.withHw (s.hw.thermalTrip die false)) := by
  rw [exec_thermalTrip, execThermalTrip, atUnit_in hdie, onHw_next, if_neg]
  rintro (h1 | h1)
  · exact h1 hpow
  · omega

theorem thermalTrip_cool {die : Nat} (hdie : die < 20) (h : s.hw.powered = false ∨ s.hw.power.temps.getD die 0 < 125) : exec (.thermalTrip die) s = .next s := by
  rw [exec_thermalTrip, execThermalTrip, atUnit_in hdie, onHw_next, if_pos (h.imp_left (fun hp => by rw [hp]; exact Bool.false_ne_true))]
  rfl

/-! ### The armed reset and the life cycle -/

theorem resetArmWarm_armed (hacc : s.hw.accessible = true) (hkind : s.hw.ctl.resetKind = 1) :
    exec .resetArmWarm s = .next (s.withHw ((s.hw.modCtl (fun c => { c with resetKind := 0 })).modPower (fun p => { p with warmNext := some (s.hw.time.tick + 1) }))) := by
  rw [exec_resetArmWarm, execResetArmWarm, onHw_next, if_pos ⟨hacc, hkind⟩]
  exact congrArg (fun x => Host.Outcome.next (s.withHw x)) (if_pos hkind)

theorem resetArmMpSwitch_armed (hacc : s.hw.accessible = true) (hkind : s.hw.ctl.resetKind = 2) : let h := s.hw.modCtl (fun c => { c with resetKind := 0 })
    exec .resetArmMpSwitch s = .next (s.withHw (if s.hw.ctl.standbyReady then h.modCtl (fun c => { c with mpSwitch := true }) else h.modCtl (fun c => { c with armIgnored := true }))) := by
  intro h
  rw [exec_resetArmMpSwitch, execResetArmMpSwitch, onHw_next, if_pos ⟨hacc, hkind⟩]
  refine congrArg (fun x => Host.Outcome.next (s.withHw x)) ((if_neg (by rw [hkind]; decide)).trans ?_)
  by_cases hready : s.hw.ctl.standbyReady = true
  · exact (if_pos ⟨hkind, hready⟩).trans (if_pos hready).symm
  · exact (if_neg (fun hh => hready hh.2)).trans (if_neg hready).symm

/-- The end of a life-cycle transition: the fuses, the control part and the power part with it, and its event. -/
theorem lcTransitionDone_ends {target : Lc} (htarget : s.hw.ctl.lcTarget = some target) (hreset : s.hw.power.lcReset = true) (hphase : s.hw.ctl.phase = .running) :
    ∃ t, exec .lcTransitionDone s = .next t ∧ t.fuses.lc = target ∧ t.hw.ctl.lcTarget = none ∧ t.hw.power.lcReset = false ∧
      t.fuses.deviceKeys = (if target = .provisioned then true else if target = .retired then false else s.fuses.deviceKeys) ∧ s.hw.Tells t.hw 0x0E03 := by
  rw [exec_lcTransitionDone, execLcTransitionDone, onFuses_next, htarget]
  simp only
  rw [if_neg (by rw [hreset, hphase]; simp)]
  refine ⟨_, rfl, rfl, ?_⟩
  dsimp only
  generalize hdark : (if target = .retired then { s.hw with lasers := {} } else s.hw) = h1
  have k1 : h1.ctl = s.hw.ctl := by rw [← hdark]; split <;> rfl
  generalize hquiet : (if target = .inService then h1.modFaults _ else h1) = h2
  have k2 : h2.ctl = s.hw.ctl := by rw [← hquiet]; split <;> exact k1
  refine ⟨?_, rfl, rfl, fun _ => ?_⟩
  · obtain ⟨_, _, _, _, e⟩ := raise_ctl ((h2.modCtl (fun c => { c with lcTarget := none, wipeActive := false })).modPower (fun p => { p with lcReset := false })) 0x0E03
      (w32 (target.code + h2.ctl.lcFrom.code * 2 ^ 8) :: le64 h2.ctl.lcTick)
    rw [e]
    rfl
  · refine raise_last _ _ _ ?_
    have hon : h2.ctl.phase = .running := by rw [k2, hphase]
    simp only [Hw.eventsOn, Ctl.eventsOn, Hw.modCtl, Hw.modPower, hon, decide_true, Bool.true_or]

/-! ### Register writes -/

theorem registerWrite_ignored {off size : Nat} {v : Word} (h : s.hw.accessible = false ∨ size ≠ 4 ∨ off % 4 ≠ 0) : exec (.registerWrite off size v) s = .next s := by
  rw [exec_registerWrite, execRegisterWrite, onHw_next, if_pos (h.imp_left (fun ha => by rw [ha]; exact Bool.false_ne_true))]
  rfl

variable (hacc : s.hw.accessible = true)
include hacc

theorem registerWrite_taken {off : Nat} (hoff : off % 4 = 0) : ¬ (¬ s.hw.accessible = true ∨ 4 ≠ 4 ∨ off % 4 ≠ 0) := by
  rintro (h1 | h1 | h1)
  · exact h1 hacc
  · exact h1 rfl
  · exact h1 hoff

theorem registerWrite_scratch (v : Word) : exec (.registerWrite 0x14 4 v) s = .next (s.withHw (s.hw.modCtl (fun c => { c with scratch := v }))) := by
  rw [exec_registerWrite, execRegisterWrite, onHw_next, if_neg (registerWrite_taken hacc (by decide)), if_pos (by decide), if_pos rfl]

theorem registerWrite_resetKind (v : Word) : exec (.registerWrite 0x31004 4 v) s = .next (s.withHw (s.hw.modCtl (fun c => { c with resetKind := v.toNat % 4 }))) := by
  rw [exec_registerWrite, execRegisterWrite, onHw_next, if_neg (registerWrite_taken hacc (by decide)), if_neg (by decide), if_neg (by decide), if_neg (by decide),
    if_neg (by decide), if_pos (by decide)]
  rfl

/-- A write to word i of the request buffer of channel c. -/
theorem registerWrite_request {c i : Nat} (v : Word) (hc : c < 12) (hi : i < 1024) : exec (.registerWrite (0x10000 + 0x2000 * c + 4 * i) 4 v) s =
    .next (s.withHw (s.hw.modChan c (fun x => if (s.hw.chan c).busy then { x with wrIgnored := true } else { x with req := tput x.req i v }))) := by
  have hchan : (0x10000 + 0x2000 * c + 4 * i - 0x10000) / 0x2000 = c := by omega
  have hword : (0x10000 + 0x2000 * c + 4 * i - 0x10000) % 0x2000 = 4 * i := by omega
  rw [exec_registerWrite, execRegisterWrite, onHw_next, if_neg (registerWrite_taken hacc (by omega)), if_neg (by omega), if_neg (by omega), if_pos (by omega), hchan, hword, if_pos (by omega),
    Hw.writeRequest, Nat.mul_div_cancel_left i (by decide)]
  refine congrArg (fun x => Host.Outcome.next (s.withHw x)) ?_
  by_cases hbusy : (s.hw.chan c).busy = true
  · rw [if_pos (Or.inr hbusy)]
    simp only [if_pos hbusy]
  · rw [if_neg (by rintro (h1 | h1); exacts [by omega, hbusy h1])]
    simp only [if_neg hbusy]
end

/-- Settles O55: each reset, the boot, the armed reset, the life-cycle transition and the register writes by the equation of its command. -/
theorem resetBootAndRegisters : Obligations.ResetBootAndRegisters := by
  unfold Obligations.ResetBootAndRegisters
  intro s h
  refine ⟨fun hr => ⟨_, sysRstNFall_high hr, rfl, rfl, rfl, rfl, rfl, rfl, rfl, rfl, rfl, rfl, rfl, rfl⟩, sysRstNFall_low,
    fun straps hr => ⟨_, sysRstNRelease_low straps hr, rfl, rfl, rfl, rfl, rfl⟩, sysRstNRelease_high, fun rail => supplyOutOfRange_new, fun rail => supplyOutOfRange_known,
    supplyOutTimeout_out, supplyOutTimeout_in, supplyInRange_next, fun hr => ⟨_, refclkLoss_high hr, rfl, rfl, (coldReset_flash _).trans (report_flash ..)⟩,
    fun die hdie hpow hhot => ⟨_, thermalTrip_hot hdie hpow hhot, rfl, rfl, rfl, rfl⟩, fun die => thermalTrip_cool, bootComplete_recovery, fun slot hpow hphase hpick hrec hmp => ?_,
    fun hacc hkind => ⟨_, resetArmWarm_armed hacc hkind, rfl, rfl⟩, fun hkind => ?_, fun hacc hkind => ⟨_, resetArmMpSwitch_armed hacc hkind, ?_⟩, fun hkind => ?_,
    fun target => lcTransitionDone_ends, fun hnone => ?_, fun v hacc => registerWrite_scratch hacc v, fun c i v hacc hc hi hbusy => ?_, fun c i v hacc hc hi hbusy => ?_,
    fun v hacc => registerWrite_resetKind hacc v, fun off size v => registerWrite_ignored⟩
  · obtain ⟨h', hrun, hphase', hslot, hmp', hchans⟩ := bootComplete_runs hpow hphase hpick hrec hmp
    exact ⟨h', hrun, hphase', hslot, hchans, hmp'⟩
  · rw [exec_resetArmWarm, execResetArmWarm, onHw_next, if_neg (fun hh => hkind hh.2)]
    rfl
  · by_cases hready : s.hw.ctl.standbyReady = true
    · rw [if_pos hready, if_pos hready]
      exact ⟨rfl, rfl⟩
    · rw [if_neg hready, if_neg hready]
      exact ⟨rfl, rfl⟩
  · rw [exec_resetArmMpSwitch, execResetArmMpSwitch, onHw_next, if_neg (fun hh => hkind hh.2)]
    rfl
  · rw [exec_lcTransitionDone, execLcTransitionDone, onFuses_next, hnone]
  · rw [registerWrite_request hacc v hc hi, hbusy]
    rfl
  · rw [registerWrite_request hacc v hc hi, hbusy]
    rfl

end Sys2Proof.Machine
end

section
/-!
The steps of a tick edge and of a slot start (R81, R119, R165, R173, R191, R193, R268, R373, Tables 3.4 and 3.5).
-/

namespace Sys2Proof.Machine
open Sys2Proof

/-! ### The edge and the slot start as wholes -/

section
variable {s : State} (m : SlotMeas)

theorem tickEdge_powered (hpow : s.hw.powered = true) :
    exec (.tickEdge m) s = .next (s.withHw (((((if s.hw.inLehr then s.hw else s.hw.refillAll 0).edgeLatch s.fuses).edgeCommit s.fuses).edgeRest s.fuses).slotWork s.fuses m)) := by
  rw [exec_tickEdge, execTickEdge, onHw_next, if_neg (not_not.2 hpow)]

theorem slotStart_powered (hpow : s.hw.powered = true) (hslot : s.hw.time.slot < 127) :
    let h1 := s.hw.modTime (fun t => { t with slot := t.slot + 1, standby := (t.standby.1, t.standby.2.1, t.standby.2.2 + 1) })
    exec (.slotStart m) s = .next (s.withHw (((if h1.inLehr then h1 else h1.refillAll (s.hw.time.slot + 1)).slotWork s.fuses m).slotFixed s.fuses)) := by
  intro h1
  rw [exec_slotStart, execSlotStart, onHw_next, if_neg]
  · rfl
  · rintro (h | h)
    · exact h hpow
    · omega

theorem slotStart_last (hslot : 127 ≤ s.hw.time.slot) : exec (.slotStart m) s = .next s := by
  rw [exec_slotStart, execSlotStart, onHw_next, if_pos (Or.inr hslot)]
  rfl

theorem edge_unpowered (hpow : s.hw.powered = false) : exec (.tickEdge m) s = .next s ∧ exec (.slotStart m) s = .next s := by
  have hnot : ¬ s.hw.powered = true := by rw [hpow]; exact Bool.false_ne_true
  refine ⟨?_, ?_⟩
  · rw [exec_tickEdge, execTickEdge, onHw_next, if_pos hnot]
    rfl
  · rw [exec_slotStart, execSlotStart, onHw_next, if_pos (Or.inl hnot)]
    rfl
end

/-! ### E1: the counts -/

/-- The part stands at a slot of a tick. -/
def Hw.At (tick base slot : Nat) (h : Hw) : Prop := h.time.tick = tick ∧ h.time.base = base ∧ h.time.slot = slot

section
variable {h : Hw} {tick base slot : Nat} (ha : h.At tick base slot)
include ha

theorem betterSource_at : h.betterSource.At tick base slot := by
  unfold Hw.betterSource
  dsimp only
  split <;> exact ha

/-- Commits that named a tick that a step passes are answered, which changes no count. -/
theorem passed_at (n : Nat) : ((List.range 16).foldl (fun h c => match (h.chan c).due with
      | some d => if d.passed n then (h.modChan c (fun x => { x with due := none })).reply c stTickPassed 0 else h
      | none => h) h).At tick base slot := by
  refine foldl_preserves (P := Hw.At tick base slot) (fun g c hg => ?_) _ ha
  split
  · split
    · exact hg
    · exact hg
  · exact hg
end

theorem advanceTime_at (h : Hw) : h.advanceTime.At (h.time.stepTo.join.getD (h.time.tick + 1))
    (match h.time.stepTo.join with | some n => n * h.time.mult | none => h.time.base + h.time.mult) 0 := by
  unfold Hw.advanceTime
  dsimp only
  refine betterSource_at ?_
  refine iteInduction (motive := Hw.At _ _ _) (fun _ => ?_) (fun _ => passed_at ?_ _)
  all_goals
    refine iteInduction (motive := Hw.At _ _ _) (fun _ => ?_) (fun _ => ?_)
    all_goals exact iteInduction (motive := Hw.At _ _ _) (fun _ => ⟨rfl, rfl, rfl⟩) (fun _ => ⟨rfl, rfl, rfl⟩)

/-! ### E3: the flip and the regime -/

theorem moveGranules_mesh (before h : Hw) : (Hw.moveGranules before h).mesh = h.mesh := by
  unfold Hw.moveGranules
  dsimp only
  exact foldl_preserves (P := fun g : Hw => g.mesh = h.mesh) (by intro g c hg; exact hg) _ rfl

theorem flip_mesh (h : Hw) (e : Nat) : let m := (h.flip e).mesh
    m.injEpoch = e ∧ m.flipNext = none ∧ m.flipTick = h.time.tick ∧ m.drainDone = 0 ∧ m.reasons = h.mesh.reasons ||| 2 := by
  intro m
  obtain ⟨g, hg, hmesh⟩ : ∃ g : Hw, m = g.settleReturned.settleNodes.mesh ∧ g.mesh = { h.mesh with
      injEpoch := e, flipTick := h.time.tick, drainDone := 0, slowTold := false, reasons := h.mesh.reasons ||| 2, flipNext := none, copying := [] } :=
    ⟨_, rfl, moveGranules_mesh ..⟩
  rw [hg, Hw.settleNodes, modMesh_mesh, Hw.settleReturned, modMesh_mesh, hmesh]
  exact ⟨rfl, rfl, rfl, rfl, rfl⟩

theorem flipDue_due {h : Hw} {e : Nat} (hnext : h.mesh.flipNext = some e) (hat : h.mesh.flipAt ≤ h.time.tick) : h.flipDue = h.flip e := by
  rw [Hw.flipDue, hnext]
  exact if_pos hat

theorem flipDue_waits {h : Hw} (hn : h.mesh.flipNext = none ∨ h.time.tick < h.mesh.flipAt) : h.flipDue = h := by
  rw [Hw.flipDue]
  cases hnext : h.mesh.flipNext with
  | none => rfl
  | some e => exact if_neg (by rcases hn with hn | hn <;> [(rw [hnext] at hn; cases hn); omega])

theorem settleRegime_iff (h : Hw) : h.settleRegime.mesh.regimeBubble = true ↔ h.settleRegime.mesh.reasons ≠ 0 := by
  rw [settleRegime_mesh]
  exact decide_eq_true_iff

/-! ### E4: the winnow mask -/

theorem getLsbD_portMask (l : List Nat) (p : Nat) (hp : p < 264) : (portMask l).getLsbD p = decide (p ∈ l) := by
  have hfold : ∀ m : BitVec 264, (l.foldl (fun m p => m ||| BitVec.ofNat 264 (2 ^ p)) m).getLsbD p = (m.getLsbD p || decide (p ∈ l)) := by
    induction l with
    | nil => simp
    | cons q l ih =>
      intro m
      rw [List.foldl_cons, ih, BitVec.getLsbD_or, BitVec.getLsbD_ofNat, Nat.testBit_two_pow, decide_eq_true hp, Bool.true_and, Bool.or_assoc, ← Bool.decide_or]
      refine congrArg (m.getLsbD p || ·) (decide_eq_decide.2 ?_)
      rw [List.mem_cons, eq_comm]
  rw [portMask, hfold, show (0 : BitVec 264).getLsbD p = false from BitVec.getLsbD_zero, Bool.false_or]

theorem openPorts_winnow (l : List Nat) (p : Nat) : ∀ h : Hw, (l.foldl Hw.openPort h).mesh.winnow.getLsbD p = (h.mesh.winnow.getLsbD p && ! decide (p ∈ l)) := by
  induction l with
  | nil => simp
  | cons q l ih =>
    intro h
    obtain ⟨hsame, hother⟩ := openPort_winnow h q
    rw [List.foldl_cons, ih]
    by_cases hpq : p = q
    · subst hpq
      simp [hsame]
    · simp [hother p hpq, hpq]

theorem winnowStep_winnow (h : Hw) {p : Nat} (hp : p < 264) : h.winnowStep.mesh.winnow.getLsbD p = ((h.mesh.winnow.getLsbD p || h.winnowBad p) && ! h.mayOpen p) := by
  have hmem : ∀ f : Nat → Bool, decide (p ∈ natsWhere 264 f) = f p := fun f => by simp [natsWhere, hp]
  rw [Hw.winnowStep, openPorts_winnow, modMesh_mesh, BitVec.getLsbD_or, getLsbD_portMask _ p hp, hmem, hmem]
  rfl

/-! ### E5: patience -/

theorem patienceStep_grp (h : Hw) (g : Nat) : h.patienceStep.grp? g =
    (h.grp? g).map (fun x => if h.counting x then ({ x with gens := x.gens.map (h.countPatience x) } : Group).hearNothing else x) := by
  rw [Hw.grp?, Hw.grp?, ← tget?_map]
  refine congrArg (tget? · g) ?_
  refine List.map_congr_left (fun e _ => ?_)
  split <;> rfl

theorem hearNothing_single {x : Group} (hplan : x.plan = none) : x.hearNothing = x := by
  rw [Group.hearNothing, hplan]

/-- A tick of patience of a generation outside a ring. -/
theorem countPatience_open {h : Hw} {x : Group} {n : Gen} {k : Nat} {c : Chunk} (hplan : x.plan = none) (hopen : tget? n.open_ k = some c) (hstill : h.still c = false)
    (hending : c.ending = false) : tget? (h.countPatience x n).open_ k = some { c with patience := c.patience - 1 } := by
  have hmap : (h.countPatience x n).open_ = n.open_.map (fun q => (q.1, if h.still q.2 || q.2.ending then q.2 else { q.2 with patience := q.2.patience - 1 })) := by
    refine List.map_congr_left (fun q _ => ?_)
    dsimp only
    rw [hplan, Option.isSome_none, Bool.false_and, Bool.or_false]
    split <;> rfl
  rw [hmap, tget?_map (fun c => if h.still c || c.ending then c else { c with patience := c.patience - 1 }), hopen, Option.map_some, hstill, hending]
  rfl

theorem countPatience_gen? {h : Hw} {x : Group} {n : Gen} {no : Nat} (hgen : x.gen? no = some n) :
    ({ x with gens := x.gens.map (h.countPatience x) } : Group).gen? no = some (h.countPatience x n) := by
  rw [Group.gen?, List.find?_map]
  exact congrArg (Option.map (h.countPatience x)) hgen

/-! ### E7: the hooks -/

theorem modAtt_threads (h : Hw) (a : Nat) (f : Att → Att) : (h.modAtt a f).progs.threads = h.progs.threads := by
  unfold Hw.modAtt
  split <;> rfl

theorem queueEvent_threads (h : Hw) (att cx : Nat) (e : HookEvent) : (h.queueEvent att cx e).progs.threads = h.progs.threads := by
  unfold Hw.queueEvent
  dsimp only
  split
  · rfl
  · exact modAtt_threads (h.modProgs _) att _

theorem tickHook_threads (no att : Nat) (h : Hw) (c : Nat) : (Hw.tickHook no att h c).progs.threads = h.progs.threads := by
  unfold Hw.tickHook
  split
  · rfl
  · split
    · rfl
    · split
      · rfl
      · exact queueEvent_threads h att c _

theorem tickHooks_threads (h : Hw) (g : Nat) : (h.tickHooks g).progs.threads = h.progs.threads := by
  unfold Hw.tickHooks
  split
  · rfl
  · split
    · rfl
    · exact foldl_preserves (P := fun x : Hw => x.progs.threads = h.progs.threads)
        (fun x a hx => foldl_preserves (P := fun x : Hw => x.progs.threads = h.progs.threads) (fun y c hy => (tickHook_threads _ a y c).trans hy) _ hx) _ rfl

theorem stallAt_none {h : Hw} (hn : ∀ v ∈ h.progs.invs, h.stalled v.2 = false) (cx : Nat) : h.stallAt cx = h := by
  rw [Hw.stallAt, List.filter_eq_nil_iff.2 (fun v hv => by rw [hn v hv, Bool.and_false]; exact Bool.false_ne_true)]
  rfl

/-- A thread that waits for a tick may go on after the hooks. -/
def Thread.ticked (t : Thread) : Thread :=
  match t.state with
  | .waitTick _ => { t with state := .waitTick true }
  | _ => t

theorem edgeHooks_threads {h : Hw} (hn : ∀ v ∈ ((h.groups.map (·.1)).foldl Hw.tickHooks h).progs.invs, ((h.groups.map (·.1)).foldl Hw.tickHooks h).stalled v.2 = false) (t : Nat) :
    tget? h.edgeHooks.progs.threads t = (tget? h.progs.threads t).map Thread.ticked := by
  have hkept : ((h.groups.map (·.1)).foldl Hw.tickHooks h).progs.threads = h.progs.threads :=
    foldl_preserves (P := fun x : Hw => x.progs.threads = h.progs.threads) (fun x g hx => (tickHooks_threads x g).trans hx) _ rfl
  rw [← hkept, ← tget?_map, Hw.edgeHooks, List.foldl_fixed' (stallAt_none hn)]
  refine congrArg (tget? · t) (List.map_congr_left (fun e _ => ?_))
  dsimp only [Thread.ticked]
  cases e.2.state <;> rfl

/-! ### The refill of a port's queues -/

/-- What the refill of a slot makes of a queue, its held counts apart. -/
theorem settle_shaper (q : Queue) : (q.settle).entries = q.entries ∧ (q.settle).shaper = q.nextShaper.getD q.shaper ∧ (q.settle).nextShaper = none ∧
    (q.settle).tokens = (match q.nextShaper with
      | some c => if c.enable ∧ ¬ q.shaper.enable then (c.burst : Int) * 65536 else min q.tokens ((c.burst : Int) * 65536)
      | none => q.tokens) := by
  unfold Queue.settle
  cases hshaper : q.nextShaper with
  | none =>
    dsimp only
    cases q.nextQuantum with
    | none => exact ⟨rfl, by rw [Option.getD_none], hshaper, rfl⟩
    | some n => exact ⟨rfl, by rw [Option.getD_none], hshaper, rfl⟩
  | some c =>
    cases q.nextQuantum with
    | none => exact ⟨rfl, rfl, rfl, rfl⟩
    | some n => exact ⟨rfl, rfl, rfl, rfl⟩

/-- A queue of port p after the refill of a slot, with its held slots counted. -/
def Hw.refilled (h : Hw) (slot p : Nat) (q : Queue) : Queue :=
  let y := (if slot = 1 then q.settle else q).refill h.time.mult
  let lacks := match y.entries with
    | d :: _ => (match h.entryPkt (h.home p) d with | some k => decide ((h.port p).link.held.getD k.cls 0 < (k.cells : Int)) | none => false)
    | [] => false
  { y with
    shaperHeld := if y.entries ≠ [] ∧ y.tokens ≤ 0 then sat64 (y.shaperHeld + 1) else y.shaperHeld,
    creditHeld := if lacks then sat64 (y.creditHeld + 1) else y.creditHeld }

theorem refillPort_queue (h : Hw) (slot p n : Nat) : tget? ((h.refillPort slot p).port p).queues n = (tget? (h.port p).queues n).map (h.refilled slot p) := by
  rw [Hw.refillPort, port_modPort, ← tget?_map]
  by_cases hslot : slot = 1
  · simp only [if_pos hslot]
    simp only [Hw.refilled, if_pos hslot] <;> rfl
  · simp only [if_neg hslot]
    simp only [Hw.refilled, if_neg hslot] <;> rfl

theorem refilled_shaper (h : Hw) (slot p : Nat) (q : Queue) : let y := if slot = 1 then q.settle else q
    (h.refilled slot p q).shaper = y.shaper ∧ (h.refilled slot p q).nextShaper = y.nextShaper ∧ (h.refilled slot p q).entries = y.entries ∧
      (h.refilled slot p q).tokens = min ((y.shaper.burst : Int) * 65536) (y.tokens + (increment y.shaper.rate h.time.mult : Int)) := ⟨rfl, rfl, rfl, rfl⟩

/-- Settles O56: each step of the edge by its own lemma; a chunk's patience, a thread and a queue are followed through the map that the step makes. -/
theorem edgeSteps : Obligations.EdgeSteps := by
  unfold Obligations.EdgeSteps
  refine ⟨fun s m hpow => ⟨?_, slotStart_powered m hpow, slotStart_last m⟩, fun s m => edge_unpowered m,
    fun h => ⟨fun hstep => ?_, fun n hstep => ?_, fun e hnext hat => ?_, flipDue_waits, settleRegime_iff _, fun p => winnowStep_winnow h, fun g x n k c hg hcount hplan hgen hopen hstill hending => ?_,
      fun g x hg hcount => ?_, fun t th come hn ht hstate => ?_⟩,
    fun h slot p n q hq => ⟨_, (refillPort_queue h slot p n).trans (congrArg (Option.map (h.refilled slot p)) hq), ?_⟩⟩
  · rw [tickEdge_powered m hpow]
    simp only [Hw.edgeRest, Bool.not_eq_true]
  · have ha := advanceTime_at h
    rw [hstep] at ha
    exact ha
  · have ha := advanceTime_at h
    rw [hstep] at ha
    exact ha
  · obtain ⟨hinj, hflip, htick, hdone, hreasons⟩ := flip_mesh h e
    rw [flipDue_due hnext hat]
    refine ⟨hinj, hflip, htick, hdone, ?_⟩
    rw [hreasons, BitVec.getLsbD_or]
    exact Bool.or_true _
  · refine ⟨{ x with gens := x.gens.map (h.countPatience x) }, h.countPatience x n, ?_, ?_, countPatience_open hplan hopen hstill hending⟩
    · rw [patienceStep_grp, hg, Option.map_some, if_pos hcount]
      exact congrArg some (hearNothing_single hplan)
    · exact countPatience_gen? hgen
  · rw [patienceStep_grp, hg, Option.map_some, if_neg (by rw [hcount]; exact Bool.false_ne_true)]
  · rw [edgeHooks_threads hn, ht, Option.map_some, Thread.ticked, hstate]
  · obtain ⟨hshaper, hnextShaper, hentries, htokens⟩ := refilled_shaper h slot p q
    obtain ⟨hsent, hsshaper, hsnext, hstokens⟩ := settle_shaper q
    refine ⟨fun hkept => ?_, fun c hslot hc => ?_, ?_⟩
    · have hsame : (if slot = 1 then q.settle else q).shaper = q.shaper ∧ (if slot = 1 then q.settle else q).tokens = q.tokens := by
        split
        · next hslot =>
          have hnone := hkept.resolve_left (not_not.2 hslot)
          rw [hsshaper, hstokens, hnone]
          exact ⟨rfl, rfl⟩
        · exact ⟨rfl, rfl⟩
      rw [hshaper, htokens, hsame.1, hsame.2]
      exact ⟨rfl, rfl⟩
    · rw [hshaper, hnextShaper, htokens, if_pos hslot, hsshaper, hsnext, hstokens, hc]
      exact ⟨rfl, rfl, rfl⟩
    · rw [hentries]
      split
      · exact hsent
      · rfl

end Sys2Proof.Machine
end

section
/-!
The fault collector, units under test, and the management processors (R458, R463 to R477).
-/

namespace Sys2Proof.Machine
open Sys2Proof

/-! ### FAULT_FORCE -/

section
variable {s : State} {c : Nat} {r : Request} (hc : c < 16)
include hc

/-- FAULT_FORCE answers the first check that fails. -/
theorem execFaultForce_fails {f : Fail} (ha : s.hw.Asks c 0x0B02 r)
    (hfail : firstFail [failIf ((sourceTop (fld r.payload 0 11 0)).isNone ∨ (¬ decide (fld r.payload 0 12 12 = 1) = true ∧ derivedSources.contains (fld r.payload 0 11 0))) (bad 0),
      failIf (¬ forceUnitOk (fld r.payload 0 11 0) (fld r.payload 1 15 0)) (bad 4), failIf (4 < fld r.payload 0 18 16) (bad 0)] = some f) :
    exec (.faultForce c) s = .next (s.withHw (s.hw.answered c r f.1 f.2 [])) := by
  rw [exec_faultForce, execFaultForce]
  refine answer_unchanged (st := f.1) (d := f.2) hc ha ?_
  dsimp only
  rw [hfail]
  rfl

variable (hknown : (sourceTop (fld r.payload 0 11 0)).isSome = true) (hmay : decide (fld r.payload 0 12 12 = 1) = true ∨ fld r.payload 0 11 0 ∉ derivedSources)
include hknown hmay

omit hc in
theorem force_allowed : decide ((sourceTop (fld r.payload 0 11 0)).isNone = true ∨ (¬ decide (fld r.payload 0 12 12 = 1) = true ∧ derivedSources.contains (fld r.payload 0 11 0) = true)) = false := by
  refine decide_eq_false ?_
  rintro (h1 | ⟨h1, h2⟩)
  · rw [Option.isNone_iff_eq_none] at h1
    rw [h1] at hknown
    exact Bool.false_ne_true hknown
  · exact hmay.elim h1 (fun hn => hn (List.contains_iff_mem.1 h2))

theorem execFaultForce_passes (ha : s.hw.Asks c 0x0B02 r) (hunit : forceUnitOk (fld r.payload 0 11 0) (fld r.payload 1 15 0) = true) (hn : fld r.payload 0 18 16 ≤ 4) :
    exec (.faultForce c) s = .next (s.withHw ((if fld r.payload 0 18 16 = 0 then s.hw else s.hw.modFaults (fun f => f.modSrc (fld r.payload 0 11 0)
      (fun x => { x with force := some (fld r.payload 1 15 0, fld r.payload 0 18 16, decide (fld r.payload 0 12 12 = 1)) }))).answered c r stOk 0 [])) := by
  rw [exec_faultForce, execFaultForce]
  refine answer_changed (st := stOk) (d := 0) hc ha ?_ (by split <;> rfl)
  dsimp only
  rw [force_allowed (r := r) hknown hmay, hunit, decide_eq_false (Nat.not_lt.2 hn)]
  rfl
end

/-! ### UNIT_READMIT and the built-in test -/

section
variable {s : State} {c : Nat} {r : Request} (hc : c < 16) (ha : s.hw.Asks c 0x0B04 r)
include hc ha

theorem execUnitReadmit_asks : let u := fld r.payload 0 15 0
    exec (.unitReadmit c) s = .next (s.withHw (if u / 4096 = 0 then s.hw.answered c r stInvalid 0 []
      else if ¬ unitExists u then s.hw.answered c r stAbsent u []
      else if ¬ s.hw.isFenced u ∧ ¬ (u / 4096 = 5 ∧ s.hw.mesh.fenced.contains (u % 4096)) then s.hw.answered c r stInvalid 0 []
      else (s.hw.modFaults (fun f => { f with tests := f.tests ++ [{ unit := u, ch := c }] })).modChan c (fun x => { x with cur := x.cur.map (fun r => { r with waiting := false }) }))) := by
  intro u
  obtain ⟨-, hcur, -⟩ := id ha
  rw [exec_unitReadmit, execUnitReadmit, atUnit_in hc, onHw_next, withRequest_asks ha]
  simp only [reply_eq hcur]
  rfl

/-- A unit that is out of service is put under test. -/
theorem execUnitReadmit_starts (h0 : fld r.payload 0 15 0 / 4096 ≠ 0) (hex : unitExists (fld r.payload 0 15 0) = true)
    (hout : s.hw.isFenced (fld r.payload 0 15 0) = true ∨ (fld r.payload 0 15 0 / 4096 = 5 ∧ fld r.payload 0 15 0 % 4096 ∈ s.hw.mesh.fenced)) :
    exec (.unitReadmit c) s = .next (s.withHw ((s.hw.modFaults (fun f => { f with tests := f.tests ++ [{ unit := fld r.payload 0 15 0, ch := c }] })).modChan c
      (fun x => { x with cur := x.cur.map (fun r => { r with waiting := false }) }))) := by
  rw [execUnitReadmit_asks hc ha, if_neg h0, if_neg (not_not.2 hex), if_neg]
  rintro ⟨h1, h2⟩
  exact hout.elim h1 (fun hin => h2 ⟨hin.1, List.contains_iff_mem.2 hin.2⟩)
end

section
variable {s : State} {t : BuiltinTest} {r : Request} (htests : s.hw.faults.tests = [t]) (hpassed : t.passed = false)
include htests hpassed

omit htests hpassed in
/-- None of a stack's memory nodes serves. -/
theorem noNode_iff : (decide (t.unit / 4096 = 10) && (List.range 4).all (fun n => s.hw.routerOut (nodeRouter (4 * (t.unit % 4096) + n)))) = true ↔
    t.unit / 4096 = 10 ∧ ∀ n, n < 4 → s.hw.routerOut (nodeRouter (4 * (t.unit % 4096) + n)) = true := by
  rw [Bool.and_eq_true, decide_eq_true_iff, List.all_eq_true]
  simp only [List.mem_range]

/-- The test of the one unit under test ends: at the step given, or at an open one while none of a stack's memory nodes serves. -/
theorem execBuiltinTestDone_one (step : Nat) :
    let noNode := decide (t.unit / 4096 = 10) && (List.range 4).all (fun n => s.hw.routerOut (nodeRouter (4 * (t.unit % 4096) + n)))
    let h := if noNode ∧ step = 0 then s.hw.draw.1 else s.hw
    let k := if noNode ∧ step = 0 then 1 + s.hw.draw.2 % 255 else step
    exec (.builtinTestDone t.unit step) s = .next (s.withHw (if k = 0 then h.modFaults (fun f => { f with tests := [{ t with passed := true }] })
      else (h.modFaults (fun f => { f with tests := [] })).reply t.ch stOk 0 [w32 (1 + k % 256 * 2 ^ 8)])) := by
  intro noNode h k
  have hfind : s.hw.faults.tests.find? (fun x => x.unit = t.unit ∧ ¬ x.passed) = some t := by
    rw [htests]
    exact List.find?_cons_of_pos (by simp [hpassed])
  rw [exec_builtinTestDone, execBuiltinTestDone, onHw_next, hfind]
  refine congrArg (fun x => Host.Outcome.next (s.withHw x)) ?_
  have hkept : h.faults.tests = [t] := by
    simp only [h]
    split <;> exact htests
  have hpair : (if noNode = true ∧ step = 0 then (s.hw.draw.1, 1 + s.hw.draw.2 % 255) else (s.hw, step)) = (h, k) := by
    simp only [h, k]
    split <;> rfl
  dsimp only
  simp only [noNode] at hpair
  rw [hpair]
  refine if_congr Iff.rfl ?_ ?_
  · simp only [Hw.modFaults, hkept, List.map_cons, List.map_nil, if_true]
  · simp only [Hw.modFaults, hkept, List.erase_cons_head]

/-- A stack none of whose memory nodes serves fails its test at an open step. -/
theorem execBuiltinTestDone_noNode (hnode : t.unit / 4096 = 10 ∧ ∀ n, n < 4 → s.hw.routerOut (nodeRouter (4 * (t.unit % 4096) + n)) = true) :
    exec (.builtinTestDone t.unit 0) s = .next (s.withHw ((s.hw.draw.1.modFaults (fun f => { f with tests := [] })).reply t.ch stOk 0
      [w32 (1 + (1 + s.hw.draw.2 % 255) % 256 * 2 ^ 8)])) := by
  have hopen : ¬ 1 + s.hw.draw.2 % 255 = 0 := by omega
  rw [execBuiltinTestDone_one htests hpassed 0]
  simp only [noNode_iff.2 hnode, and_self, if_true, if_neg hopen]
end

/-! ### The collector's timers and the safe state -/

section
variable {s : State}

/-- The collector in NORMAL with its recovery counted, and the event that tells it. -/
theorem toNormal_tells (h : Hw) (code : Nat) (data : List Word) : let h' := h.toNormal.raise code data
    h'.faults.state = .normal ∧ h'.faults.recoveries = sat32 (h.faults.recoveries + 1) ∧ h'.faults.fenced = h.faults.fenced ∧ h.Tells h' code :=
  ⟨rfl, rfl, rfl, fun hon => raise_last _ _ _ hon⟩

theorem quietPeriodExpiry_ends (hslot : s.hw.time.slot = 0) (hstate : s.hw.faults.state = .fault) (hquiet : s.hw.quiet = true) :
    exec .quietPeriodExpiry s = .next (s.withHw (s.hw.toNormal.raise 0x0B02 [w32 s.hw.toNormal.faults.recoveries])) := by
  rw [exec_quietPeriodExpiry, execQuietPeriodExpiry, atEdge_zero hslot, Hw.quietEnds, if_neg]
  rintro (h | h)
  · exact h hstate
  · exact h hquiet

theorem quietPeriodExpiry_waits (h : s.hw.time.slot ≠ 0 ∨ s.hw.faults.state ≠ .fault ∨ s.hw.quiet = false) : exec .quietPeriodExpiry s = .next s := by
  rw [exec_quietPeriodExpiry, execQuietPeriodExpiry]
  by_cases hslot : s.hw.time.slot = 0
  · rw [atEdge_zero hslot, Hw.quietEnds, if_pos ((h.resolve_left (not_not.2 hslot)).imp_right (fun hq => by rw [hq]; exact Bool.false_ne_true))]
    rfl
  · exact atEdge_later hslot

theorem safeStateExit_ends (hslot : s.hw.time.slot = 0) (hlehr : s.hw.inLehr = false) (hstate : s.hw.faults.state = .safe) (hmissing : s.hw.faults.missing = [])
    (hrails : s.hw.faults.railsOut = []) (hdone : s.hw.faults.rewriteDone = true) (hquiet : s.hw.quiet = true) :
    exec .safeStateExit s = .next (s.withHw (s.hw.toNormal.raise 0x0B04
      [w32 s.hw.toNormal.faults.recoveries, w32 (sat32 (s.hw.toNormal.time.tick - s.hw.faults.safeTick))])) := by
  rw [exec_safeStateExit, execSafeStateExit, atEdge_zero hslot, Hw.safeEnds, if_neg]
  rintro (h | h | h | h | h | h)
  · exact h hstate
  · exact h hmissing
  · exact h hrails
  · exact h hdone
  · exact h hquiet
  · exact Bool.false_ne_true (hlehr.symm.trans h)

theorem safeStateExit_waits (h : s.hw.time.slot ≠ 0 ∨ s.hw.inLehr = true ∨ s.hw.faults.state ≠ .safe ∨ s.hw.faults.missing ≠ [] ∨ s.hw.faults.railsOut ≠ [] ∨
    s.hw.faults.rewriteDone = false ∨ s.hw.quiet = false) : exec .safeStateExit s = .next s := by
  rw [exec_safeStateExit, execSafeStateExit]
  by_cases hslot : s.hw.time.slot = 0
  · rw [atEdge_zero hslot, Hw.safeEnds, if_pos]
    · rfl
    · rcases h.resolve_left (not_not.2 hslot) with h | h | h | h | h | h
      · exact .inr (.inr (.inr (.inr (.inr h))))
      · exact .inl h
      · exact .inr (.inl h)
      · exact .inr (.inr (.inl h))
      · exact .inr (.inr (.inr (.inl (by rw [h]; exact Bool.false_ne_true))))
      · exact .inr (.inr (.inr (.inr (.inl (by rw [h]; exact Bool.false_ne_true)))))
  · exact atEdge_later hslot

/-! ### The rewrite of the collector -/

/-- With nothing missing of the working set, the check keeps all but what was missing and the quiet timer, which starts now if anything was. -/
theorem checkWorkingSet_whole {h : Hw} (hwhole : h.workingSetMissing = []) : let f := h.checkWorkingSet.faults
    f.missing = [] ∧ f.rewriteDone = h.faults.rewriteDone ∧ f.sources = h.faults.sources ∧ (h.faults.quietStart = h.quietNow → f.quietStart = h.quietNow) := by
  intro f
  simp only [f, Hw.checkWorkingSet]
  by_cases hm : h.faults.missing ≠ []
  · rw [if_pos ⟨hwhole, hm⟩]
    exact ⟨rfl, rfl, rfl, fun _ => rfl⟩
  · rw [if_neg (fun hh => hm hh.2), if_pos (Or.inl hwhole)]
    exact ⟨hwhole, rfl, rfl, id⟩

/-- Entry to the safe state from within it, and an occurrence in it, keep the count of rewrites that failed, their end, and what is missing. -/
theorem report_inSafe {h : Hw} (hsafe : h.faults.state = .safe) (src unit action : Nat) : let f := (h.report src 3 unit action).faults
    f.rewriteFails = h.faults.rewriteFails ∧ f.rewriteDone = h.faults.rewriteDone ∧ f.missing = h.faults.missing := by
  intro f
  obtain ⟨g, hg, hstate, hkeep⟩ : ∃ g : Hw, f = (g.enterSafe src).errnSettle.faults ∧ g.faults.state = .safe ∧
      (g.faults.rewriteFails = h.faults.rewriteFails ∧ g.faults.rewriteDone = h.faults.rewriteDone ∧ g.faults.missing = h.faults.missing) :=
    ⟨_, rfl, by simp only [Hw.modFaults, Faults.write, Faults.modSrc, hsafe]; rfl, rfl, rfl, rfl⟩
  rw [hg, Hw.enterSafe, if_pos hstate]
  exact hkeep

/-- In the safe state, the check of the working set keeps the rewrites that failed, and tells what is missing. -/
theorem checkWorkingSet_inSafe {h : Hw} (hsafe : h.faults.state = .safe) : let f := h.checkWorkingSet.faults
    f.rewriteFails = h.faults.rewriteFails ∧ f.rewriteDone = h.faults.rewriteDone ∧ f.missing = h.workingSetMissing := by
  intro f
  simp only [f, Hw.checkWorkingSet]
  by_cases hboth : h.workingSetMissing = [] ∧ h.faults.missing ≠ []
  · rw [if_pos hboth]
    exact ⟨rfl, rfl, hboth.1.symm⟩
  · rw [if_neg hboth]
    by_cases hor : h.workingSetMissing = [] ∨ h.faults.missing ≠ []
    · rw [if_pos hor]
      exact ⟨rfl, rfl, rfl⟩
    · rw [if_neg hor]
      exact report_inSafe (h := h.modFaults (fun f => { f with missing := h.workingSetMissing })) hsafe _ _ _

theorem rewrite_missing {h : Hw} (hthree : 3 ≤ h.faults.rewriteFails) : 18 ∈ h.workingSetMissing := by
  rw [Hw.workingSetMissing, if_pos hthree]
  simp

theorem collectorRewrite_under (ok : Bool) (hsafe : s.hw.faults.state = .safe) (hdone : s.hw.faults.rewriteDone = false) :
    exec (.collectorRewrite ok) s = .next (s.withHw (if ok then (s.hw.modFaults (fun f => { f with
      rewriteDone := true, rewriteFails := 0, quietStart := s.hw.quietNow, quietDone := false, sources := f.sources.map (fun e => (e.1, { e.2 with count := e.2.shadow })) })).checkWorkingSet
      else (s.hw.modFaults (fun f => { f with rewriteFails := f.rewriteFails + 1 })).checkWorkingSet)) := by
  rw [exec_collectorRewrite, execCollectorRewrite, onHw_next, if_neg]
  rintro (h | h)
  · exact h hsafe
  · exact Bool.false_ne_true (hdone.symm.trans h)

/-! ### Strikes -/

theorem strikeCountReset_quiet {u : Nat} (h : tget 0 s.hw.faults.strikeBase u + 160 * 128 * s.hw.faults.quietMs ≤ s.hw.quietNow) :
    exec (.strikeCountReset u) s = .next (s.withHw (s.hw.modFaults (fun f => { f with strikes := tdel f.strikes u, strikeBase := tdel f.strikeBase u }))) := by
  have hnone : s.hw.strikesOf u = 0 := by
    rw [Hw.strikesOf, if_pos]
    omega
  rw [exec_strikeCountReset, execStrikeCountReset, onHw_next, if_neg (not_not.2 hnone)]

theorem strikeCountReset_held {u : Nat} (h : s.hw.strikesOf u ≠ 0) : exec (.strikeCountReset u) s = .next s := by
  rw [exec_strikeCountReset, execStrikeCountReset, onHw_next, if_pos h]
  rfl
end

/-! ### The loss of a management processor -/

/-- Of the processors and the fences: events may be raised and units fenced, and no processor is lost by it. -/
def Hw.MpKept (h h' : Hw) : Prop := h.CtlTold h' ∧ h'.faults.mpLost = h.faults.mpLost ∧ h'.time.tick = h.time.tick ∧ h.faults.fenced ⊆ h'.faults.fenced

theorem Hw.MpKept.refl (h : Hw) : h.MpKept h := ⟨.of_ctl rfl, rfl, rfl, List.Subset.refl _⟩

theorem Hw.MpKept.trans {h1 h2 h3 : Hw} (k : h1.MpKept h2) (k' : h2.MpKept h3) : h1.MpKept h3 := by
  obtain ⟨hctl, hlost, htick, hfenced⟩ := k
  obtain ⟨hctl', hlost', htick', hfenced'⟩ := k'
  exact ⟨hctl.trans hctl', hlost'.trans hlost, htick'.trans htick, List.Subset.trans hfenced hfenced'⟩

theorem raise_mpKept (h : Hw) (code : Nat) (data : List Word) : h.MpKept (h.raise code data) := ⟨raise_ctlTold h code data, rfl, rfl, List.Subset.refl _⟩

theorem enterSafe_mpLost (h : Hw) (s : Nat) : (h.enterSafe s).faults.mpLost = h.faults.mpLost := by
  unfold Hw.enterSafe
  split <;> rfl

theorem report_mpKept (h : Hw) (s cls unit action : Nat) (data : List Word) (forced notify : Bool) : h.MpKept (h.report s cls unit action data forced notify) := by
  refine ⟨report_ctlTold h s cls unit action data forced notify, ?_, by rw [report_time], by rw [report_fenced]; exact List.Subset.refl _⟩
  unfold Hw.report
  dsimp only
  split
  · rfl
  · split
    · exact enterSafe_mpLost _ s
    · rfl

theorem tellSpare_mpKept (h : Hw) (u : Nat) : h.MpKept (h.tellSpare u) := by
  unfold Hw.tellSpare
  split
  · split
    · unfold Hw.tellExhausted
      split
      · exact .refl h
      · exact raise_mpKept (h.modFaults _) _ _
    · exact .refl h
  · exact .refl h

theorem checkWorkingSet_mpKept (h : Hw) : h.MpKept h.checkWorkingSet := by
  unfold Hw.checkWorkingSet
  dsimp only
  split
  · exact ⟨.of_ctl rfl, rfl, rfl, List.Subset.refl _⟩
  · split
    · exact ⟨.of_ctl rfl, rfl, rfl, List.Subset.refl _⟩
    · exact report_mpKept (h.modFaults _) _ _ _ _ _ _ _

/-- The action of a fence that reaches no complex and no router. -/
theorem fenceAction_mpKept (h : Hw) {u : Nat} (hkind : 5 < u / 4096) : h.MpKept (h.fenceAction u) := by
  unfold Hw.fenceAction
  dsimp only
  split
  case h_2 | h_3 => omega
  all_goals exact ⟨.of_ctl rfl, rfl, rfl, List.Subset.refl _⟩

/-- The fence of a unit outside the complexes and routers. -/
theorem fenceOne_mpKept (h : Hw) {u : Nat} (s : Nat) (hkind : 5 < u / 4096) : h.MpKept (h.fenceOne u s) ∧ u ∈ (h.fenceOne u s).faults.fenced := by
  by_cases hfenced : h.isFenced u = true
  · rw [Hw.fenceOne, if_pos hfenced]
    exact ⟨.refl h, List.contains_iff_mem.1 hfenced⟩
  · rw [Hw.fenceOne, if_neg hfenced]
    dsimp only
    rw [if_neg (by omega)]
    generalize hmarked : Hw.raise _ _ _ = h1
    have hmark : h.MpKept h1 ∧ u ∈ h1.faults.fenced := by
      rw [← hmarked]
      exact ⟨⟨raise_ctlTold (h.modFaults _) _ _, rfl, rfl, List.subset_append_left _ _⟩, List.mem_append_right _ (List.mem_singleton_self u)⟩
    have hrest := ((tellSpare_mpKept h1 u).trans (fenceAction_mpKept _ hkind)).trans (checkWorkingSet_mpKept _)
    exact ⟨hmark.1.trans hrest, hrest.2.2.2 hmark.2⟩

theorem loseStack_mpKept (h : Hw) (k s : Nat) : h.MpKept (h.loseStack k s) := by
  unfold Hw.loseStack
  split
  · exact .refl h
  · have hkept := (fenceOne_mpKept h (u := unitNo 10 k) s (by rw [unitNo]; omega)).1
    dsimp only
    generalize h.fenceOne (unitNo 10 k) s = h1 at hkept
    exact (hkept.trans ⟨.of_ctl rfl, rfl, rfl, List.Subset.refl _⟩).trans (report_mpKept _ _ _ _ _ _ _ _)

theorem checkStacks_mpKept (h : Hw) (s : Nat) : h.MpKept (h.checkStacks s) := by
  have hone (h : Hw) (k : Nat) :
      h.MpKept (if 1 < h.fencedIn 8 k ∨ (List.range 4).all (fun n => h.routerOut (nodeRouter (4 * k + n))) then h.loseStack k s else h) := by
    split
    · exact loseStack_mpKept h k s
    · exact .refl h
  exact (hone h 0).trans (hone _ 1)

theorem fence_mpKept (h : Hw) {u : Nat} (s : Nat) (hkind : 5 < u / 4096) : h.MpKept (h.fence u s) ∧ u ∈ (h.fence u s).faults.fenced := by
  obtain ⟨hkept, hin⟩ := fenceOne_mpKept h s hkind
  have hstacks := checkStacks_mpKept (h.fenceOne u s) s
  unfold Hw.fence
  dsimp only
  rw [cascade_none _ hkind]
  exact ⟨hkept.trans hstacks, hstacks.2.2.2 hin⟩

/-- The part once the loss of its active processor is reported and the processor fenced. -/
def Hw.mpFence (h : Hw) : Hw := (h.report 0xE01 1 (unitNo 11 h.ctl.activeMp) 3).fence (unitNo 11 h.ctl.activeMp) 0xE01

theorem mpFence_keeps (h : Hw) : h.MpKept h.mpFence ∧ unitNo 11 h.ctl.activeMp ∈ h.mpFence.faults.fenced := by
  obtain ⟨hkept, hin⟩ := fence_mpKept (h.report 0xE01 1 (unitNo 11 h.ctl.activeMp) 3) (u := unitNo 11 h.ctl.activeMp) 0xE01 (by rw [unitNo]; omega)
  exact ⟨(report_mpKept h _ _ _ _ _ _ _).trans hkept, hin⟩

/-- The loss of the active processor: during boot the other one takes its place, and else no firmware runs until the takeover. -/
theorem loseMp_active (h : Hw) : h.loseMp h.ctl.activeMp = if h.ctl.phase = .rom ∨ h.ctl.phase = .booting then h.mpFence.modCtl (fun c => { c with activeMp := 1 - c.activeMp })
    else h.mpFence.modFaults (fun f => { f with mpLost := true, mpLostTick := h.mpFence.time.tick }) := by
  obtain ⟨⟨⟨_, _, _, _, hctl⟩, -⟩, -⟩ := mpFence_keeps h
  have hmp : h.mpFence.ctl.activeMp = h.ctl.activeMp := by rw [hctl]
  have hphase : h.mpFence.ctl.phase = h.ctl.phase := by rw [hctl]
  have hloss : h.loseMp h.ctl.activeMp = if h.ctl.activeMp ≠ h.mpFence.ctl.activeMp then (h.mpFence.modCtl (fun c => { c with standbyReady := false })).activationInternal 3
      else if h.mpFence.ctl.phase = .rom ∨ h.mpFence.ctl.phase = .booting then h.mpFence.modCtl (fun c => { c with activeMp := 1 - c.activeMp })
      else h.mpFence.modFaults (fun f => { f with mpLost := true, mpLostTick := h.mpFence.time.tick }) := rfl
  rw [hloss, if_neg (not_not.2 hmp.symm), hphase]

section
variable {s : State}

theorem mpLost_runs (hpow : s.hw.powered = true) (hin : s.hw.isFenced (unitNo 11 s.hw.ctl.activeMp) = false) : exec .mpLost s = .next (s.withHw (s.hw.loseMp s.hw.ctl.activeMp)) := by
  rw [exec_mpLost, execMpLost, onHw_next, if_neg]
  rintro (h | h)
  · exact h hpow
  · exact Bool.false_ne_true (hin.symm.trans h)

theorem mpLost_ignored (h : s.hw.powered = false ∨ s.hw.isFenced (unitNo 11 s.hw.ctl.activeMp) = true) : exec .mpLost s = .next s := by
  rw [exec_mpLost, execMpLost, onHw_next, if_pos (h.imp_left (fun hp => by rw [hp]; exact Bool.false_ne_true))]
  rfl
end

/-! ### The takeover -/

/-- A due commit whose tick has passed completes with TICK_PASSED. -/
def Hw.passDue (h : Hw) (c : Nat) : Hw :=
  match (h.chan c).due with
  | some d => if d.tick ≤ h.time.tick then (h.modChan c (fun x => { x with due := none })).reply c stTickPassed 0 else h
  | none => h

theorem passDue_chan_ne (h : Hw) {c d : Nat} (hd : d ≠ c) : (h.passDue c).chan d = h.chan d := by
  unfold Hw.passDue
  split
  · split
    · rw [Hw.reply, chan_modChan_ne _ _ hd, chan_modChan_ne _ _ hd]
    · rfl
  · rfl

/-- A channel whose commit was due by a tick that has passed. -/
def Chan.passed (tick : Nat) (x : Chan) : Chan :=
  match x.due with
  | some d => if d.tick ≤ tick then
      (match x.cur with
       | some r => { x with due := none, cur := some { r with waiting := false }, reply := some (response r stTickPassed 0 []) }
       | none => { x with due := none })
    else x
  | none => x

theorem passDue_chan (h : Hw) (c : Nat) : (h.passDue c).chan c = (h.chan c).passed h.time.tick := by
  cases hdue : (h.chan c).due with
  | none => simp only [Hw.passDue, Chan.passed, hdue]
  | some d =>
    by_cases htick : d.tick ≤ h.time.tick
    · cases hcur : (h.chan c).cur with
      | none => simp only [Hw.passDue, Chan.passed, hdue, if_pos htick, Hw.reply, chan_modChan, hcur]
      | some r => simp only [Hw.passDue, Chan.passed, hdue, if_pos htick, Hw.reply, chan_modChan, hcur]
    · simp only [Hw.passDue, Chan.passed, hdue, if_neg htick]

/-- Of the control part only channels change, and nothing else does. -/
def Hw.ChansOnly (h h' : Hw) : Prop := ∃ chans, h' = { h with ctl := { h.ctl with chans := chans } }

theorem passDue_chansOnly (h : Hw) (c : Nat) : h.ChansOnly (h.passDue c) := by
  unfold Hw.passDue
  split
  · split
    · exact ⟨_, rfl⟩
    · exact ⟨h.ctl.chans, rfl⟩
  · exact ⟨h.ctl.chans, rfl⟩

theorem Hw.ChansOnly.trans {h1 h2 h3 : Hw} (k : h1.ChansOnly h2) (k' : h2.ChansOnly h3) : h1.ChansOnly h3 := by
  obtain ⟨_, rfl⟩ := k
  obtain ⟨chans, rfl⟩ := k'
  exact ⟨chans, rfl⟩

theorem passAll_chansOnly (cs : List Nat) : ∀ h : Hw, h.ChansOnly (cs.foldl Hw.passDue h) := by
  induction cs with
  | nil => exact fun h => ⟨h.ctl.chans, rfl⟩
  | cons c cs ih => exact fun h => (passDue_chansOnly h c).trans (ih _)

theorem passAll_chan {cs : List Nat} (hcs : cs.Nodup) {c : Nat} : ∀ h : Hw, (cs.foldl Hw.passDue h).chan c = if c ∈ cs then (h.chan c).passed h.time.tick else h.chan c := by
  induction cs with
  | nil => exact fun h => (if_neg List.not_mem_nil).symm
  | cons d cs ih =>
    intro h
    obtain ⟨hd, hcs⟩ := List.nodup_cons.1 hcs
    rw [List.foldl_cons, ih hcs]
    by_cases hcd : c = d
    · subst hcd
      rw [if_neg hd, if_pos List.mem_cons_self, passDue_chan]
    · have htime : (h.passDue d).time = h.time := by
        obtain ⟨_, e⟩ := passDue_chansOnly h d
        rw [e]
      rw [passDue_chan_ne h hcd, htime]
      exact if_congr (by rw [List.mem_cons]; simp [hcd]) rfl rfl

/-- The part with the standby active and the mirror imported. -/
def Hw.imported (h : Hw) : Hw :=
  ((h.ctl.activation.elim h (fun a => h.runImage a.slot)).modFaults (fun f => { f with mpLost := false })).modCtl (fun c => { c with
    activeMp := 1 - h.ctl.activeMp, standbyReady := false, activation := none, phase := if c.phase = .handover then .running else c.phase,
    chans := c.chans.map (fun e => (e.1, e.2.again)) })

theorem imported_keeps (h : Hw) : h.imported.faults.mpLost = false ∧ h.imported.ctl.activeMp = 1 - h.ctl.activeMp ∧ h.imported.ctl.standbyReady = false ∧
    h.imported.time = h.time ∧ ∀ c, h.imported.chan c = (h.chan c).again := by
  refine ⟨rfl, rfl, rfl, ?_, fun c => ?_⟩
  · unfold Hw.imported
    cases h.ctl.activation <;> rfl
  · have hchans : h.imported.ctl.chans = h.ctl.chans.map (fun e => (e.1, e.2.again)) := by
      unfold Hw.imported
      cases h.ctl.activation <;> rfl
    rw [Hw.chan, hchans]
    exact tget_map (f := Chan.again) rfl h.ctl.chans c

theorem takeover_eq (fz : Fuses) {h : Hw} (hlost : h.faults.mpLost = true) (hother : h.isFenced (unitNo 11 (1 - h.ctl.activeMp)) = false) :
    h.takeover fz = ((List.range 16).foldl Hw.passDue h.imported).runLatched fz := by
  unfold Hw.takeover
  dsimp only
  rw [if_neg]
  · rfl
  · rintro (hn | hn)
    · exact hn hlost
    · exact Bool.false_ne_true (hother.symm.trans hn)

/-- The takeover: the processors, and the channel of a commit whose tick has passed. -/
theorem takeover_keeps (fz : Fuses) {h : Hw} (hlost : h.faults.mpLost = true) (hother : h.isFenced (unitNo 11 (1 - h.ctl.activeMp)) = false) : let h' := h.takeover fz
    h'.faults.mpLost = false ∧ h'.ctl.activeMp = 1 - h.ctl.activeMp ∧ h'.ctl.standbyReady = false ∧
      ∀ c, c < 16 → (∀ r, ((h.chan c).again.passed h.time.tick).cur = some r → r.latched = false) → h'.chan c = (h.chan c).again.passed h.time.tick := by
  intro h'
  obtain ⟨hmp, hactive, hready, htime, hchan⟩ := imported_keeps h
  obtain ⟨chans, hpass⟩ := passAll_chansOnly (List.range 16) h.imported
  obtain ⟨chans', hrun, hlatched⟩ := runLatched_keeps fz ((List.range 16).foldl Hw.passDue h.imported)
  have he : h' = ((List.range 16).foldl Hw.passDue h.imported).runLatched fz := takeover_eq fz hlost hother
  have hfields : h'.faults = h.imported.faults ∧ h'.ctl.activeMp = h.imported.ctl.activeMp ∧ h'.ctl.standbyReady = h.imported.ctl.standbyReady := by
    rw [he, hrun, hpass]
    exact ⟨rfl, rfl, rfl⟩
  obtain ⟨hf, ha, hr⟩ := hfields
  refine ⟨by rw [hf, hmp], by rw [ha, hactive], by rw [hr, hready], fun c hc hnot => ?_⟩
  have hpassed : ((List.range 16).foldl Hw.passDue h.imported).chan c = (h.chan c).again.passed h.time.tick := by
    rw [passAll_chan List.nodup_range, if_pos (List.mem_range.2 hc), hchan, htime]
  rw [he, hlatched c (by rw [hpassed]; exact hnot), hpassed]

/-- The channel of a commit that waits for a tick, of a request that is not an activation, keeps it. -/
theorem again_waits {x : Chan} {r : Request} (hcur : x.cur = some r) (hreply : x.reply = none) (hop : r.opcode ≠ 0x0E03) : x.again = x := by
  unfold Chan.again
  rw [hcur, hreply]
  exact if_neg (by simp [hop])

section
variable {s : State}

theorem mpTakeover_takes (h : s.hw.ctl.standbyReady = false ∨ (s.hw.time.slot = 0 ∧ s.hw.faults.mpLostTick < s.hw.time.tick)) :
    exec .mpTakeover s = .next (s.withHw (s.hw.takeover s.fuses)) := by
  rw [exec_mpTakeover, execMpTakeover, onHw_next]
  refine congrArg (fun x => Host.Outcome.next (s.withHw x)) ?_
  by_cases hready : s.hw.ctl.standbyReady = true
  · obtain ⟨hslot, htick⟩ := h.resolve_left (by rw [hready]; decide)
    rw [if_neg (not_not.2 hready), if_pos hslot, Hw.readyTakeover, if_pos ⟨hready, htick⟩]
  · rw [if_pos hready]

theorem mpTakeover_waits (h : s.hw.faults.mpLost = false ∨ (s.hw.ctl.standbyReady = true ∧ (s.hw.time.slot ≠ 0 ∨ s.hw.time.tick ≤ s.hw.faults.mpLostTick))) :
    exec .mpTakeover s = .next s := by
  have hnone (hlost : s.hw.faults.mpLost = false) : s.hw.takeover s.fuses = s.hw := by
    unfold Hw.takeover
    exact if_pos (Or.inl (by rw [hlost]; exact Bool.false_ne_true))
  rw [exec_mpTakeover, execMpTakeover, onHw_next]
  refine congrArg (fun x => Host.Outcome.next (s.withHw x)) ?_
  rcases h with hlost | ⟨hready, hlater⟩
  · rw [Hw.readyTakeover, hnone hlost, ite_self, ite_self, ite_self]
  · rw [if_neg (not_not.2 hready)]
    rcases hlater with hslot | htick
    · exact if_neg hslot
    · rw [Hw.readyTakeover, if_neg (fun hh : _ ∧ _ => absurd hh.2 (Nat.not_lt.2 htick)), ite_self]
end

/-- Settles O53. -/
theorem collectorAndProcessors : Obligations.CollectorAndProcessors := by
  unfold Obligations.CollectorAndProcessors
  refine ⟨fun s c r hc ha => ⟨fun hnone => ?_, fun hnotify hder => ?_, fun hknown hmay => ⟨fun hunit => ?_, fun hunit hn => ?_, fun hunit hlo hhi => ?_⟩⟩,
    fun s c r hc ha => ⟨fun h0 => ?_, fun h0 hex => ?_, fun h0 hex hout => ?_, fun h0 hex hout => ?_⟩,
    fun s t r step htests hpassed hcur => ⟨fun hnode => ?_, fun hnode => ?_, fun hstep => ?_⟩,
    fun s => ⟨fun hslot hstate hquiet => ⟨_, quietPeriodExpiry_ends hslot hstate hquiet, toNormal_tells s.hw 0x0B02 _⟩, quietPeriodExpiry_waits, ⟨_, rfl, rfl, rfl⟩,
      fun hsafe hdone => ⟨⟨collectorRewrite_under true hsafe hdone, fun hwhole => ?_⟩, ?_⟩, fun hslot hlehr hstate hmissing hrails hdone hquiet => ?_, safeStateExit_waits, fun u hu => ?_,
      fun u => strikeCountReset_held, fun hpow hin hrom hboot => ?_, fun hpow hin hphase => ?_, mpLost_ignored, fun hlost hmp hother hready => ?_, mpTakeover_waits⟩⟩
  · exact execFaultForce_fails hc ha (f := (stInvalid, 0)) (by rw [hnone]; rfl)
  · refine execFaultForce_fails hc ha (f := (stInvalid, 0)) ?_
    rw [hnotify, List.contains_iff_mem.2 hder]
    simp [firstFail, failIf, bad]
  · refine execFaultForce_fails hc ha (f := (stInvalid, 4)) ?_
    rw [force_allowed (r := r) hknown hmay, hunit]
    rfl
  · rw [execFaultForce_passes hc hknown hmay ha hunit (by omega), if_pos hn]
  · rw [execFaultForce_passes hc hknown hmay ha hunit hhi, if_neg (by omega)]
  · rw [execUnitReadmit_asks hc ha, if_pos h0]
  · rw [execUnitReadmit_asks hc ha, if_neg h0, if_pos (by rw [hex]; exact Bool.false_ne_true)]
  · rw [execUnitReadmit_asks hc ha, if_neg h0, if_neg (not_not.2 hex), if_pos]
    exact ⟨fun hin => hout (.inl hin), fun hin => hout (.inr ⟨hin.1, List.contains_iff_mem.1 hin.2⟩)⟩
  · obtain ⟨-, hcur, -⟩ := id ha
    refine ⟨_, execUnitReadmit_starts hc ha h0 hex hout, rfl, ?_⟩
    rw [chan_modChan]
    exact congrArg (Option.map _) hcur
  · rw [execBuiltinTestDone_one htests hpassed 0]
    simp only [if_neg (fun hh => hnode (noNode_iff.1 (And.left hh))), if_true]
  · refine ⟨_, 1 + s.hw.draw.2 % 255, execBuiltinTestDone_noNode htests hpassed hnode, by omega, by omega, rfl, ?_⟩
    rw [reply_eq (h := s.hw.draw.1.modFaults (fun f => { f with tests := [] })) hcur, Hw.answered, chan_modChan, Nat.mod_eq_of_lt (show 1 + s.hw.draw.2 % 255 < 256 by omega)]
  · have hkeep : ¬ ((decide (t.unit / 4096 = 10) && (List.range 4).all (fun n => s.hw.routerOut (nodeRouter (4 * (t.unit % 4096) + n)))) = true ∧ step = 0) := fun hh => hstep hh.2
    rw [execBuiltinTestDone_one htests hpassed step]
    simp only [if_neg hkeep, if_neg hstep]
    exact congrArg (fun x => Host.Outcome.next (s.withHw x)) (reply_eq (h := s.hw.modFaults (fun f => { f with tests := [] })) hcur _ _ _)
  · obtain ⟨hmissing, hdone', hsources, hquiet⟩ := checkWorkingSet_whole hwhole
    exact ⟨hmissing, hdone', hquiet rfl, hsources⟩
  · obtain ⟨hfails, hdone', hmissing⟩ := checkWorkingSet_inSafe (h := s.hw.modFaults (fun f => { f with rewriteFails := f.rewriteFails + 1 })) hsafe
    refine ⟨_, (collectorRewrite_under false hsafe hdone).trans (congrArg (fun x => Host.Outcome.next (s.withHw x)) (if_neg Bool.false_ne_true)), hfails, hdone'.trans hdone,
      fun htwo => ?_⟩
    rw [hmissing]
    exact rewrite_missing (Nat.succ_le_succ htwo)
  · obtain ⟨hnormal, hcount, -, htells⟩ := toNormal_tells s.hw 0x0B04 [w32 s.hw.toNormal.faults.recoveries, w32 (sat32 (s.hw.toNormal.time.tick - s.hw.faults.safeTick))]
    exact ⟨_, safeStateExit_ends hslot hlehr hstate hmissing hrails hdone hquiet, hnormal, hcount, htells⟩
  · refine ⟨_, strikeCountReset_quiet hu, ?_, fun v hv => ?_⟩
    · exact congrArg (Option.getD · 0) ((tget?_tdel s.hw.faults.strikes u u).trans (if_pos rfl))
    · exact congrArg (Option.getD · 0) ((tget?_tdel s.hw.faults.strikes u v).trans (if_neg hv))
  · obtain ⟨⟨-, -, htick, -⟩, hfenced⟩ := mpFence_keeps s.hw
    refine ⟨_, mpLost_runs hpow hin, ?_⟩
    rw [loseMp_active, if_neg (not_or.2 ⟨hrom, hboot⟩)]
    exact ⟨rfl, htick, hfenced⟩
  · obtain ⟨⟨⟨_, _, _, _, hctl⟩, hlost, -, -⟩, hfenced⟩ := mpFence_keeps s.hw
    refine ⟨_, mpLost_runs hpow hin, ?_⟩
    rw [loseMp_active, if_pos hphase]
    exact ⟨hlost, by rw [modCtl_ctl, hctl], hfenced⟩
  · obtain ⟨hmp', hactive, hready', hchan⟩ := takeover_keeps s.fuses hlost hother
    refine ⟨_, mpTakeover_takes hready, hmp', hactive, hready', fun c r d hc hcur hreply hop hdue hlatched htick _ => ?_⟩
    have hpassed : (s.hw.chan c).again.passed s.hw.time.tick = { s.hw.chan c with due := none, cur := some { r with waiting := false }, reply := some (response r stTickPassed 0 []) } := by
      rw [again_waits hcur hreply hop, Chan.passed, hdue]
      dsimp only
      rw [if_pos htick, hcur]
    rw [hchan c hc (fun r' hr' => by rw [hpassed] at hr'; cases hr'; exact hlatched), hpassed]
    exact ⟨rfl, rfl, rfl⟩

end Sys2Proof.Machine
end

section
/-!
The snapshot store: writes, reads, seals and verification (R390 to R396, R399).
-/

namespace Sys2Proof.Machine
open Sys2Proof

/-! ### Parts, and what a node's packet leaves of the store -/

section
variable {h : Hw} {handle : Nat} {x : Part}

theorem part_modPart (hx : h.part? handle = some x) (f : Part → Part) : (h.modPart handle f).part? handle = some (f x) := by
  have hx' : tget? h.mem.parts handle = some x := hx
  rw [Hw.part?, Hw.modPart, modMem_mem, hx']
  exact tget?_tput h.mem.parts handle (f x)

theorem part_modPart_ne (f : Part → Part) {n : Nat} (hn : n ≠ handle) : (h.modPart handle f).part? n = h.part? n := by
  rw [Hw.part?, Hw.modPart, modMem_mem]
  split
  · exact tget?_tput_ne _ _ hn
  · rfl

theorem part_of_parts {h' : Hw} (e : h'.mem.parts = h.mem.parts) (n : Nat) : h'.part? n = h.part? n := by
  rw [Hw.part?, Hw.part?, e]

theorem part_countM (i n m : Nat) : (h.countM i n).part? m = h.part? m := rfl
end

/-- Routing changes no memory and nothing of the control part. -/
theorem route_keeps (h : Hw) (e ingress : Nat) (k : Pkt) : (h.route e ingress k).1.mem = h.mem ∧ (h.route e ingress k).1.ctl = h.ctl := by
  have hhop (n : Nat) : (h.nextHop e ingress n k).1.mem = h.mem ∧ (h.nextHop e ingress n k).1.ctl = h.ctl := by
    unfold Hw.nextHop
    dsimp only
    split
    · split <;> exact ⟨rfl, rfl⟩
    · split <;> exact ⟨rfl, rfl⟩
  unfold Hw.route
  dsimp only
  split
  · exact ⟨rfl, rfl⟩
  · split
    · exact ⟨rfl, rfl⟩
    · split
      · exact ⟨rfl, rfl⟩
      · next n _ =>
        have hkeep := hhop n
        split
        · next heq =>
          rw [heq] at hkeep
          exact hkeep
        · next heq =>
          rw [heq] at hkeep
          exact hkeep
      · exact ⟨rfl, rfl⟩

/-- A packet that a node sends changes no memory and nothing of the control part. -/
theorem nodeUnicast_keeps (h : Hw) (node : Nat) (k : Pkt) : (h.nodeUnicast node k).1.mem = h.mem ∧ (h.nodeUnicast node k).1.ctl = h.ctl := by
  have hroute := route_keeps h h.mesh.injEpoch (300 + cxRouter (144 + node)) (k.setEpoch h.mesh.injEpoch)
  unfold Hw.nodeUnicast
  dsimp only
  split
  · next heq =>
    rw [heq] at hroute
    exact hroute
  · next heq =>
    rw [heq] at hroute
    exact hroute

/-- A part that only its mirrored count tells from another. -/
def Part.Mirrors (x y : Part) : Prop := ∃ n, y = { x with mirrored := n }

/-- The store with, of one part, more bytes mirrored. -/
def Hw.Mirrored (h h' : Hw) (handle : Nat) (x : Part) : Prop :=
  h'.ctl = h.ctl ∧ (∃ n, h'.part? handle = some { x with mirrored := n }) ∧ ∀ n, n ≠ handle → h'.part? n = h.part? n

theorem mirrorCopy_mirrored {h : Hw} {handle : Nat} {x : Part} (hx : h.part? handle = some x) (node anchor : Nat) (y : Part) (src offset : Nat) (b : List Byte) :
    h.Mirrored (h.mirrorCopy node handle anchor y src offset b) handle x := by
  unfold Hw.mirrorCopy
  obtain ⟨hmem, hctl⟩ := nodeUnicast_keeps h node (mkPkt (snapHdr 7 false b.length y.job anchor src y.snapshot offset) b)
  generalize h.nodeUnicast node _ = r at hmem hctl ⊢
  obtain ⟨h1, sent⟩ := r
  have hparts (n : Nat) : h1.part? n = h.part? n := part_of_parts (congrArg Mem.parts hmem) n
  cases sent
  · exact ⟨hctl, ⟨x.mirrored, (hparts handle).trans hx⟩, fun n _ => hparts n⟩
  · exact ⟨hctl, ⟨_, part_modPart (h := h1.countM 8) ((hparts handle).trans hx) _⟩, fun n hn => (part_modPart_ne (h := h1.countM 8) _ hn).trans (hparts n)⟩

theorem Hw.Mirrored.refl {h : Hw} {handle : Nat} {x : Part} (hx : h.part? handle = some x) : h.Mirrored h handle x := ⟨rfl, ⟨x.mirrored, hx⟩, fun _ _ => rfl⟩

theorem Hw.Mirrored.step {h h1 h2 : Hw} {handle : Nat} {x : Part} (m : h.Mirrored h1 handle x) (m' : ∀ n, h1.Mirrored h2 handle { x with mirrored := n }) : h.Mirrored h2 handle x := by
  obtain ⟨hctl, -, hother⟩ := m
  obtain ⟨hctl', ⟨k, hk⟩, hother'⟩ := m' 0
  exact ⟨hctl'.trans hctl, ⟨k, hk⟩, fun n hn => (hother' n hn).trans (hother n hn)⟩

/-! ### A packet that waits at a node -/

/-- The one whole packet of its type at a node is taken. -/
theorem nodeTake_one {h : Hw} {node t : Nat} {mp : MeshPkt} (hnodes : tget [] h.mesh.nodes (nodeRouter node) = [mp]) (hwhole : wholeIn [mp] mp = true) (ht : mp.pkt.ptype = t) :
    h.nodeTake node t = some (mp, h.modMesh (fun m => { m with nodes := tput m.nodes (nodeRouter node) [] })) := by
  unfold Hw.nodeTake
  dsimp only
  rw [hnodes]
  rw [List.find?_cons_of_pos (by simp [hwhole, ht]), Option.map_some]
  simp only [Hw.modMesh, tmod, hnodes]
  simp

/-! ### Writes -/

/-- A part with the bytes of a write at offset o stored: in the record of a BUDDY part, or at their place in the shard of entry i. -/
def Part.stored (o i : Nat) (b : List Byte) (x : Part) : Part :=
  if o.testBit 47 then { x with record := memWriteList 0 x.record (o % 2 ^ 47) b } else { x with shards := memWriteList 0 x.shards (2 ^ 38 * i + o % 2 ^ 47) b }

/-- And counted, of a BUDDY part, among the bytes received. -/
def Part.receives (o i len : Nat) (b : List Byte) (x : Part) : Part :=
  let x := x.stored o i b
  { x with received := if x.buddy then x.received + len else x.received }

theorem receives_fields (o i len : Nat) (b : List Byte) (x : Part) : (x.receives o i len b).state = x.state ∧
    (x.receives o i len b).received = (if x.buddy then x.received + len else x.received) ∧
    (o.testBit 47 = false → (x.receives o i len b).shards = memWriteList 0 x.shards (2 ^ 38 * i + o % 2 ^ 47) b ∧ (x.receives o i len b).record = x.record) ∧
    (o.testBit 47 = true → (x.receives o i len b).record = memWriteList 0 x.record (o % 2 ^ 47) b ∧ (x.receives o i len b).shards = x.shards) := by
  unfold Part.receives Part.stored
  cases hbit : o.testBit 47 with
  | true => exact ⟨rfl, rfl, fun h => absurd h (by decide), fun _ => ⟨rfl, rfl⟩⟩
  | false => exact ⟨rfl, rfl, fun _ => ⟨rfl, rfl⟩, fun h => absurd h (by decide)⟩

section
variable {s : State} {node handle : Nat} {mp : MeshPkt} {x : Part} {o : Nat} (ho : snapOffsetOf mp.pkt = o) (hnode : node < 8) (hnodes : tget [] s.hw.mesh.nodes (nodeRouter node) = [mp]) (hwhole : wholeIn [mp] mp = true)
  (htype : mp.pkt.ptype = 7) (hlen : mp.pkt.len ≠ 0)
include ho hnode hnodes hwhole htype hlen

/-- A write is taken from its node, and then what Table 13.3 says of it. -/
theorem execSnapWriteReceive_takes : let h := s.hw.modMesh (fun m => { m with nodes := tput m.nodes (nodeRouter node) [] })
    let k := mp.pkt
    exec (.snapWriteReceive node) s = .next (s.withHw (match s.hw.partOf k with
      | none => h.relaySnap node k
      | some (handle, x) =>
        let i := (x.entryOf k.src).getD 0
        let low := o % 2 ^ 47
        if x.state ≠ .opened ∧ ¬ x.before mp then h.countM 11
        else if (o.testBit 47 ∧ ¬ x.buddy) ∨ (¬ o.testBit 47 ∧ x.shardBytes i < low + k.len) ∨ (o.testBit 47 ∧ recordArea x.ranks < low + k.len) then h.countM 12
        else
          let h := (h.countM 6).modPart handle (Part.receives o i k.len k.payload)
          match x.mirror with
          | some a => h.mirrorCopy node handle a x k.src o k.payload
          | none => h)) := by
  intro h k
  subst ho
  rw [exec_snapWriteReceive, execSnapWriteReceive, atUnit_in hnode, onHw_next, nodeTake_one hnodes hwhole htype]
  dsimp only
  rw [if_neg hlen]
  rfl

theorem snapWrite_relayed (hpart : s.hw.partOf mp.pkt = none) :
    exec (.snapWriteReceive node) s = .next (s.withHw ((s.hw.modMesh (fun m => { m with nodes := tput m.nodes (nodeRouter node) [] })).relaySnap node mp.pkt)) := by
  rw [execSnapWriteReceive_takes ho hnode hnodes hwhole htype hlen, hpart]

variable (hpart : s.hw.partOf mp.pkt = some (handle, x))
include hpart

theorem snapWrite_closed (hstate : x.state ≠ .opened) (hbefore : x.before mp = false) :
    exec (.snapWriteReceive node) s = .next (s.withHw ((s.hw.modMesh (fun m => { m with nodes := tput m.nodes (nodeRouter node) [] })).countM 11)) := by
  rw [execSnapWriteReceive_takes ho hnode hnodes hwhole htype hlen, hpart]
  exact congrArg (fun x => Host.Outcome.next (s.withHw x)) (if_pos ⟨hstate, by rw [hbefore]; exact Bool.false_ne_true⟩)

variable (hopen : x.state = .opened ∨ x.before mp = true)
include hopen

theorem snapWrite_outside (hout : o.testBit 47 = true ∧ x.buddy = false ∨
      o.testBit 47 = false ∧ x.shardBytes ((x.entryOf mp.pkt.src).getD 0) < o % 2 ^ 47 + mp.pkt.len) :
    exec (.snapWriteReceive node) s = .next (s.withHw ((s.hw.modMesh (fun m => { m with nodes := tput m.nodes (nodeRouter node) [] })).countM 12)) := by
  rw [execSnapWriteReceive_takes ho hnode hnodes hwhole htype hlen, hpart]
  refine congrArg (fun x => Host.Outcome.next (s.withHw x)) ((if_neg ?_).trans (if_pos ?_))
  · rintro ⟨h1, h2⟩
    exact hopen.elim h1 h2
  · rcases hout with ⟨h1, h2⟩ | ⟨h1, h2⟩
    · exact .inl ⟨h1, by rw [h2]; exact Bool.false_ne_true⟩
    · exact .inr (.inl ⟨by rw [h1]; exact Bool.false_ne_true, h2⟩)

/-- A write that is within the part: its bytes are stored, and mirrored where the part has a buddy. -/
theorem snapWrite_stored (hx : s.hw.part? handle = some x) (hin : ¬ ((o.testBit 47 = true ∧ ¬ x.buddy = true) ∨
      (¬ o.testBit 47 = true ∧ x.shardBytes ((x.entryOf mp.pkt.src).getD 0) < o % 2 ^ 47 + mp.pkt.len) ∨
      (o.testBit 47 = true ∧ recordArea x.ranks < o % 2 ^ 47 + mp.pkt.len))) :
    ∃ h' n, exec (.snapWriteReceive node) s = .next (s.withHw h') ∧ (∀ m, m ≠ handle → h'.part? m = s.hw.part? m) ∧
      h'.part? handle = some { x.receives o ((x.entryOf mp.pkt.src).getD 0) mp.pkt.len mp.pkt.payload with mirrored := n } := by
  rw [execSnapWriteReceive_takes ho hnode hnodes hwhole htype hlen, hpart]
  have hgo : ¬ (x.state ≠ .opened ∧ ¬ x.before mp = true) := fun hh => hopen.elim hh.1 hh.2
  dsimp only
  rw [if_neg hgo, if_neg hin]
  generalize hstore : ((s.hw.modMesh _).countM 6).modPart handle _ = h1
  have hpart1 : h1.part? handle = some (x.receives o ((x.entryOf mp.pkt.src).getD 0) mp.pkt.len mp.pkt.payload) := by
    rw [← hstore]
    exact part_modPart (h := (s.hw.modMesh _).countM 6) hx _
  have hother (m : Nat) (hm : m ≠ handle) : h1.part? m = s.hw.part? m := by
    rw [← hstore]
    exact part_modPart_ne (h := (s.hw.modMesh _).countM 6) _ hm
  generalize x.receives o _ _ _ = y at hpart1 ⊢
  cases hmirror : x.mirror with
  | none => exact ⟨h1, y.mirrored, rfl, hother, hpart1⟩
  | some a =>
    obtain ⟨-, ⟨n, hn⟩, hkeep⟩ := mirrorCopy_mirrored hpart1 node a x mp.pkt.src o mp.pkt.payload
    exact ⟨_, n, rfl, fun m hm => (hkeep m hm).trans (hother m hm), hn⟩
end

end Sys2Proof.Machine
end

section
/-!
The snapshot store: reads, and the ends of seals, waits and verifies (R394 to R396, R399).
-/

namespace Sys2Proof.Machine
open Sys2Proof

/-! ### Reads -/

section
variable {s : State} {node handle : Nat} {mp : MeshPkt} {x : Part} {o : Nat} (ho : snapOffsetOf mp.pkt = o) (hnode : node < 8)
  (hnodes : tget [] s.hw.mesh.nodes (nodeRouter node) = [mp]) (hwhole : wholeIn [mp] mp = true) (htype : mp.pkt.ptype = 8)
include ho hnode hnodes hwhole htype

/-- A read is taken from its node, and then what the part says of it. -/
theorem execSnapReadReceive_takes : let h := s.hw.modMesh (fun m => { m with nodes := tput m.nodes (nodeRouter node) [] })
    let k := mp.pkt
    let n := k.word 8
    exec (.snapReadReceive node) s = .next (s.withHw (match s.hw.partOf k with
      | none => h.relaySnap node k
      | some (handle, x) =>
        let i := (x.entryOf k.src).getD 0
        let low := o % 2 ^ 47
        let touched := if o.testBit 47 ∨ n = 0 then [] else (List.range ((low + n - 1) / chunkBytes + 1 - low / chunkBytes)).map (fun c => (i, low / chunkBytes + c))
        if x.state ≠ .sealed ∧ x.state ≠ .damaged then h.relaySnap node k
        else if (if o.testBit 47 then x.recBytes else x.shardBytes i) < low + n ∨ 8192 < n then h.countM 12
        else if touched.any x.isFailed ∨ (o.testBit 47 ∧ x.allFailed) then h.relaySnap node k
        else
          let y := x.checkChunks touched
          let h := h.modPart handle (fun _ => y)
          if touched.any y.isFailed then ((h.raise 0x0802 [w32 handle, w32 y.failedCount]).countM 14).relaySnap node k
          else ((h.countM 13).nodeUnicast node (mkPkt (snapHdr 8 true n k.job k.src 0 (snapshotIdOf k) o)
            (if o.testBit 47 then memReadList 0 x.record low n else memReadList 0 x.shards (2 ^ 38 * i + low) n))).1)) := by
  intro h k n
  subst ho
  rw [exec_snapReadReceive, execSnapReadReceive, atUnit_in hnode, onHw_next, nodeTake_one hnodes hwhole htype]
  rfl

theorem snapRead_relayed (hpart : s.hw.partOf mp.pkt = none) :
    exec (.snapReadReceive node) s = .next (s.withHw ((s.hw.modMesh (fun m => { m with nodes := tput m.nodes (nodeRouter node) [] })).relaySnap node mp.pkt)) := by
  rw [execSnapReadReceive_takes ho hnode hnodes hwhole htype, hpart]

variable (hpart : s.hw.partOf mp.pkt = some (handle, x))
include hpart

theorem snapRead_unsealed (hsealed : x.state ≠ .sealed) (hdamaged : x.state ≠ .damaged) :
    exec (.snapReadReceive node) s = .next (s.withHw ((s.hw.modMesh (fun m => { m with nodes := tput m.nodes (nodeRouter node) [] })).relaySnap node mp.pkt)) := by
  rw [execSnapReadReceive_takes ho hnode hnodes hwhole htype, hpart]
  exact congrArg (fun x => Host.Outcome.next (s.withHw x)) (if_pos ⟨hsealed, hdamaged⟩)

/-- A read within a shard of a SEALED part: relayed when a chunk of it is failed, and else served once the chunks are checked. -/
theorem snapRead_sealed (hsealed : x.state = .sealed) (hshard : o.testBit 47 = false) (hn0 : mp.pkt.word 8 ≠ 0) (hn : mp.pkt.word 8 ≤ 8192)
    (hin : o % 2 ^ 47 + mp.pkt.word 8 ≤ x.shardBytes ((x.entryOf mp.pkt.src).getD 0)) :
    let h := s.hw.modMesh (fun m => { m with nodes := tput m.nodes (nodeRouter node) [] })
    let low := o % 2 ^ 47
    let i := (x.entryOf mp.pkt.src).getD 0
    let touched := (List.range ((low + mp.pkt.word 8 - 1) / chunkBytes + 1 - low / chunkBytes)).map (fun c => (i, low / chunkBytes + c))
    (touched.any x.isFailed = true → exec (.snapReadReceive node) s = .next (s.withHw (h.relaySnap node mp.pkt))) ∧
    (touched.any x.isFailed = false → touched.any (x.checkChunks touched).isFailed = false → exec (.snapReadReceive node) s =
      .next (s.withHw (((h.modPart handle (fun _ => x.checkChunks touched)).countM 13).nodeUnicast node
        (mkPkt (snapHdr 8 true (mp.pkt.word 8) mp.pkt.job mp.pkt.src 0 (snapshotIdOf mp.pkt) o) (memReadList 0 x.shards (2 ^ 38 * i + low) (mp.pkt.word 8)))).1)) := by
  intro h low i touched
  have hbit : ¬ o.testBit 47 = true := by rw [hshard]; exact Bool.false_ne_true
  have hstate : ¬ (x.state ≠ .sealed ∧ x.state ≠ .damaged) := fun hh => hh.1 hsealed
  have hall : ¬ (o.testBit 47 = true ∨ mp.pkt.word 8 = 0) := not_or.2 ⟨hbit, hn0⟩
  have hroom : ¬ (x.shardBytes i < low + mp.pkt.word 8 ∨ 8192 < mp.pkt.word 8) := by
    rintro (h1 | h1)
    · exact absurd h1 (Nat.not_lt.2 hin)
    · exact absurd h1 (Nat.not_lt.2 hn)
  rw [execSnapReadReceive_takes ho hnode hnodes hwhole htype, hpart]
  dsimp only
  rw [if_neg hstate, if_neg hall, if_neg hbit, if_neg hroom, if_neg hbit]
  refine ⟨fun hfailed => ?_, fun hgood hchecked => ?_⟩
  · rw [if_pos (Or.inl hfailed)]
  · have hnone : ¬ (touched.any x.isFailed = true ∨ (o.testBit 47 = true ∧ x.allFailed = true)) := by
      rintro (h1 | h1)
      · exact Bool.false_ne_true (hgood.symm.trans h1)
      · exact hbit h1.1
    rw [if_neg hnone, if_neg (fun h1 => Bool.false_ne_true (hchecked.symm.trans h1))]
end

/-! ### The ends of seals -/

/-- The response of a seal or verify that ends with part x: its channel's. -/
def Hw.ClosedBy (h h' : Hw) (c : Closing) (x : Part) : Prop :=
  ∀ ch r, c.ch = some ch → (h.chan ch).cur = some r → (h'.chan ch).reply = some (response r stOk 0 x.closeOut)

theorem endClose_ends {h : Hw} {handle : Nat} {x : Part} (hx : h.part? handle = some x) (c : Closing) :
    (h.endClose handle c).part? handle = some { x with closing := none } ∧ h.ClosedBy (h.endClose handle c) c x ∧ (h.endClose handle c).ctl.raised = h.ctl.raised := by
  have hx' := part_modPart hx (fun x => { x with closing := none })
  unfold Hw.endClose
  dsimp only
  rw [hx']
  cases hch : c.ch with
  | none => exact ⟨hx', fun ch r hc => absurd (hch.symm.trans hc) (by simp), rfl⟩
  | some ch =>
    refine ⟨hx', fun ch' r hc hcur => ?_, rfl⟩
    obtain rfl : ch = ch' := Option.some.inj (hch.symm.trans hc)
    exact (chan_reply (h := h.modPart handle (fun x => { x with closing := none })) hcur stOk 0 _).2

/-- A seal that has ended is told. -/
theorem raiseSealed_tells {h : Hw} {handle : Nat} {x : Part} (hx : h.part? handle = some x) : (h.raiseSealed handle).part? handle = some x ∧
    (∀ c, (h.raiseSealed handle).chan c = h.chan c) ∧ h.Tells (h.raiseSealed handle) 0x0801 := by
  unfold Hw.raiseSealed
  rw [hx]
  exact ⟨hx, fun c => chan_raise h 0x0801 _ c, fun hon => raise_last h 0x0801 _ hon⟩

/-- What is told and answered when a part has ended in a state. -/
theorem sealed_ends {h : Hw} {handle : Nat} {x : Part} (hx : h.part? handle = some x) (c : Closing) : let h' := (h.raiseSealed handle).endClose handle c
    h'.part? handle = some { x with closing := none } ∧ h.ClosedBy h' c x ∧ h.Tells h' 0x0801 := by
  intro h'
  obtain ⟨hpart, hchan, htells⟩ := raiseSealed_tells hx
  obtain ⟨hpart', hclosed, hraised⟩ := endClose_ends hpart c
  refine ⟨hpart', fun ch r hc hcur => hclosed ch r hc (by rw [hchan]; exact hcur), fun hon => ?_⟩
  rw [hraised]
  exact htells hon

theorem Hw.ClosedBy.of_ctl {h1 h2 h' : Hw} {c : Closing} {x : Part} (hctl : h2.ctl = h1.ctl) (h : h2.ClosedBy h' c x) : h1.ClosedBy h' c x :=
  fun ch r hc hcur => h ch r hc (by rw [Hw.chan, hctl]; exact hcur)

theorem Hw.Tells.of_ctl {h1 h2 h' : Hw} {code : Nat} (hctl : h2.ctl = h1.ctl) (h : h2.Tells h' code) : h1.Tells h' code :=
  fun hon => h (by rw [Hw.eventsOn, hctl]; exact hon)

section
variable {s : State} {handle : Nat} {x : Part} {c : Closing} (hx : s.hw.part? handle = some x) (hc : x.closing = some c)
include hx hc

theorem sealDone_damaged (hstate : x.state = .damaged) : exec (.snapshotSealDone handle) s = .next (s.withHw (s.hw.endClose handle c)) := by
  rw [exec_snapshotSealDone, execSnapshotSealDone, onHw_next, hx]
  dsimp only
  rw [hc]
  exact congrArg (fun x => Host.Outcome.next (s.withHw x)) (if_pos hstate)

theorem sealDone_waits (hdamaged : x.state ≠ .damaged) (h : x.state ≠ .sealing ∨ c.verify = true ∨ s.hw.writesUnderWay x = true) : exec (.snapshotSealDone handle) s = .next s := by
  rw [exec_snapshotSealDone, execSnapshotSealDone, onHw_next, hx]
  dsimp only
  rw [hc]
  exact congrArg (fun x => Host.Outcome.next (s.withHw x)) ((if_neg hdamaged).trans (if_pos h))

/-- The primary part with its record made. -/
def Part.recorded (x : Part) (c : Closing) : Part :=
  { x with record := memWriteList 0 x.record 0 (x.makeRecord c.tick x.groups), recBytes := (x.makeRecord c.tick x.groups).length, state := .sealed }

/-- A buddy part once its record is checked. -/
def Part.judged (x : Part) : Part :=
  match x.recordOk with
  | none => { x with state := .incomplete }
  | some n => { x with recBytes := n, failed := ({ x with recBytes := n } : Part).differing, state := if ({ x with recBytes := n } : Part).differing = [] then .sealed else .damaged }

variable (hstate : x.state = .sealing) (hverify : c.verify = false) (hunder : s.hw.writesUnderWay x = false)
include hstate hverify hunder

omit hx hc in
theorem sealDone_goes : ¬ x.state = .damaged ∧ ¬ (x.state ≠ .sealing ∨ c.verify = true ∨ s.hw.writesUnderWay x = true) := by
  refine ⟨by rw [hstate]; decide, ?_⟩
  rintro (h1 | h1 | h1)
  · exact h1 hstate
  · exact Bool.false_ne_true (hverify.symm.trans h1)
  · exact Bool.false_ne_true (hunder.symm.trans h1)

theorem sealDone_buddy (hbuddy : x.buddy = true) : ∃ h1 : Hw, exec (.snapshotSealDone handle) s = .next (s.withHw ((h1.raiseSealed handle).endClose handle c)) ∧
    h1.ctl = s.hw.ctl ∧ h1.part? handle = some x.judged := by
  obtain ⟨hdamaged, hgo⟩ := sealDone_goes hstate hverify hunder
  rw [exec_snapshotSealDone, execSnapshotSealDone, onHw_next, hx]
  dsimp only
  rw [hc]
  dsimp only
  rw [if_neg hdamaged, if_neg hgo, if_pos hbuddy]
  unfold Part.judged
  cases hrec : x.recordOk with
  | none => exact ⟨_, rfl, rfl, part_modPart hx _⟩
  | some n => exact ⟨_, rfl, rfl, part_modPart hx _⟩

theorem sealDone_primary (hbuddy : x.buddy = false) : ∃ (h1 : Hw) (n : Nat), exec (.snapshotSealDone handle) s = .next (s.withHw ((h1.raiseSealed handle).endClose handle c)) ∧
    h1.ctl = s.hw.ctl ∧ h1.part? handle = some { x.recorded c with mirrored := n } := by
  obtain ⟨hdamaged, hgo⟩ := sealDone_goes hstate hverify hunder
  rw [exec_snapshotSealDone, execSnapshotSealDone, onHw_next, hx]
  dsimp only
  rw [hc]
  dsimp only
  rw [if_neg hdamaged, if_neg hgo, if_neg (by rw [hbuddy]; exact Bool.false_ne_true)]
  generalize hh1 : s.hw.modPart handle _ = h1
  have hpart : h1.part? handle = some (x.recorded c) := by
    rw [← hh1]
    exact part_modPart hx _
  have hctl : h1.ctl = s.hw.ctl := by rw [← hh1]; rfl
  cases x.mirror with
  | none => exact ⟨h1, (x.recorded c).mirrored, rfl, hctl, hpart⟩
  | some a =>
    obtain ⟨hctl', n, hn⟩ := foldl_preserves (P := fun g : Hw => g.ctl = s.hw.ctl ∧ ∃ n, g.part? handle = some { x.recorded c with mirrored := n })
      (f := fun (h : Hw) i => h.mirrorCopy (4 * x.stack) handle a x (x.ranks.getD 0 (0, 0)).1 (2 ^ 47 + 8192 * i) (((x.makeRecord c.tick x.groups).drop (8192 * i)).take 8192))
      (fun g i hg => by
        obtain ⟨hgctl, m, hm⟩ := hg
        obtain ⟨hcopy, hparts, -⟩ := mirrorCopy_mirrored hm (4 * x.stack) a x (x.ranks.getD 0 (0, 0)).1 (2 ^ 47 + 8192 * i) (((x.makeRecord c.tick x.groups).drop (8192 * i)).take 8192)
        exact ⟨hcopy.trans hgctl, hparts⟩) (List.range (cdiv (x.makeRecord c.tick x.groups).length 8192)) ⟨hctl, (x.recorded c).mirrored, hpart⟩
    exact ⟨_, n, rfl, hctl', hn⟩
end

/-! ### The wait of a buddy part, and verifies -/

section
variable {s : State} {handle : Nat} {x : Part} {c : Closing} (hx : s.hw.part? handle = some x) (hc : x.closing = some c)
include hx hc

theorem buddyDeadline_open (hstate : x.state = .opened) : exec (.snapshotBuddyDeadline handle) s = .next (s.withHw
    (if x.received = c.expected ∨ (c.deadline ≤ s.hw.time.tick ∧ c.expected ≤ x.received) then s.hw.modPart handle (fun x => { x with state := .sealing })
      else if s.hw.time.tick < c.deadline then s.hw else ((s.hw.modPart handle (fun x => { x with state := .incomplete })).raiseSealed handle).endClose handle c)) := by
  rw [exec_snapshotBuddyDeadline, execSnapshotBuddyDeadline, onHw_next, hx]
  dsimp only
  rw [hc]
  exact congrArg (fun x => Host.Outcome.next (s.withHw x)) (if_neg (not_not.2 hstate))

theorem verifyDone_damaged (hstate : x.state = .damaged) : exec (.snapshotVerifyDone handle) s = .next (s.withHw (s.hw.endClose handle c)) := by
  rw [exec_snapshotVerifyDone, execSnapshotVerifyDone, onHw_next, hx]
  dsimp only
  rw [hc]
  exact congrArg (fun x => Host.Outcome.next (s.withHw x)) (if_pos hstate)

theorem verifyDone_waits (hdamaged : x.state ≠ .damaged) (hverify : c.verify = false) : exec (.snapshotVerifyDone handle) s = .next s := by
  rw [exec_snapshotVerifyDone, execSnapshotVerifyDone, onHw_next, hx]
  dsimp only
  rw [hc]
  exact congrArg (fun x => Host.Outcome.next (s.withHw x)) ((if_neg hdamaged).trans (if_pos (Or.inr (by rw [hverify]; exact Bool.false_ne_true))))

/-- A part once it is verified. -/
def Part.verified (x : Part) : Part :=
  let wrong := x.differing.filter (fun e => ! x.failed.contains e)
  let all := x.allFailed || ! x.rootOk
  { x with failed := x.failed ++ wrong, allFailed := all, state := if all ∨ x.failed ++ wrong ≠ [] then .damaged else .sealed }

theorem verifyDone_ends (hstate : x.state = .sealing) (hverify : c.verify = true) :
    exec (.snapshotVerifyDone handle) s = .next (s.withHw ((s.hw.modPart handle (fun _ => x.verified)).endClose handle c)) := by
  rw [exec_snapshotVerifyDone, execSnapshotVerifyDone, onHw_next, hx]
  dsimp only
  rw [hc]
  refine congrArg (fun x => Host.Outcome.next (s.withHw x)) (((if_neg (by rw [hstate]; decide)).trans (if_neg ?_)).trans ?_)
  · rintro (h1 | h1)
    · exact h1 hstate
    · exact h1 hverify
  · have hmod : ∀ f : Part → Part, s.hw.modPart handle f = s.hw.modPart handle (fun _ => f x) := fun f => by
      have hx' : tget? s.hw.mem.parts handle = some x := hx
      rw [Hw.modPart, Hw.modPart, Hw.modMem, Hw.modMem, hx']
    rw [hmod]
    rfl
end

/-- A verified part is SEALED when nothing fails, else DAMAGED, and what failed or differs is marked. -/
theorem verified_fields (x : Part) : (x.verified.state = .sealed ↔ x.allFailed = false ∧ x.rootOk = true ∧ x.failed = [] ∧ x.differing = []) ∧
    (x.verified.state = .sealed ∨ x.verified.state = .damaged) ∧ (∀ e ∈ x.failed, e ∈ x.verified.failed) ∧ ∀ e ∈ x.differing, e ∈ x.verified.failed := by
  have hstate : x.verified.state = if (x.allFailed || ! x.rootOk) = true ∨ x.failed ++ x.differing.filter (fun e => ! x.failed.contains e) ≠ [] then .damaged else .sealed := rfl
  have hfailed : x.verified.failed = x.failed ++ x.differing.filter (fun e => ! x.failed.contains e) := rfl
  refine ⟨?_, ?_, fun e he => ?_, fun e he => ?_⟩
  · rw [hstate]
    have hcond : ((x.allFailed || ! x.rootOk) = true ∨ x.failed ++ x.differing.filter (fun e => ! x.failed.contains e) ≠ []) ↔
        ¬ (x.allFailed = false ∧ x.rootOk = true ∧ x.failed = [] ∧ x.differing = []) := by
      cases x.allFailed <;> cases x.rootOk <;> cases x.failed <;> cases x.differing <;> simp
    split
    · next hbad => exact ⟨fun h => PState.noConfusion h, fun h => absurd h (hcond.1 hbad)⟩
    · next hgood => exact ⟨fun _ => not_not.1 (fun h => hgood (hcond.2 h)), fun _ => rfl⟩
  · rw [hstate]
    split
    · exact .inr rfl
    · exact .inl rfl
  · rw [hfailed]
    exact List.mem_append_left _ he
  · rw [hfailed, List.mem_append, List.mem_filter]
    by_cases hin : e ∈ x.failed
    · exact .inl hin
    · exact .inr ⟨he, by simp [hin]⟩

/-- Settles O51. -/
theorem snapshotStore : Obligations.SnapshotStore := by
  unfold Obligations.SnapshotStore
  refine ⟨fun s node handle mp x hnode hnodes hwhole => ⟨fun htype hlen => ⟨fun hpart => ?_, fun hpart hx => ⟨fun hstate hbefore => ?_, fun hopen hbit hout => ?_, fun hopen hbit hbuddy => ?_,
      fun hopen hbit hin => ?_, fun hopen hbit hbuddy hin => ?_⟩⟩, fun htype => ⟨fun hpart => ?_, fun hpart hx => ⟨fun hsealed hdamaged => ?_, fun hsealed hbit hn0 hn hin hgood hchecked => ?_,
      fun hsealed hbit hn0 hn hin hfailed => ?_⟩⟩⟩,
    fun s handle x c hx hc => ⟨fun hstate => ⟨sealDone_damaged hx hc hstate, verifyDone_damaged hx hc hstate⟩, fun hunder hstate => sealDone_waits hx hc hstate (.inr (.inr hunder)),
      fun hstate hverify hunder hbuddy => ?_, fun hstate hverify hunder hbuddy => ?_, fun hstate hverify => sealDone_waits hx hc (by rw [hstate]; decide) (.inr (.inl hverify)),
      fun hstate hall => ?_, fun hstate hless hdue => ?_, fun hstate hne hbefore => ?_, fun hstate hverify => ?_, fun hstate hverify => verifyDone_waits hx hc (by rw [hstate]; decide) hverify⟩⟩
  · exact snapWrite_relayed rfl hnode hnodes hwhole htype hlen hpart
  · exact snapWrite_closed rfl hnode hnodes hwhole htype hlen hpart hstate hbefore
  · exact snapWrite_outside rfl hnode hnodes hwhole htype hlen hpart hopen (.inr ⟨hbit, hout⟩)
  · exact snapWrite_outside rfl hnode hnodes hwhole htype hlen hpart hopen (.inl ⟨hbit, hbuddy⟩)
  · obtain ⟨o, ho⟩ : ∃ o, snapOffsetOf mp.pkt = o := ⟨_, rfl⟩
    simp only [ho] at hbit hin ⊢
    obtain ⟨h', n, hrun, hother, hpart'⟩ := snapWrite_stored ho hnode hnodes hwhole htype hlen hpart hopen hx (by
      rw [hbit]
      rintro (h1 | h1 | h1)
      · exact Bool.false_ne_true h1.1
      · exact absurd h1.2 (Nat.not_lt.2 hin)
      · exact Bool.false_ne_true h1.1)
    obtain ⟨hstate, hreceived, hshard, -⟩ := receives_fields o ((x.entryOf mp.pkt.src).getD 0) mp.pkt.len mp.pkt.payload x
    exact ⟨h', _, hrun, hpart', (hshard hbit).1, (hshard hbit).2, hreceived, hstate, hother⟩
  · obtain ⟨o, ho⟩ : ∃ o, snapOffsetOf mp.pkt = o := ⟨_, rfl⟩
    simp only [ho] at hbit hin ⊢
    obtain ⟨h', n, hrun, -, hpart'⟩ := snapWrite_stored ho hnode hnodes hwhole htype hlen hpart hopen hx (by
      rintro (h1 | h1 | h1)
      · exact h1.2 hbuddy
      · exact h1.1 hbit
      · exact absurd h1.2 (Nat.not_lt.2 hin))
    obtain ⟨-, -, -, hrecord⟩ := receives_fields o ((x.entryOf mp.pkt.src).getD 0) mp.pkt.len mp.pkt.payload x
    exact ⟨h', _, hrun, hpart', (hrecord hbit).1, (hrecord hbit).2⟩
  · exact snapRead_relayed rfl hnode hnodes hwhole htype hpart
  · exact snapRead_unsealed rfl hnode hnodes hwhole htype hpart hsealed hdamaged
  · exact (snapRead_sealed rfl hnode hnodes hwhole htype hpart hsealed hbit hn0 hn hin).2 hgood hchecked
  · exact (snapRead_sealed rfl hnode hnodes hwhole htype hpart hsealed hbit hn0 hn hin).1 hfailed
  · obtain ⟨h1, n, hrun, hctl, hpart⟩ := sealDone_primary hx hc hstate hverify hunder hbuddy
    obtain ⟨hpart', hclosed, htells⟩ := sealed_ends hpart c
    exact ⟨_, _, hrun, hpart', rfl, rfl, rfl, rfl, rfl, hclosed.of_ctl hctl, htells.of_ctl hctl⟩
  · obtain ⟨h1, hrun, hctl, hpart⟩ := sealDone_buddy hx hc hstate hverify hunder hbuddy
    obtain ⟨hpart', hclosed, -⟩ := sealed_ends hpart c
    refine ⟨_, _, hrun, hpart', rfl, hclosed.of_ctl hctl, ?_⟩
    unfold Part.judged
    cases x.recordOk <;> rfl
  · exact ⟨_, _, (buddyDeadline_open hx hc hstate).trans (congrArg (fun x => Host.Outcome.next (s.withHw x)) (if_pos (Or.inl hall))), part_modPart hx _, rfl⟩
  · have hwait : ¬ (x.received = c.expected ∨ (c.deadline ≤ s.hw.time.tick ∧ c.expected ≤ x.received)) := by omega
    obtain ⟨hpart, hclosed, -⟩ := sealed_ends (part_modPart hx (fun x => { x with state := .incomplete })) c
    exact ⟨_, _, (buddyDeadline_open hx hc hstate).trans (congrArg (fun x => Host.Outcome.next (s.withHw x)) ((if_neg hwait).trans (if_neg (Nat.not_lt.2 hdue)))), hpart, rfl, rfl,
      hclosed⟩
  · have hwait : ¬ (x.received = c.expected ∨ (c.deadline ≤ s.hw.time.tick ∧ c.expected ≤ x.received)) := by omega
    exact (buddyDeadline_open hx hc hstate).trans (congrArg (fun x => Host.Outcome.next (s.withHw x)) ((if_neg hwait).trans (if_pos hbefore)))
  · obtain ⟨hpart, hclosed, -⟩ := endClose_ends (part_modPart hx (fun _ => x.verified)) c
    obtain ⟨hiff, hor, hfailed, hdiffering⟩ := verified_fields x
    exact ⟨_, _, verifyDone_ends hx hc hstate hverify, hpart, rfl, hclosed, rfl, hiff, hor, hfailed, hdiffering⟩

end Sys2Proof.Machine
end

section
/-!
What the loss of buffers, the strikes and the fences leave of the groups: the marks of lost slots, the places of early contributions and the counters apart,
every context is as it was, and so are the attachments.
-/

namespace Sys2Proof.Machine
open Sys2Proof

/-- A generation without its open chunks. -/
def Gen.bare (n : Gen) : Gen := { n with open_ := [] }

/-- A context differs from another in open chunks, early contributions' places and counters at most. -/
structure Group.Alike (x y : Group) : Prop where
  same : y = { x with gens := y.gens, early := y.early, counters := y.counters }
  bare : y.gens.map Gen.bare = x.gens.map Gen.bare
  early : x.early = [] → y.early = []

theorem Group.Alike.refl (x : Group) : x.Alike x := ⟨rfl, rfl, id⟩

theorem Group.Alike.trans {x y z : Group} (hxy : x.Alike y) (hyz : y.Alike z) : x.Alike z :=
  ⟨by rw [hyz.same, hxy.same], hyz.bare.trans hxy.bare, hyz.early ∘ hxy.early⟩

/-- Every context stays alike. -/
def Hw.GroupsAlike (h h' : Hw) : Prop := ∀ g x, h.grp? g = some x → ∃ y, h'.grp? g = some y ∧ x.Alike y

theorem Hw.GroupsAlike.trans {h1 h2 h3 : Hw} (h12 : h1.GroupsAlike h2) (h23 : h2.GroupsAlike h3) : h1.GroupsAlike h3 := by
  intro g x hx
  obtain ⟨y, hy, hxy⟩ := h12 g x hx
  obtain ⟨z, hz, hyz⟩ := h23 g y hy
  exact ⟨z, hz, hxy.trans hyz⟩

/-- Every context stays alike, and the attachments stay. -/
structure Hw.Steady (h h' : Hw) : Prop where
  atts : h'.progs.atts = h.progs.atts
  grps : h.GroupsAlike h'

theorem Hw.Steady.of_eq {h h' : Hw} (hgroups : h'.groups = h.groups) (hatts : h'.progs.atts = h.progs.atts) : h.Steady h' :=
  ⟨hatts, fun g x hx => ⟨x, by rw [Hw.grp?, hgroups]; exact hx, .refl x⟩⟩

theorem Hw.Steady.refl (h : Hw) : h.Steady h := .of_eq rfl rfl

theorem Hw.Steady.trans {h1 h2 h3 : Hw} (h12 : h1.Steady h2) (h23 : h2.Steady h3) : h1.Steady h3 :=
  ⟨h23.atts.trans h12.atts, h12.grps.trans h23.grps⟩

/-- A steady way from a state with the same contexts and attachments. -/
theorem Hw.Steady.after {h h1 h2 : Hw} (h12 : h1.Steady h2) (hgroups : h1.groups = h.groups) (hatts : h1.progs.atts = h.progs.atts) : h.Steady h2 :=
  (Hw.Steady.of_eq hgroups hatts).trans h12

theorem foldl_steady {α : Type} {f : Hw → α → Hw} (hf : ∀ (h : Hw) (a : α), h.Steady (f h a)) (l : List α) (h : Hw) : h.Steady (l.foldl f h) :=
  foldl_preserves (P := h.Steady) (fun g a hg => hg.trans (hf g a)) l (.refl h)

theorem tget?_mapKey {α : Type} (f : Nat → α → α) (t : Tbl α) (a : Nat) : tget? (t.map (fun e => (e.1, f e.1 e.2))) a = (tget? t a).map (f a) := by
  induction t with
  | nil => rfl
  | cons e t ih =>
    simp only [List.map_cons, tget?, ih]
    split
    · next he => rw [he]; rfl
    · rfl

theorem modGrp_steady (h : Hw) (g : Nat) {f : Group → Group} (hf : ∀ x : Group, x.Alike (f x)) : h.Steady (h.modGrp g f) := by
  refine ⟨by rw [modGrp_progs], fun k x hx => ?_⟩
  by_cases hk : k = g
  · subst hk
    exact ⟨f x, by rw [grp?_modGrp, hx, Option.map_some], hf x⟩
  · exact ⟨x, by rw [grp?_modGrp_ne _ _ hk, hx], .refl x⟩

theorem countG_steady (h : Hw) (g i n : Nat) : h.Steady (h.countG g i n) := modGrp_steady h g (fun _ => ⟨rfl, rfl, id⟩)

/-- A context whose slots that meet a condition are lost. -/
def Group.slotsLost (p : Nat → Gen → Nat → Chunk → Bool) (g : Nat) (x : Group) : Group :=
  { x with gens := x.gens.map (fun n => { n with
    open_ := n.open_.map (fun (q : Nat × Chunk) => if p g n q.1 q.2 then (q.1, { q.2 with slotLost := true, restarted := false }) else q) }) }

theorem grp?_loseSlots (h : Hw) (p : Nat → Gen → Nat → Chunk → Bool) (g : Nat) : (h.loseSlots p).grp? g = (h.grp? g).map (Group.slotsLost p g) :=
  tget?_mapKey (Group.slotsLost p) h.groups g

theorem loseSlots_steady (h : Hw) (p : Nat → Gen → Nat → Chunk → Bool) : h.Steady (h.loseSlots p) :=
  ⟨rfl, fun g x hx => ⟨x.slotsLost p g, by rw [grp?_loseSlots, hx, Option.map_some], rfl, by rw [Group.slotsLost, List.map_map]; rfl, id⟩⟩

/-- A context whose early contributions at a complex follow a packet to its new buffer. -/
def Group.earlyMoved (c : Nat) (m : Nat × Nat) (x : Group) : Group :=
  { x with early := x.early.map (fun e => if e.cx = c ∧ e.ptr = m.1 then { e with ptr := m.2 } else e) }

theorem grp?_renameEarly (h : Hw) (c : Nat) (m : Nat × Nat) (g : Nat) : (h.renameEarly c m).grp? g = (h.grp? g).map (Group.earlyMoved c m) :=
  tget?_map (Group.earlyMoved c m) h.groups g

theorem renameEarly_steady (h : Hw) (c : Nat) (m : Nat × Nat) : h.Steady (h.renameEarly c m) :=
  ⟨rfl, fun g x hx => ⟨x.earlyMoved c m, by rw [grp?_renameEarly, hx, Option.map_some], rfl, rfl, fun he => by rw [Group.earlyMoved, he, List.map_nil]⟩⟩

/-! ### Reports and fences -/

theorem report_steady (h : Hw) (s cls unit action : Nat) (data : List Word) (forced notify : Bool) : h.Steady (h.report s cls unit action data forced notify) :=
  .of_eq (report_groups ..) (by rw [report_progs])

theorem portAbsent_steady (h : Hw) (p cause : Nat) : h.Steady (h.portAbsent p cause) := by
  refine .of_eq ?_ (congrArg Progs.atts ?_)
  all_goals
    unfold Hw.portAbsent
    dsimp only
    split <;> split <;> split <;> rfl

theorem goDark_steady (h : Hw) (p cause : Nat) : h.Steady (h.goDark p cause) :=
  (portAbsent_steady h p cause).trans (.of_eq rfl rfl)

theorem setAttach_steady (h : Hw) (c : Nat) (a : Attach) : h.Steady (h.setAttach c a) := by
  have hset : h.Steady (h.modCx c (fun x => { x with attach := if x.attach = .detached then .detached else a })) := .of_eq rfl rfl
  unfold Hw.setAttach
  dsimp only
  split
  · exact hset
  · exact hset.trans (foldl_steady (fun h p => goDark_steady h p 7) _ _)

theorem modIn_steady (h : Hw) (r d : Nat) (f : MeshIn → MeshIn) : h.Steady (h.modIn r d f) := .of_eq rfl rfl

theorem cutVc_steady (fuel : Nat) : ∀ (h : Hw) (r key : Nat), h.Steady (Hw.cutVc fuel h r key) := by
  induction fuel with
  | zero => exact fun h _ _ => .refl h
  | succ n ih =>
    intro h r key
    have hdrop : h.Steady (if (tget? (h.router r).vcs key).isSome then h.meshDrop r else h) :=
      iteInduction (motive := h.Steady) (fun _ => .of_eq rfl rfl) (fun _ => .refl h)
    rw [Hw.cutVc]
    refine hdrop.trans ((foldl_steady (fun h d => ?_) _ _).after rfl rfl)
    exact (foldl_steady (fun h v => ih h _ _) _ _).after rfl rfl

theorem copySent_steady (h : Hw) (r key : Nat) : h.Steady (h.copySent r key) := by
  have hvc : h.Steady (h.modVc r key (fun b => { b with busy := b.busy - 1 })) := .of_eq rfl rfl
  have hfree (h : Hw) : h.Steady (h.freeVc r key) := by
    unfold Hw.freeVc
    split
    · exact .refl h
    · exact iteInduction (motive := h.Steady) (fun _ => .of_eq rfl rfl) (fun _ => .of_eq rfl rfl)
  unfold Hw.copySent
  dsimp only
  split
  · exact iteInduction (motive := h.Steady) (fun _ => hvc.trans (hfree _)) (fun _ => hvc)
  · exact hvc

theorem emptyRouter_steady (h : Hw) (r : Nat) : h.Steady (h.emptyRouter r) := by
  unfold Hw.emptyRouter
  refine .trans ?_ (.of_eq (modRouter_groups ..) (by rw [modRouter_progs]))
  refine .trans ?_ (foldl_steady (fun h e => foldl_steady (fun h t => ?_) _ _) _ _)
  · refine .trans ?_ (foldl_steady (fun h d => ?_) _ _)
    · exact foldl_steady (fun h _ => .of_eq (countRouter_groups ..) (congrArg Progs.atts (countRouter_progs ..))) _ h
    · exact (foldl_steady (fun h v => cutVc_steady 32 h _ _) _ _).after rfl rfl
  · exact (copySent_steady _ _ _).after rfl rfl

theorem fenceRouter_steady (h : Hw) (r : Nat) : h.Steady (h.fenceRouter r) := by
  have hempty : h.Steady ((h.emptyRouter r).modRouter r (fun x => { x with faulty := true })) := (emptyRouter_steady h r).trans (.of_eq rfl rfl)
  have hout := hempty.trans (foldl_steady (fun h c => setAttach_steady h c .detached) (attachedAt r) _)
  unfold Hw.fenceRouter
  dsimp only
  split
  · exact hout.trans (.of_eq rfl rfl)
  · exact hout.trans ((report_steady _ ..).after rfl rfl)

theorem fenceAction_steady (h : Hw) (u : Nat) : h.Steady (h.fenceAction u) := by
  unfold Hw.fenceAction
  dsimp only
  split
  · exact loseSlots_steady h _
  · exact iteInduction (motive := h.Steady) (fun _ => setAttach_steady h _ _) (fun _ => .refl h)
  · exact fenceRouter_steady h _
  all_goals exact .of_eq rfl rfl

theorem tellSpare_steady (h : Hw) (u : Nat) : h.Steady (h.tellSpare u) := by
  refine .of_eq ?_ (congrArg Progs.atts ?_)
  all_goals
    unfold Hw.tellSpare
    split
    · split
      · rw [Hw.tellExhausted]
        split <;> rfl
      · rfl
    · rfl

theorem checkWorkingSet_steady (h : Hw) : h.Steady h.checkWorkingSet := by
  unfold Hw.checkWorkingSet
  dsimp only
  split
  · exact .of_eq rfl rfl
  · split
    · exact .of_eq rfl rfl
    · exact (report_steady _ ..).after rfl rfl

theorem fenceOne_steady (h : Hw) (u s : Nat) : h.Steady (h.fenceOne u s) := by
  unfold Hw.fenceOne
  dsimp only
  split
  · exact .refl h
  · refine .trans ?_ (checkWorkingSet_steady _)
    refine .trans (Hw.Steady.of_eq rfl rfl : h.Steady ((h.modFaults (fun f => { f with fenced := f.fenced ++ [u], recorded := f.recorded.filter (· ≠ u) ++ [u] })).raise 0x0B05 [w32 (u + s * 2 ^ 16)])) ?_
    split
    · exact (fenceAction_steady _ u).trans (tellSpare_steady _ u)
    · exact (tellSpare_steady _ u).trans (fenceAction_steady _ u)

theorem loseStack_steady (h : Hw) (k s : Nat) : h.Steady (h.loseStack k s) := by
  unfold Hw.loseStack
  split
  · exact .refl h
  · dsimp only
    refine (fenceOne_steady h (unitNo 10 k) s).trans (.trans ?_ (report_steady _ ..))
    exact (loseSlots_steady _ _).after rfl rfl

theorem checkStacks_steady (h : Hw) (s : Nat) : h.Steady (h.checkStacks s) :=
  foldl_steady (fun h k => iteInduction (motive := h.Steady) (fun _ => loseStack_steady h k s) (fun _ => .refl h)) _ h

theorem fence_steady (h : Hw) (u s : Nat) : h.Steady (h.fence u s) := by
  have hone := (fenceOne_steady h u s).trans (checkStacks_steady _ s)
  unfold Hw.fence
  dsimp only
  split
  · exact hone.trans ((setAttach_steady _ _ _).trans (fenceOne_steady _ _ s))
  · exact hone

/-! ### Strikes -/

theorem dropChannel_steady (h : Hw) (p f : Nat) (forced : Bool) : h.Steady (h.dropChannel p f forced) :=
  ((report_steady h ..).trans (fence_steady _ _ _)).trans (.of_eq rfl rfl)

theorem substituteChannel_steady (h : Hw) (p : Nat) (must : Bool) : h.Steady (h.substituteChannel p must) := by
  have hdrawn : h.Steady h.draw.1 := .of_eq rfl rfl
  unfold Hw.substituteChannel
  dsimp only
  split
  · exact dropChannel_steady h p _ _
  · split
    · exact .refl h
    · split
      · exact hdrawn
      · exact hdrawn.trans (dropChannel_steady _ p _ _)

theorem fastRetrain_steady (h : Hw) (p : Nat) (must : Bool) : h.Steady (h.fastRetrain p must) := by
  unfold Hw.fastRetrain
  dsimp only
  split
  · exact .refl h
  · exact ((Hw.Steady.of_eq rfl rfl : h.Steady (h.countLane p 1)).trans (substituteChannel_steady _ p must)).trans (.of_eq rfl rfl)

theorem strike_steady (h : Hw) (u s : Nat) (data : List Word) : h.Steady (h.strike u s data) := by
  have hcleared : h.Steady (h.modFaults (fun f => { f with strikes := tdel f.strikes u })) := .of_eq rfl rfl
  unfold Hw.strike
  dsimp only
  split
  · exact .of_eq rfl rfl
  · split
    · exact hcleared.trans (fastRetrain_steady _ _ _)
    · exact hcleared.trans ((report_steady _ ..).trans (fence_steady _ u s))

theorem strikeReport_steady (h : Hw) (s u : Nat) (data : List Word) : h.Steady (h.strikeReport s u data) := by
  by_cases hcount : h.strikesOf u + 1 < 3 ∨ u / 4096 = 14
  · rw [Hw.strikeReport, if_pos hcount]
    exact (report_steady h ..).trans (strike_steady _ u s [])
  · rw [Hw.strikeReport, if_neg hcount]
    exact strike_steady h u s data

/-! ### Buffers given back -/

theorem badPtr_steady (h : Hw) (c p : Nat) (port : Option Nat) : h.Steady (h.badPtr c p port) := by
  have hlisted : h.Steady ((h.modBuf c p (fun b => { b with state := 2, refs := 0 })).modCx c (fun x => x.toCullet p)) := .of_eq rfl rfl
  unfold Hw.badPtr
  cases port with
  | none => exact hlisted.trans (strikeReport_steady ..)
  | some q => exact hlisted.trans ((strikeReport_steady _ ..).after rfl rfl)

theorem release_steady (h : Hw) (c p : Nat) (b : Buf) : h.Steady (h.release c p b) :=
  (Hw.Steady.of_eq rfl rfl : h.Steady (h.setCx c _)).trans (foldl_steady (fun h m => renameEarly_steady h c m) _ _)

theorem dropRef_steady (h : Hw) (c p by_ : Nat) (port : Option Nat) : h.Steady (h.dropRef c p by_ port) := by
  unfold Hw.dropRef
  split
  · exact badPtr_steady h c p port
  · split
    · exact .refl h
    · split
      · exact .of_eq rfl rfl
      · split
        · exact release_steady h c p _
        · exact (strikeReport_steady _ ..).after rfl rfl

theorem dropStored_steady (h : Hw) (c ptr by_ : Nat) : h.Steady (h.dropStored c ptr by_) := by
  unfold Hw.dropStored
  split
  · exact .refl h
  · dsimp only
    split
    · exact (dropRef_steady h c ptr by_ _).trans (.of_eq rfl rfl)
    · exact dropRef_steady h c ptr by_ _

theorem freeKept_steady (h : Hw) (c : Nat) (ptrs : List Nat) : h.Steady (h.freeKept c ptrs) :=
  foldl_steady (fun h p => dropRef_steady h c p homeUnit none) ptrs h

end Sys2Proof.Machine
end

section
/-!
The end of generations without their results (R283, R305, R341): what a context and the attachments are after it.
-/

namespace Sys2Proof.Machine
open Sys2Proof

/-- No attachment comes to be, changes its group, or is given events where it had none. -/
def Hw.AttsQuiet (h h' : Hw) : Prop :=
  ∀ i a', h'.att? i = some a' → ∃ a, h.att? i = some a ∧ a'.grp = a.grp ∧ (a.events = [] → a'.events = [])

theorem Hw.AttsQuiet.of_eq {h h' : Hw} (hatts : h'.progs.atts = h.progs.atts) : h.AttsQuiet h' :=
  fun i a' ha => ⟨a', by rw [Hw.att?, ← hatts]; exact ha, rfl, id⟩

theorem Hw.AttsQuiet.trans {h1 h2 h3 : Hw} (h12 : h1.AttsQuiet h2) (h23 : h2.AttsQuiet h3) : h1.AttsQuiet h3 := by
  intro i a3 h3
  obtain ⟨a2, h2, hgrp, hev⟩ := h23 i a3 h3
  obtain ⟨a1, h1, hgrp', hev'⟩ := h12 i a2 h2
  exact ⟨a1, h1, hgrp.trans hgrp', hev ∘ hev'⟩

theorem Hw.Steady.quiet {h h' : Hw} (k : h.Steady h') : h.AttsQuiet h' := .of_eq k.atts

/-- No attachment of a group has an event that waits. -/
def Hw.NoEvents (h : Hw) (g : Nat) : Prop := ∀ i a, h.att? i = some a → a.grp = g → a.events = []

theorem Hw.NoEvents.kept {h h' : Hw} {g : Nat} (k : h.NoEvents g) (hq : h.AttsQuiet h') : h'.NoEvents g := by
  intro i a' ha' hg
  obtain ⟨a, ha, hgrp, hev⟩ := hq i a' ha'
  exact hev (k i a ha (hgrp.symm.trans hg))

theorem mem_of_tget? {α : Type} {t : Tbl α} {a : Nat} {x : α} (h : tget? t a = some x) : (a, x) ∈ t := by
  induction t with
  | nil => exact nomatch h
  | cons e t ih =>
    rw [tget?] at h
    split at h
    · next he => rw [← he, ← Option.some.inj h]; exact List.mem_cons_self ..
    · exact List.mem_cons_of_mem _ (ih h)

theorem mem_attsOf {h : Hw} {i g : Nat} {a : Att} (ha : h.att? i = some a) (hg : a.grp = g) : i ∈ h.attsOf g :=
  List.mem_map.mpr ⟨(i, a), List.mem_filter.mpr ⟨mem_of_tget? ha, decide_eq_true hg⟩, rfl⟩

theorem att?_modAtt (h : Hw) (a : Nat) (f : Att → Att) (i : Nat) : (h.modAtt a f).att? i = if i = a then (h.att? a).map f else h.att? i := by
  unfold Hw.modAtt
  split
  · next x hx =>
    rw [Hw.att?, modProgs_progs]
    by_cases hi : i = a
    · rw [if_pos hi, hi, tget?_tput, Hw.att?, hx, Option.map_some]
    · rw [if_neg hi, tget?_tput_ne _ _ hi, Hw.att?]
  · next hx =>
    by_cases hi : i = a
    · rw [if_pos hi, hi, Hw.att?, hx, Option.map_none]
    · rw [if_neg hi]

@[simp] theorem modAtt_groups (h : Hw) (a : Nat) (f : Att → Att) : (h.modAtt a f).groups = h.groups := by
  unfold Hw.modAtt
  split <;> rfl

/-! ### Events and invocations of an attachment -/

theorem endInv_steady (h : Hw) (id : Nat) : h.Steady (h.endInv id) := by
  unfold Hw.endInv
  split
  · exact .refl h
  · next v _ =>
    have hbound (bs : List (Nat × List Byte)) (f : Progs → Progs) (hf : (f h.progs).atts = h.progs.atts) :
        h.Steady (bs.foldl (fun h b => h.dropStored v.cx b.1 v.unit) (h.modProgs f)) :=
      (Hw.Steady.of_eq (h := h) (h' := h.modProgs f) rfl hf).trans (foldl_steady (fun h b => dropStored_steady h v.cx b.1 v.unit) bs _)
    dsimp only
    split <;> split
    · exact ((hbound _ _ rfl).trans (dropStored_steady ..)).trans (dropStored_steady ..)
    · exact (hbound _ _ rfl).trans (dropStored_steady ..)
    · exact (hbound _ _ rfl).trans (dropStored_steady ..)
    · exact hbound _ _ rfl

/-- The buffers of the events that wait at an attachment are freed. -/
theorem freeEvents_steady (h : Hw) (l : Tbl (List HookEvent)) :
    h.Steady (l.foldl (fun h e => e.2.foldl (fun h v => match v.ptr with | some q => h.dropStored e.1 q homeUnit | none => h) h) h) := by
  refine foldl_steady (fun h e => foldl_steady (fun h v => ?_) _ _) _ _
  split
  · exact dropStored_steady ..
  · exact .refl h

/-- The attachment loses its events; nothing else of the contexts and the attachments changes. -/
theorem clearAtt_after (h : Hw) (a : Nat) : ∃ h1, h.Steady h1 ∧ h.clearAtt a = h1.modAtt a (fun x => { x with events := [] }) := by
  have hended (ids : List Nat) : h.Steady (ids.foldl Hw.endInv h) := foldl_steady (fun h id => endInv_steady h id) ids h
  unfold Hw.clearAtt
  dsimp only
  split
  · next hnone => exact ⟨_, hended _, by rw [Hw.modAtt, show tget? _ a = none from hnone]⟩
  · next y _ => exact ⟨_, (hended _).trans (freeEvents_steady _ y.events), rfl⟩

theorem clearAtt_alike (h : Hw) (a : Nat) : h.GroupsAlike (h.clearAtt a) := by
  obtain ⟨h1, hk, heq⟩ := clearAtt_after h a
  intro g x hx
  obtain ⟨y, hy, hxy⟩ := hk.grps g x hx
  exact ⟨y, by rw [heq, Hw.grp?, modAtt_groups]; exact hy, hxy⟩

theorem clearAtt_quiet (h : Hw) (a : Nat) : h.AttsQuiet (h.clearAtt a) ∧ ∀ x, (h.clearAtt a).att? a = some x → x.events = [] := by
  obtain ⟨h1, hk, heq⟩ := clearAtt_after h a
  have hatt (i : Nat) : (h.clearAtt a).att? i = if i = a then (h1.att? a).map (fun x => { x with events := [] }) else h1.att? i := by rw [heq, att?_modAtt]
  refine ⟨hk.quiet.trans fun i x' hx' => ?_, fun x hx => ?_⟩
  · rw [hatt] at hx'
    split at hx'
    · next hi =>
      obtain ⟨x, hx, rfl⟩ := Option.map_eq_some_iff.mp hx'
      exact ⟨x, hi ▸ hx, rfl, fun _ => rfl⟩
    · exact ⟨x', hx', rfl, id⟩
  · rw [hatt, if_pos rfl] at hx
    obtain ⟨_, _, rfl⟩ := Option.map_eq_some_iff.mp hx
    rfl

theorem clearAtts_clear (l : List Nat) : ∀ h : Hw, h.GroupsAlike (l.foldl Hw.clearAtt h) ∧ h.AttsQuiet (l.foldl Hw.clearAtt h) ∧
    ∀ i ∈ l, ∀ x, (l.foldl Hw.clearAtt h).att? i = some x → x.events = [] := by
  induction l with
  | nil => exact fun h => ⟨(Hw.Steady.refl h).grps, (Hw.Steady.refl h).quiet, fun i hi => nomatch hi⟩
  | cons a l ih =>
    intro h
    obtain ⟨halike, hquiet, hclear⟩ := ih (h.clearAtt a)
    obtain ⟨hq, hc⟩ := clearAtt_quiet h a
    refine ⟨(clearAtt_alike h a).trans halike, hq.trans hquiet, fun i hi x hx => ?_⟩
    rcases List.mem_cons.mp hi with rfl | hi
    · obtain ⟨y, hy, _, hev⟩ := hquiet i x hx
      exact hev (hc y hy)
    · exact hclear i hi x hx

/-- The attachments of a group are cleared. -/
theorem clearAttsOf_noEvents (h : Hw) (g : Nat) : ((h.attsOf g).foldl Hw.clearAtt h).NoEvents g := by
  obtain ⟨_, hquiet, hclear⟩ := clearAtts_clear (h.attsOf g) h
  intro i a ha hg
  obtain ⟨b, hb, hgrp, _⟩ := hquiet i a ha
  exact hclear i (mem_attsOf hb (hgrp.symm.trans hg)) a ha

/-! ### One generation ends -/

/-- What a context is when a generation has left it, but for its counters, its storage to be wiped, its records and its need of a rollback. -/
structure Group.Left (no : Nat) (x y : Group) : Prop where
  same : y = { x with gens := x.gens.filter (·.no ≠ no), current := (((x.gens.filter (·.no ≠ no)).map (·.no)).min?).getD x.admitted,
                      last := y.last, wipes := y.wipes, records := y.records, counters := y.counters, rollback := y.rollback }
  rollback : x.rollback = true → y.rollback = true

theorem needRollback_grp (h : Hw) (g cause gen : Nat) : (h.needRollback g cause gen).grp? g = (h.grp? g).map (fun x => { x with rollback := true }) := by
  unfold Hw.needRollback
  split
  · next hx => rw [hx, Option.map_none]
  · next x hx => exact grp?_modGrp h g _

theorem needRollback_progs (h : Hw) (g cause gen : Nat) : (h.needRollback g cause gen).progs = h.progs := by
  unfold Hw.needRollback
  split
  · rfl
  · exact modGrp_progs h g _

/-- The status a generation ends with. -/
def Gen.endStatus (n : Gen) : Nat := max n.status (if (n.list.filter (fun i => n.lost.contains i)).length ≠ 0 ∨ n.short ≠ 0 then 1 else 0)

theorem closeGen_leaves (h : Hw) {g : Nat} {x : Group} (hx : h.grp? g = some x) (n : Gen) : ∃ y, (h.closeGen g n).grp? g = some y ∧ x.Left n.no y ∧
    y.records = ((n.no, h.genRecord g x { n with status := n.endStatus }) :: x.records).take 4 := by
  unfold Hw.closeGen
  rw [hx]
  dsimp only
  generalize hb : Hw.raise _ 0x0502 _ = b
  have hgrp := congrArg (fun h : Hw => h.grp? g) hb
  beta_reduce at hgrp
  rw [Hw.grp?, raise_groups, ← Hw.grp?, Hw.countG, grp?_modGrp, grp?_modGrp, hx, Option.map_some, Option.map_some] at hgrp
  refine iteInduction (motive := fun h' : Hw => ∃ y, h'.grp? g = some y ∧ x.Left n.no y ∧ y.records = _) (fun _ => ?_) (fun _ => ?_)
  · exact ⟨_, by rw [needRollback_grp, Hw.grp?, report_groups, ← Hw.grp?, ← hgrp, Option.map_some], ⟨rfl, fun _ => rfl⟩, rfl⟩
  · exact ⟨_, hgrp.symm, ⟨rfl, id⟩, rfl⟩

theorem closeGen_progs (h : Hw) (g : Nat) (n : Gen) : (h.closeGen g n).progs = h.progs := by
  unfold Hw.closeGen
  split
  · rfl
  · dsimp only
    refine iteInduction (motive := fun h' : Hw => h'.progs = h.progs) (fun _ => ?_) (fun _ => ?_)
    · rw [needRollback_progs, report_progs, raise_progs, Hw.countG, modGrp_progs, modGrp_progs]
    · rw [raise_progs, Hw.countG, modGrp_progs, modGrp_progs]

/-! ### Every generation ends -/

/-- The pieces a generation's open chunks keep are freed. -/
def Hw.freeOpen (h : Hw) (n : Gen) : Hw := n.open_.foldl (fun h e => h.freeKept e.2.cx (e.2.kept.flatMap (·.2.2.1))) h

theorem freeOpen_steady (h : Hw) (n : Gen) : h.Steady (h.freeOpen n) := foldl_steady (fun h _ => freeKept_steady h _ _) n.open_ h

/-- A generation ends with a status, its open chunks discarded. -/
def Hw.endGen (status g : Nat) (h : Hw) (n : Gen) : Hw := (h.freeOpen n).closeGen g { n with status := max n.status status }

theorem endGens_eq {h : Hw} {g status : Nat} {x : Group} (hx : h.grp? g = some x) :
    h.endGens g status = (x.gens.foldl (Hw.endGen status g) ((h.attsOf g).foldl Hw.clearAtt h)).freeHeld g := by
  rw [Hw.endGens, hx]
  rfl

theorem endGen_leaves (h : Hw) {g : Nat} {x : Group} (status : Nat) (hx : h.grp? g = some x) (n : Gen) : ∃ x1 y, x.Alike x1 ∧ (h.endGen status g n).grp? g = some y ∧ x1.Left n.no y ∧
    y.records = ((n.no, (h.freeOpen n).genRecord g x1 { n with status := Gen.endStatus { n with status := max n.status status } }) :: x1.records).take 4 := by
  obtain ⟨x1, hx1, halike⟩ := (freeOpen_steady h n).grps g x hx
  obtain ⟨y, hy, hleft, hrec⟩ := closeGen_leaves (h.freeOpen n) hx1 { n with status := max n.status status }
  exact ⟨x1, y, halike, hy, hleft, hrec⟩

theorem endGen_atts (h : Hw) (g status : Nat) (n : Gen) : (h.endGen status g n).progs.atts = h.progs.atts := by
  rw [Hw.endGen, closeGen_progs, (freeOpen_steady h n).atts]

theorem Group.Alike.nos {x y : Group} (k : x.Alike y) : y.gens.map (·.no) = x.gens.map (·.no) := by
  have hno (l : List Gen) : l.map (·.no) = (l.map Gen.bare).map (·.no) := by rw [List.map_map]; rfl
  rw [hno, k.bare, ← hno]

/-- Of a context whose generations are on a list, none is left at the list's end. -/
theorem endGens_all {g status : Nat} (l : List Gen) : ∀ (h : Hw) (x : Group), h.grp? g = some x → (∀ m ∈ x.gens, m.no ∈ l.map (·.no)) →
    ∃ y, (l.foldl (Hw.endGen status g) h).grp? g = some y ∧ y.gens = [] ∧ (l.foldl (Hw.endGen status g) h).progs.atts = h.progs.atts := by
  induction l with
  | nil => exact fun h x hx hin => ⟨x, hx, List.eq_nil_iff_forall_not_mem.mpr fun m hm => absurd (hin m hm) (by simp), rfl⟩
  | cons n l ih =>
    intro h x hx hin
    obtain ⟨x1, y, halike, hy, hleft, -⟩ := endGen_leaves h status hx n
    obtain ⟨z, hz, hgens, hatts⟩ := ih _ y hy fun m hm => by
      rw [hleft.same] at hm
      obtain ⟨hm1, hne⟩ := List.mem_filter.mp hm
      have hno : m.no ∈ x.gens.map (·.no) := halike.nos ▸ List.mem_map_of_mem hm1
      obtain ⟨m', hm', heq⟩ := List.mem_map.mp hno
      exact (List.mem_cons.mp (heq ▸ hin m' hm')).resolve_left (of_decide_eq_true hne)
    exact ⟨z, hz, hgens, hatts.trans (endGen_atts h g status n)⟩

/-! ### What is held for the group is freed -/

theorem freeHeld_frees (h : Hw) {g : Nat} {x : Group} (hx : h.grp? g = some x) :
    (h.freeHeld g).progs.atts = h.progs.atts ∧ ∃ y, (h.freeHeld g).grp? g = some y ∧ Group.Alike { x with early := [] } y := by
  have hk : (h.modGrp g (fun x => { x with early := [] })).Steady (h.freeHeld g) := by
    unfold Hw.freeHeld
    refine (foldl_steady (fun h e => ?_) _ _).trans (foldl_steady (fun h c => ?_) _ _)
    · exact (dropStored_steady ..).trans (countG_steady ..)
    · refine iteInduction (motive := h.Steady) (fun _ => .refl h) (fun _ => ?_)
      refine (foldl_steady (fun h q => .trans ?_ (countG_steady ..)) _ _).after rfl rfl
      split
      · exact dropStored_steady ..
      · exact .refl h
  obtain ⟨y, hy, halike⟩ := hk.grps g { x with early := [] } (by rw [grp?_modGrp, hx, Option.map_some])
  exact ⟨by rw [hk.atts, modGrp_progs], y, hy, halike⟩

/-- The status that a generation's record says. -/
theorem genRecord_status (h : Hw) {g : Nat} (x : Group) (n : Gen) (hjob : x.cfg.job < 4096) (hst : n.status < 128) : fld (h.genRecord g x n) 0 18 12 = n.status := by
  rw [fld, wnat, show (h.genRecord g x n).getD 0 0 = w32 (g * 2 ^ 19 + n.status * 2 ^ 12 + x.cfg.job) from rfl, w32, BitVec.toNat_ofNat, bits]
  omega

/-- What a group is once its generations have ended with a status. -/
theorem endGens_ends (h : Hw) {g : Nat} {x : Group} (status : Nat) (hx : h.grp? g = some x) :
    (h.endGens g status).NoEvents g ∧ ∃ y, (h.endGens g status).grp? g = some y ∧ y.gens = [] ∧ y.early = [] ∧
      ∀ n, x.gens = [n] → n.status ≤ status → 0 < status → status < 128 → x.cfg.job < 4096 → ∃ r, y.records.head? = some (n.no, r) ∧ fld r 0 18 12 = status := by
  obtain ⟨hcleared, -, -⟩ := clearAtts_clear (h.attsOf g) h
  have hno := clearAttsOf_noEvents h g
  rw [endGens_eq hx]
  generalize (h.attsOf g).foldl Hw.clearAtt h = h1 at hcleared hno ⊢
  obtain ⟨x1, hx1, halike1⟩ := hcleared g x hx
  obtain ⟨y, hy, hgens, hatts⟩ := endGens_all (status := status) x.gens h1 x1 hx1 fun m hm => halike1.nos ▸ List.mem_map_of_mem hm
  obtain ⟨hatts', z, hz, halike⟩ := freeHeld_frees (x.gens.foldl (Hw.endGen status g) h1) hy
  refine ⟨hno.kept (.of_eq (hatts'.trans hatts)), z, hz, ?_, halike.early rfl, fun n hn hst hpos h128 hjob => ?_⟩
  · exact List.map_eq_nil_iff.mp (halike.nos.trans (by rw [hgens]; rfl))
  · rw [hn] at hy
    obtain ⟨x2, y', halike2, hy', -, hrec⟩ := endGen_leaves h1 status hx1 n
    obtain rfl : y' = y := Option.some.inj (hy'.symm.trans hy)
    refine ⟨_, by rw [halike.same, hrec]; rfl, ?_⟩
    have hend : Gen.endStatus { n with status := max n.status status } = status := by
      rw [Gen.endStatus]
      dsimp only
      split <;> omega
    rw [genRecord_status _ _ _ (by rw [halike2.same, halike1.same]; exact hjob) (by rw [hend]; exact h128), hend]

/-! ### Attachments that are done go -/

/-- The messages of an attachment are freed. -/
theorem freeMsgs_steady (h : Hw) (l : Tbl (List (Nat × Nat × List Byte))) :
    h.Steady (l.foldl (fun h e => e.2.foldl (fun h m => h.dropStored e.1 m.1 homeUnit) h) h) :=
  foldl_steady (fun h e => foldl_steady (fun h m => dropStored_steady h e.1 m.1 homeUnit) e.2 h) l h

/-- An attachment that keeps the state of one that goes takes its windows. -/
def Att.heir (id : Nat) (a b : Att) : Att := if b.keepFrom = some id then { b with windows := a.windows, places := a.places, keepFrom := none } else b

theorem heir_keeps (id : Nat) (a b : Att) : (Att.heir id a b).grp = b.grp ∧ (Att.heir id a b).events = b.events := by
  rw [Att.heir]
  split <;> exact ⟨rfl, rfl⟩

theorem retireAtt_atts (h : Hw) (id : Nat) (a : Att) (i : Nat) : (h.retireAtt id a).att? i = if i = id then none else (h.att? i).map (Att.heir id a) := by
  have hmap (t : Tbl Att) : t.map (fun (e : Nat × Att) => if e.2.keepFrom = some id then (e.1, { e.2 with windows := a.windows, places := a.places, keepFrom := none }) else e)
      = t.map (fun e => (e.1, Att.heir id a e.2)) := List.map_congr_left fun e _ => by
    rw [Att.heir]
    split <;> rfl
  rw [Hw.retireAtt, Hw.att?, modProgs_progs]
  dsimp only
  rw [hmap, tget?_map, tget?_tdel, (freeMsgs_steady h a.msgs).atts]
  split
  · rfl
  · rfl

theorem retireAtt_alike (h : Hw) (id : Nat) (a : Att) : h.GroupsAlike (h.retireAtt id a) := fun g x hx => (freeMsgs_steady h a.msgs).grps g x hx

theorem retireAtt_quiet (h : Hw) (id : Nat) (a : Att) : h.AttsQuiet (h.retireAtt id a) := by
  intro i b hb
  rw [retireAtt_atts] at hb
  split at hb
  · exact nomatch hb
  · obtain ⟨b', hb', rfl⟩ := Option.map_eq_some_iff.mp hb
    obtain ⟨hgrp, hev⟩ := heir_keeps id a b'
    exact ⟨b', hb', hgrp, fun he => hev.trans he⟩

theorem retireAtts_keeps (h : Hw) : h.GroupsAlike h.retireAtts ∧ h.AttsQuiet h.retireAtts := by
  refine foldl_preserves (P := fun h' => h.GroupsAlike h' ∧ h.AttsQuiet h') ?_ _ ⟨(Hw.Steady.refl h).grps, (Hw.Steady.refl h).quiet⟩
  rintro h' id ⟨halike, hquiet⟩
  split
  · split
    · exact ⟨halike, hquiet⟩
    · exact ⟨halike.trans (retireAtt_alike h' id _), hquiet.trans (retireAtt_quiet h' id _)⟩
  · exact ⟨halike, hquiet⟩

/-! ### PROGRAM_GROUP_STOP -/

theorem execProgramGroupStop_waits {s : State} {g t cause : Nat} {x : Group} (hx : s.hw.grp? g = some x) (hstop : x.stop = some (t, cause))
    (hearly : s.hw.time.slot ≠ 0 ∨ s.hw.time.tick ≤ t) : exec (.programGroupStop g) s = .next s := by
  by_cases hslot : s.hw.time.slot = 0
  · rw [exec_programGroupStop, execProgramGroupStop, atEdge_zero hslot, Hw.programStop, hx]
    dsimp only
    rw [hstop]
    exact congrArg (fun h => Host.Outcome.next (s.withHw h)) (if_pos (hearly.resolve_left (not_not_intro hslot)))
  · rw [exec_programGroupStop, execProgramGroupStop, atEdge_later hslot]

theorem programStop_ends {h : Hw} {g t cause : Nat} {x : Group} (hx : h.grp? g = some x) (hstop : x.stop = some (t, cause)) (htick : t < h.time.tick) :
    (h.programStop g).NoEvents g ∧ ∃ y, (h.programStop g).grp? g = some y ∧ y.gens = [] ∧ y.early = [] ∧ y.rollback = true ∧ y.stop = none ∧
      ∀ n, x.gens = [n] → n.status ≤ 6 → x.cfg.job < 4096 → ∃ r, y.records.head? = some (n.no, r) ∧ fld r 0 18 12 = 6 := by
  obtain ⟨hno, y, hy, hgens, hearly, hrec⟩ := endGens_ends h 6 hx
  have heq : h.programStop g = (((h.endGens g 6).modGrp g (fun x => { x with stop := none })).needRollback g cause x.current).retireAtts := by
    rw [Hw.programStop, hx]
    dsimp only
    rw [hstop]
    exact if_neg (Nat.not_le.mpr htick)
  have hneed : (((h.endGens g 6).modGrp g (fun x => { x with stop := none })).needRollback g cause x.current).grp? g = some { y with stop := none, rollback := true } := by
    rw [needRollback_grp, grp?_modGrp, hy, Option.map_some, Option.map_some]
  have hno' : (((h.endGens g 6).modGrp g (fun x => { x with stop := none })).needRollback g cause x.current).NoEvents g :=
    hno.kept (.of_eq (by rw [needRollback_progs, modGrp_progs]))
  obtain ⟨halike, hquiet⟩ := retireAtts_keeps (((h.endGens g 6).modGrp g (fun x => { x with stop := none })).needRollback g cause x.current)
  obtain ⟨z, hz, hyz⟩ := halike g _ hneed
  rw [heq]
  refine ⟨hno'.kept hquiet, z, hz, ?_, hyz.early hearly, by rw [hyz.same], by rw [hyz.same], fun n hn hst hjob => ?_⟩
  · exact List.map_eq_nil_iff.mp (hyz.nos.trans (by rw [hgens]; rfl))
  · rw [hyz.same]
    exact hrec n hn hst (by decide) (by decide) hjob

end Sys2Proof.Machine
end

section
/-!
Invocations start, wait and end, messages join their queues, stalled invocations trap (R323, R324, R331, R333, R341, R373).
-/

namespace Sys2Proof.Machine
open Sys2Proof

/-! ### The threads of an invocation -/

theorem freeThread_place {h : Hw} {c core t : Nat} (ht : h.freeThread c core = some t) : t / 16 = 9 * c + core := by
  obtain ⟨j, hj, rfl⟩ := List.mem_map.mp (List.mem_of_find?_eq_some ht)
  have hj16 := List.mem_range.mp hj
  omega

theorem gangThreads_nodup {h : Hw} {c : Nat} {i : Image} {ts : List Nat} (hts : h.gangThreads c i = some ts) : ts.Nodup := by
  rw [Hw.gangThreads] at hts
  dsimp only at hts
  split at hts
  · split at hts
    · obtain rfl := Option.some.inj hts
      have hcores : (h.activeCores c).Nodup := (List.nodup_range.filter _).sublist (List.take_sublist _ _)
      refine hcores.filterMap fun core core' t ht ht' => ?_
      have := freeThread_place (Option.mem_def.mp ht)
      have := freeThread_place (Option.mem_def.mp ht')
      omega
    · exact nomatch hts
  · obtain ⟨t, _, rfl⟩ := Option.map_eq_some_iff.mp hts
    exact List.nodup_singleton t

/-- Entries put at different keys are all read back. -/
theorem tget?_foldl_tput_nth {α : Type} {ks : List Nat} (hks : ks.Nodup) (f : Nat → α) (t : Tbl α) {i n : Nat} (hi : i < n) (hn : n ≤ ks.length) :
    tget? ((List.range n).foldl (fun t j => tput t (nth ks j) (f j)) t) (nth ks i) = some (f i) := by
  induction n with
  | zero => omega
  | succ n ih =>
    rw [List.range_succ, List.foldl_append, List.foldl_cons, List.foldl_nil]
    by_cases hin : i = n
    · rw [hin, tget?_tput]
    · have hne : nth ks i ≠ nth ks n := by
        rw [nth, nth, List.getD_eq_getElem _ _ (by omega : i < ks.length), List.getD_eq_getElem _ _ (by omega : n < ks.length)]
        exact fun he => hin ((List.Nodup.getElem_inj_iff hks).mp he)
      rw [tget?_tput_ne _ _ hne, ih (by omega) (by omega)]

/-! ### INVOCATION_START -/

/-- An invocation of an event runs from now on, each of its threads at the hook's entry, and the attachments are as they were. -/
structure Hw.Started (h h' : Hw) (aid c : Nat) (a : Att) (e : HookEvent) (ts : List Nat) : Prop where
  inv : ∃ v, tget? h'.progs.invs h.progs.serial = some v ∧ v.att = aid ∧ v.cx = c ∧ v.ev = e ∧ v.threads = ts ∧ v.running = ts ∧ v.start = h.time.tick
  atts : h'.progs.atts = h.progs.atts
  threads : ∀ i, i < ts.length → ∃ th, tget? h'.progs.threads (nth ts i) = some th ∧ th.inv = h.progs.serial ∧ th.gang = i ∧ th.state = .running ∧ th.pc = a.image.entries.getD e.hook 0

theorem startInv_started (h : Hw) (aid c : Nat) (a : Att) (x : Group) (n : Option Gen) (e : HookEvent) {ts : List Nat} (hts : ts.Nodup) (res : Option Nat) :
    h.Started (h.startInv aid c a x n e ts res) aid c a e ts := by
  unfold Hw.startInv
  by_cases hook : e.hook < 2
  · simp only [if_pos hook]
    exact ⟨⟨_, tget?_tput .., rfl, rfl, rfl, rfl, rfl, rfl⟩, rfl, fun i hi => ⟨_, tget?_foldl_tput_nth hts _ _ hi (Nat.le_refl _), rfl, rfl, rfl, rfl⟩⟩
  · simp only [if_neg hook]
    exact ⟨⟨_, tget?_tput .., rfl, rfl, rfl, rfl, rfl, rfl⟩, rfl, fun i hi => ⟨_, tget?_foldl_tput_nth hts _ _ hi (Nat.le_refl _), rfl, rfl, rfl, rfl⟩⟩

section
variable {s : State} {c aid : Nat} {a : Att} {x : Group} {e : HookEvent} (hc : c < 144) (hserves : (s.hw.cx c).attach = .serving) (hsafe : s.hw.faults.state ≠ .safe)
  (hatts : s.hw.progs.atts = [(aid, a)]) (hevents : tget [] a.events c = [e]) (hinvs : ∀ v ∈ s.hw.progs.invs, v.2.att ≠ aid) (hgrp : s.hw.grp? a.grp = some x)
  (hstale : s.hw.staleEvent c x (x.gen? e.gen) e = none) (hptr : ∀ p, e.ptr = some p → s.hw.ptrOk c p = true) (hkeep : a.keepFrom = none)

theorem mayStart_alone (e : HookEvent) : mayStart [] [] e = true := by
  unfold mayStart
  dsimp only
  split <;> rfl

theorem firstStart_alone (e : HookEvent) : firstStart [] [e] [e] = some 0 := by
  simp [firstStart, List.range_succ, mayStart_alone]

/-- The state in which the one event of an attachment has been taken from its queue. -/
def Hw.tookEvent (h : Hw) (aid c : Nat) : Hw := h.modAtt aid (fun a => { a with events := tput a.events c [] })

include hatts hevents hinvs hgrp hstale hptr hkeep in
/-- The only event of the only attachment starts where its threads are free. -/
theorem tryStart_alone : s.hw.tryStart c aid = match s.hw.gangThreads c a.image with
    | none => none
    | some ts =>
      if a.image.maxThreads < ts.length then none
      else if e.hook = 1 then
        match (s.hw.tookEvent aid c).alloc c { pkt := { hdr := [w32 (resultBytes x.cfg)], payload := [], trailer := 0 }, cls := 0, owner := coreOwner (ts.headD 0 / 16 % 9) } with
        | some (h', p) => some (h'.startInv aid c a x (x.gen? e.gen) e ts (some p))
        | none => none
      else
        let taken := match e.ptr with
          | some p => (s.hw.tookEvent aid c).modBuf c p (fun b => { b with owner := coreOwner (ts.headD 0 / 16 % 9) })
          | none => s.hw.tookEvent aid c
        some (taken.startInv aid c a x (x.gen? e.gen) e ts none) := by
  have hatt : s.hw.att? aid = some a := by rw [Hw.att?, hatts, tget?, if_pos rfl]
  have hmates : s.hw.attsOf a.grp = [aid] := by rw [Hw.attsOf, hatts]; simp
  have hrunning : (s.hw.progs.invs.filter (fun e => [aid].contains e.2.att ∧ e.2.cx = c)) = [] :=
    List.filter_eq_nil_iff.mpr fun v hv => by simp [hinvs v hv]
  have hheld : s.hw.threadsHeld aid c = 0 := by
    rw [Hw.threadsHeld, List.filter_eq_nil_iff.mpr fun v hv => by simp [hinvs v hv]]
    rfl
  have hbad : e.ptr.any (fun p => ! s.hw.ptrOk c p) = false := by
    cases hp : e.ptr with
    | none => rfl
    | some p => rw [Option.any_some, hptr p hp]; rfl
  unfold Hw.tryStart
  simp only [hatt, hmates, hrunning, hevents, List.map_nil, List.flatMap_cons, List.flatMap_nil, Option.elim_some, List.append_nil, firstStart_alone, Option.bind_some,
    List.getElem?_cons_zero, Option.map_some, hgrp, hstale, hbad, hkeep, Option.isSome_none, Bool.false_eq_true, false_and, if_false, hheld, Nat.zero_add, List.eraseIdx_cons_zero]
    <;> rfl

include hatts hevents hinvs hgrp hstale hptr hkeep in
theorem tryStart_starts {ts : List Nat} (hpick : e.hook = 1 → ((s.hw.cx c).pick c ({ hdr := [w32 (resultBytes x.cfg)], payload := [], trailer := 0 } : Pkt).len false).isSome = true)
    (hgang : s.hw.gangThreads c a.image = some ts) (hroom : ts.length ≤ a.image.maxThreads) :
    ∃ (t : Hw) (res : Option Nat), s.hw.tryStart c aid = some (t.startInv aid c a x (x.gen? e.gen) e ts res) ∧ t.progs = (s.hw.tookEvent aid c).progs ∧ t.time = s.hw.time := by
  have htime : (s.hw.tookEvent aid c).time = s.hw.time := by
    unfold Hw.tookEvent Hw.modAtt
    split <;> rfl
  have hcx : (s.hw.tookEvent aid c).cx c = s.hw.cx c := by
    unfold Hw.tookEvent Hw.modAtt
    split <;> rfl
  rw [tryStart_alone hatts hevents hinvs hgrp hstale hptr hkeep, hgang]
  dsimp only
  rw [if_neg (Nat.not_lt.mpr hroom)]
  by_cases hook : e.hook = 1
  · obtain ⟨p, hp⟩ := Option.isSome_iff_exists.mp (hpick hook)
    rw [if_pos hook, Hw.alloc, hcx, hp, Option.map_some]
    exact ⟨_, _, rfl, modCx_progs .., htime⟩
  · rw [if_neg hook]
    cases e.ptr with
    | none => exact ⟨_, _, rfl, rfl, htime⟩
    | some p => exact ⟨_, _, rfl, modCx_progs .., htime⟩

include hc hserves hsafe hatts in
/-- With one attachment, the turn is its own. -/
theorem execInvocationStart_one : exec (.invocationStart c) s = .next (s.withHw (match s.hw.tryStart c aid with
    | none => s.hw
    | some h' => h'.modProgs (fun p => { p with turns := tput p.turns c aid }))) := by
  have horder (last : Nat) : [aid].filter (last < ·) ++ [aid].filter (· ≤ last) = [aid] := by
    by_cases hlast : last < aid
    · simp [hlast]
    · simp [hlast, Nat.not_lt.mp hlast]
  rw [exec_invocationStart, execInvocationStart, atUnit_in hc, onHw_next]
  refine congrArg (fun h => Host.Outcome.next (s.withHw h)) ((if_neg (not_or_intro (not_not_intro hserves) hsafe)).trans ?_)
  simp only [hatts, List.map_cons, List.map_nil, horder, List.findSome?_cons, List.findSome?_nil]
  cases s.hw.tryStart c aid <;> rfl

include hc hserves hsafe hatts hevents hinvs hgrp hstale hptr hkeep in
theorem execInvocationStart_waits (hgang : s.hw.gangThreads c a.image = none) : exec (.invocationStart c) s = .next s := by
  rw [execInvocationStart_one hc hserves hsafe hatts, tryStart_alone hatts hevents hinvs hgrp hstale hptr hkeep, hgang]
  rfl

include hc hserves hsafe hatts hevents hinvs hgrp hstale hptr hkeep in
theorem execInvocationStart_starts {ts : List Nat} (hpick : e.hook = 1 → ((s.hw.cx c).pick c ({ hdr := [w32 (resultBytes x.cfg)], payload := [], trailer := 0 } : Pkt).len false).isSome = true)
    (hgang : s.hw.gangThreads c a.image = some ts) (hroom : ts.length ≤ a.image.maxThreads) :
    ∃ h', exec (.invocationStart c) s = .next (s.withHw h') ∧
      (∃ v, tget? h'.progs.invs s.hw.progs.serial = some v ∧ v.att = aid ∧ v.cx = c ∧ v.ev = e ∧ v.threads = ts ∧ v.running = ts ∧ v.start = s.hw.time.tick) ∧
      (∃ a', h'.att? aid = some a' ∧ tget [] a'.events c = []) ∧
      ∀ i, i < ts.length → ∃ th, tget? h'.progs.threads (nth ts i) = some th ∧ th.inv = s.hw.progs.serial ∧ th.gang = i ∧ th.state = .running ∧ th.pc = a.image.entries.getD e.hook 0 := by
  obtain ⟨t, res, htry, hprogs, htime⟩ := tryStart_starts hatts hevents hinvs hgrp hstale hptr hkeep hpick hgang hroom
  obtain ⟨⟨v, hv, hatt, hcx, hev, hths, hrun, hstart⟩, hsame, hthreads⟩ := startInv_started t aid c a x (x.gen? e.gen) e (gangThreads_nodup hgang) res
  have hserial : t.progs.serial = s.hw.progs.serial := by
    rw [hprogs]
    unfold Hw.tookEvent Hw.modAtt
    split <;> rfl
  have htook : t.att? aid = some { a with events := tput a.events c [] } := by
    rw [Hw.att?, hprogs, ← Hw.att?, Hw.tookEvent, att?_modAtt, if_pos rfl, Hw.att?, hatts, tget?, if_pos rfl, Option.map_some]
  rw [hserial] at hv
  rw [htime] at hstart
  rw [hserial] at hthreads
  have hexec := execInvocationStart_one hc hserves hsafe hatts
  rw [htry] at hexec
  have hatt' : ((t.startInv aid c a x (x.gen? e.gen) e ts res).modProgs (fun p => { p with turns := tput p.turns c aid })).att? aid = some { a with events := tput a.events c [] } :=
    (congrArg (fun atts => tget? atts aid) hsame).trans htook
  exact ⟨_, hexec, ⟨v, hv, hatt, hcx, hev, hths, hrun, hstart⟩, ⟨_, hatt', tget_tput ..⟩, hthreads⟩

end

theorem execInvocationStart_none {s : State} {c : Nat} (hc : c < 144) (hatts : s.hw.progs.atts = []) : exec (.invocationStart c) s = .next (s.withHw s.hw) := by
  rw [exec_invocationStart, execInvocationStart, atUnit_in hc, onHw_next]
  refine congrArg (fun h => Host.Outcome.next (s.withHw h)) ?_
  simp only [hatts, List.map_nil, List.filter_nil, List.append_nil, List.findSome?_nil, ite_self]

/-! ### THREAD_WAKE -/

section
variable {s : State} {t : Nat} {th : Thread} (hth : tget? s.hw.progs.threads t = some th)
include hth

theorem execThreadWake_tick (come : Bool) (hstate : th.state = .waitTick come) :
    exec (.threadWake t) s = .next (s.withHw (if come then s.hw.modProgs (fun p => { p with threads := tput p.threads t { th with state := .running } }) else s.hw)) := by
  rw [exec_threadWake, execThreadWake, onHw_next]
  simp only [hth, hstate]

theorem execThreadWake_message {v : Inv} {a : Att} (hstate : th.state = .waitMsg) (hv : tget? s.hw.progs.invs th.inv = some v) (ha : s.hw.att? v.att = some a) :
    exec (.threadWake t) s = .next (s.withHw (if tget [] a.msgs v.cx ≠ [] then s.hw.modProgs (fun p => { p with threads := tput p.threads t { th with state := .running } }) else s.hw)) := by
  rw [exec_threadWake, execThreadWake, onHw_next]
  simp only [hth, hstate, hv, ha, Option.bind_some, Option.map_some, decide_eq_true_eq]

end

/-! ### PROGRAM_MESSAGE_RECEIVE -/

section
variable {s : State} {c : Nat} {mp : MeshPkt} (hc : c < 144) (hwork : (s.hw.cx c).work = [mp]) (htype : mp.pkt.ptype = 15)
include hc hwork htype

/-- The only message at a complex leaves its work. -/
theorem execProgramMessageReceive_gone (hatt : s.hw.att? (mp.pkt.word 1) = none) : exec (.programMessageReceive c) s =
    .next (s.withHw ((s.hw.modCx c (fun x => { x with work := [] })).modProgs (fun p => { p with discarded := sat32 (p.discarded + 1) }))) := by
  have htaken : s.hw.modCx c (fun x => { x with work := x.work.erase mp }) = s.hw.modCx c (fun x => { x with work := [] }) :=
    modCx_congr (by rw [hwork, List.erase_cons_head])
  have hatt' : (s.hw.modCx c (fun x => { x with work := [] })).att? (mp.pkt.word 1) = none := hatt
  rw [exec_programMessageReceive, execProgramMessageReceive, atUnit_in hc, onHw_next]
  simp only [hwork, List.filter_cons, List.filter_nil, htype, decide_true, if_true, List.find?_cons, hatt, htaken, hatt']

theorem execProgramMessageReceive_joins {a : Att} (hatt : s.hw.att? (mp.pkt.word 1) = some a) (hroom : (tget [] a.msgs c).length < 64)
    (hpick : ((s.hw.cx c).pick c mp.pkt.len false).isSome = true) :
    ∃ h' p a', exec (.programMessageReceive c) s = .next (s.withHw h') ∧ (h'.cx c).work = [] ∧ h'.att? (mp.pkt.word 1) = some a' ∧
      tget [] a'.msgs c = tget [] a.msgs c ++ [(p, mp.pkt.word 2, mp.pkt.payload)] ∧ ∃ b, h'.buf? c p = some b ∧ b.pkt = mp.pkt := by
  have htaken : s.hw.modCx c (fun x => { x with work := x.work.erase mp }) = s.hw.modCx c (fun x => { x with work := [] }) :=
    modCx_congr (by rw [hwork, List.erase_cons_head])
  have hatt' : (s.hw.modCx c (fun x => { x with work := [] })).att? (mp.pkt.word 1) = some a := hatt
  obtain ⟨p, hp⟩ := Option.isSome_iff_exists.mp hpick
  have hpick' : ((s.hw.modCx c (fun x => { x with work := [] })).cx c).pick c mp.pkt.len false = some p := by
    rw [cx_modCx]
    exact hp
  obtain ⟨h2, halloc⟩ : ∃ h2, (s.hw.modCx c (fun x => { x with work := [] })).alloc c { pkt := mp.pkt, cls := 0, owner := homeUnit, epoch := mp.epoch } = some (h2, p) :=
    ⟨_, by rw [Hw.alloc, hpick', Option.map_some]⟩
  obtain ⟨-, heq, hbuf⟩ := alloc_buf? halloc
  have hatt2 : h2.att? (mp.pkt.word 1) = some a := by rw [heq]; exact hatt
  have hcxs (f : Att → Att) : (h2.modAtt (mp.pkt.word 1) f).cxs = h2.cxs := by
    unfold Hw.modAtt
    split <;> rfl
  have hatt3 : (h2.modAtt (mp.pkt.word 1) (fun a => { a with msgs := tmod [] a.msgs c (· ++ [(p, mp.pkt.word 2, mp.pkt.payload)]) })).att? (mp.pkt.word 1)
      = some { a with msgs := tmod [] a.msgs c (· ++ [(p, mp.pkt.word 2, mp.pkt.payload)]) } := by rw [att?_modAtt, if_pos rfl, hatt2, Option.map_some]
  have hbuf3 : (h2.modAtt (mp.pkt.word 1) (fun a => { a with msgs := tmod [] a.msgs c (· ++ [(p, mp.pkt.word 2, mp.pkt.payload)]) })).buf? c p
      = some { pkt := mp.pkt, cls := ptrClass p, owner := homeUnit, epoch := mp.epoch } := by
    rw [Hw.buf?, Hw.cx, hcxs]
    exact hbuf
  refine ⟨_, p, _, ?_, ?_, hatt3, tget_tput .., _, hbuf3, rfl⟩
  · rw [exec_programMessageReceive, execProgramMessageReceive, atUnit_in hc, onHw_next]
    simp only [hwork, List.filter_cons, List.filter_nil, htype, decide_true, if_true, List.find?_cons, hatt, hroom, hpick, Bool.and_self, htaken, hatt', halloc]
  · rw [Hw.cx, hcxs, ← Hw.cx, heq, cx_modCx, cx_modCx]
    rfl

theorem execProgramMessageReceive_waits {a : Att} (hatt : s.hw.att? (mp.pkt.word 1) = some a) (hfull : 64 ≤ (tget [] a.msgs c).length) : exec (.programMessageReceive c) s = .next s := by
  rw [exec_programMessageReceive, execProgramMessageReceive, atUnit_in hc, onHw_next]
  simp only [hwork, List.filter_cons, List.filter_nil, htype, decide_true, if_true, List.find?_cons, List.find?_nil, hatt, Nat.not_lt.mpr hfull, decide_false, Bool.false_and]
  rfl

end

/-! ### STALLED_TRAP -/

theorem stall_one {h : Hw} {v : Inv} {t : Nat} {th : Thread} (hrun : v.running = [t]) (hth : tget? h.progs.threads t = some th) (hlive : th.state ≠ .stopped) :
    h.stall v = h.trap t 8 0 0 := by
  have hl : h.live t = true := by rw [Hw.live, hth, Option.any_some]; exact decide_eq_true hlive
  have heta (h : Hw) : h.modProgs (fun p => { p with threads := p.threads }) = h := rfl
  rw [Hw.stall, hrun, List.filter_cons_of_pos hl]
  exact heta _

section
variable {s : State} {c id t : Nat} {v : Inv} {th : Thread} {a : Att} {x : Group} (hc : c < 144) (hinvs : s.hw.progs.invs = [(id, v)]) (hatt : s.hw.att? v.att = some a)
  (hgrp : s.hw.grp? a.grp = some x)
include hc hinvs hatt hgrp

theorem execStalledTrap_waits (hearly : s.hw.time.slot ≠ 0 ∨ s.hw.time.tick < v.start + x.cfg.patience + 1) : exec (.stalledTrap c) s = .next s := by
  rw [exec_stalledTrap, execStalledTrap, atUnit_in hc]
  by_cases hslot : s.hw.time.slot = 0
  · have hnot : ¬ v.start + x.cfg.patience + 1 ≤ s.hw.time.tick := Nat.not_le.mpr (hearly.resolve_left (not_not_intro hslot))
    rw [atEdge_zero hslot, stallAt_none]
    · rfl
    · rw [hinvs]
      intro w hw
      rw [List.mem_singleton.mp hw, Hw.stalled, hatt, Option.bind_some, hgrp, Option.any_some, decide_eq_false hnot, Bool.and_false]
  · exact atEdge_later hslot

theorem execStalledTrap_traps (hcx : v.cx = c) (hrun : v.running = [t]) (hth : tget? s.hw.progs.threads t = some th) (hlive : th.state ≠ .stopped)
    (hslot : s.hw.time.slot = 0) (hlate : v.start + x.cfg.patience + 1 ≤ s.hw.time.tick) : exec (.stalledTrap c) s = .next (s.withHw (s.hw.trap t 8 0 0)) := by
  have hl : s.hw.live t = true := by rw [Hw.live, hth, Option.any_some]; exact decide_eq_true hlive
  have hstalled : s.hw.stalled v = true := by
    rw [Hw.stalled, hrun, hatt, Option.bind_some, hgrp, Option.any_some, decide_eq_true hlate, List.any_cons, hl]
    rfl
  rw [exec_stalledTrap, execStalledTrap, atUnit_in hc, atEdge_zero hslot, Hw.stallAt, hinvs, List.filter_cons_of_pos (by rw [hcx, hstalled]; simp), List.filter_nil]
  exact congrArg (fun h => Host.Outcome.next (s.withHw h)) (stall_one hrun hth hlive)

end

/-- Settles O50: an event starts on its gang's threads, messages and ticks wake, and a program's stop ends its group's generations. -/
theorem invocationsRun : Obligations.InvocationsRun := by
  unfold Obligations.InvocationsRun
  refine ⟨?_, fun s c hc hatts => execInvocationStart_none hc hatts, ?_, ?_, ?_, ?_⟩
  · intro s c aid a x e hc hserves hsafe h hatts hevents hinvs hgrp hstale hptr hkeep hpick
    exact ⟨execInvocationStart_waits hc hserves hsafe hatts hevents hinvs hgrp hstale hptr hkeep,
      fun ts hgang hroom => execInvocationStart_starts hc hserves hsafe hatts hevents hinvs hgrp hstale hptr hkeep hpick hgang hroom⟩
  · intro s t th hth
    refine ⟨fun hstate => execThreadWake_tick hth true hstate, fun hstate => execThreadWake_tick hth false hstate, fun v a hstate hv ha => ⟨fun hmsgs => ?_, fun hmsgs => ?_⟩⟩
    · rw [execThreadWake_message hth hstate hv ha, if_pos hmsgs]
    · rw [execThreadWake_message hth hstate hv ha, if_neg (not_not_intro hmsgs)]
      rfl
  · intro s c mp hc hwork htype
    exact ⟨execProgramMessageReceive_gone hc hwork htype, fun a hatt hroom hpick => execProgramMessageReceive_joins hc hwork htype hatt hroom hpick,
      fun a hatt hfull => execProgramMessageReceive_waits hc hwork htype hatt hfull⟩
  · intro s c id t v th a x hc hinvs hcx hrun hth hlive hatt hgrp
    exact ⟨execStalledTrap_traps hc hinvs hatt hgrp hcx hrun hth hlive, execStalledTrap_waits hc hinvs hatt hgrp⟩
  · intro s g t cause x hx hstop
    refine ⟨execProgramGroupStop_waits hx hstop, fun hslot htick => ?_⟩
    obtain ⟨hno, y, hy, hgens, hearly, hroll, hstopped, hrec⟩ := programStop_ends hx hstop htick
    refine ⟨s.hw.programStop g, y, ?_, hy, hgens, hearly, hroll, hstopped, fun i a ha hg c => ?_, fun n hn hst hjob _ => hrec n hn hst hjob⟩
    · rw [exec_programGroupStop, execProgramGroupStop, atEdge_zero hslot]
    · rw [hno i a ha hg]
      rfl

end Sys2Proof.Machine
end

section
/-!
The end of a chunk's patience (R268): the statement takes every state, and in one whose table of open chunks lists a chunk twice, the second time as one that
waits for its program, the runs settled for the lost contributor put that second entry in the place of the first, and the chunk does not finish. A table in its
canonical form lists no chunk twice.
-/

namespace Sys2Proof.Machine
open Sys2Proof

/-- A chunk at complex 3 that awaits its one contributor, its patience at an end. -/
def awaitingChunk : Chunk := { addr := 3, cx := 3, patience := 0 }

/-- A generation whose table lists chunk 0 a second time, as one that waits for its program. -/
def twiceListed : Gen := { no := 0, list := [0], homes := [3], open_ := [(0, awaitingChunk), (0, { awaitingChunk with ending := true })] }

/-- An ORDERED group in that generation. -/
def twiceGroup : Group :=
  { cfg := { image := [], job := 7, gather := false, prio := 0, spill := false, echoKeep := false, patience := 4, depth := 1, arith := { mode := 1 },
             size := 0, chunks := 1, shard := 1, perTick := 1, hold := 0, sheaf := 0, homeMask := 1, members := [{ rank := 0, contrib := true }] },
    state := .active, mask := [true], gens := [twiceListed] }

def twicePart : Hw := { groups := [(1, twiceGroup)] }

/-- The finished chunks of generation 0 of group 1 after a step. -/
def finishedAfter (o : Out) : Option (List Nat) :=
  match o with
  | .next s => (s.hw.grp? 1).bind (fun x => (x.gen? 0).map (·.done))
  | _ => none

/-- Refutes O48: at the end of its patience the chunk listed twice does not finish. -/
theorem not_groupClocksMovesAndRingLoss : ¬ Obligations.GroupClocksMovesAndRingLoss := by
  unfold Obligations.GroupClocksMovesAndRingLoss
  rintro ⟨hclocks, -⟩
  obtain ⟨-, hpatience, -⟩ := hclocks { hw := twicePart } 1 twiceGroup rfl
  obtain ⟨-, hends⟩ := hpatience twiceListed 0 awaitingChunk rfl rfl rfl
  obtain ⟨h', x', hexec, hgrp, -, hdone⟩ := hends rfl (by decide +kernel) rfl (by decide +kernel) (by decide) rfl (by decide +kernel) rfl rfl
  have hmodel : finishedAfter (exec (.patienceExpiry 1 0 0) { hw := twicePart }) = some [] := by decide +kernel
  have hstep : exec (.patienceExpiry 1 0 0) { hw := twicePart } = .next (State.withHw { hw := twicePart } h') := hexec
  rw [hstep] at hmodel
  obtain ⟨y, hy, hmap⟩ := Option.bind_eq_some_iff.mp hmodel
  obtain ⟨n', hn', hnone⟩ := Option.map_eq_some_iff.mp hmap
  obtain rfl : y = x' := Option.some.inj (hy.symm.trans hgrp)
  exact absurd (hdone n' hn') (by rw [hnone]; exact List.not_mem_nil)

end Sys2Proof.Machine
end
